-- ==== Sys2Proof/Word.lean ====
section
/-! DEFINITION. The word types of the module and their plainest arithmetic: every host register is 32 bits (00_scope R11), everything in memory is bytes, little-endian (00_scope R11). -/
namespace Sys2Proof

/-- A 32-bit register or variable word (00_scope R11). -/
abbrev Word := BitVec 32

/-- One byte. -/
abbrev Byte := BitVec 8

/-- A string of bytes in ascending address order. -/
abbrev Bytes := List Byte

end Sys2Proof
end

