-- ==== Sys2Proof/Syntax.lean ====
section
/-! DEFINITION. The commands of the block, one constructor per row of spec/opcode_table.json, and the data that commands carry from outside. -/
namespace Sys2Proof

/-- The three task classes of the cycle engine (05 Table 5-1). -/
inductive TaskClass where
  | fast
  | network
  | slow
deriving DecidableEq, Repr

/-- What becomes of a frame that the module sent (04 R124): acknowledged and without error, no acknowledge, or an error on the bus. -/
inductive TxResult where
  | acked
  | noAck
  | error
deriving DecidableEq, Repr

/-- How an error on the bus moves the error counters by ISO 11898-1 (03 R99, notes/assumptions/32): an error as such; one after whose flag a receiver sees a dominant bit at once; a missing acknowledge in error passive state with no dominant bit seen during the passive flag; a stuff error in arbitration, recessive sent and dominant read; a bit error while an active error flag or an overload flag is sent; eight further dominant bits in a row after a flag. -/
inductive ErrorStep where
  | plain
  | primary
  | silent
  | arbStuff
  | flagBit
  | dominantRun
deriving DecidableEq, Repr

/-- The transceiver faults that fence a line (03 Table 3-9, causes 2 to 4). -/
inductive XcvrFault where
  | dominant
  | thermal
  | groupSupply
deriving DecidableEq, Repr

/-- Who reads a poisoned word (01 R28, 09 Table 9-7, 18 Table 18-5). -/
inductive Reader where
  | cycleEngine (core : Nat)
  | tile (slot : Nat)
  | staging (slot : Nat)
  | tileMemory (slot : Nat)
  | lineDma
  | meteringDsp (channel : Nat)
  | supervisor
  | ventRules
  | hostDma (mb : Nat)
  | hostPage
deriving DecidableEq, Repr

/-- Where the line DMA engine sends the frame of a TX_EXCL window: the window entry, and the NT of the first bus idle from START + GUARD on, which is that instant where no other node holds the bus (04 R113). -/
structure TxStart where
  entry : Nat
  idle : Nat
deriving DecidableEq, Repr

/-- What takes the host link down (12 R333, 20 R488). -/
inductive LinkDown where
  | hotReset
  | linkDown
  | peRstN
deriving DecidableEq, Repr

/-- What resets the module (19 R474, 20 R488). -/
inductive ResetCause where
  | resetN
  | testmode
deriving DecidableEq, Repr

/-- The instructions of the boundary-scan port (20 R489). -/
inductive ScanOp where
  | bypass
  | idcode
  | samplePreload
  | extest
  | testReset
deriving DecidableEq, Repr

/-- A frame on a line as a receiver sees it at its frame-valid point (03 Table 3-6). -/
structure Frame where
  ident : Nat
  ide : Bool
  fdf : Bool
  brs : Bool
  esi : Bool
  remote : Bool
  dlc : Nat
  data : Bytes
deriving DecidableEq, Repr

/-- The commands: one constructor per row of the table of operations and events. -/
inductive Instr where
  /-- BOUNDARY (R34). At NT Tk the matrix-cycle boundary closes the input cut, exchanges the output images, publishes due solve results and starts basic cycle 0 on every line. -/
  | boundary
  /-- SAFE_EXIT_DECISION (R276). A SAFE_EXIT request is decided at the first boundary or heartbeat at which SAFE_ENTRY is clear. -/
  | safeExitDecision
  /-- FENCE_HOLD_EXPIRY (R100). FHOLD of a fenced line runs out at a boundary, and the line returns to INTEGRATING if no transceiver fault is present. -/
  | fenceHoldExpiry (line : Nat)
  /-- RECOVERY_WINDOW_EXPIRY (R100). A bus-off leaves the recovery window of its line after the number of matrix cycles that the window spans. -/
  | recoveryWindowExpiry (line : Nat)
  /-- NETWORK_RELEASE (R129). At Tk + 250 µs the exports are published and the NETWORK task is released with its latched start NT. -/
  | networkRelease
  /-- FAST_RELEASE (R129). At each FAST release instant the FAST task is released and the DI set is latched. -/
  | fastRelease
  /-- TASK_DEADLINE (R142). A task execution that has not completed at its deadline is an overrun, and its releases are skipped. -/
  | taskDeadline (task : TaskClass)
  /-- TASK_STOP (R145). An execution with 8 skipped releases is stopped at its next instance boundary, and a SAFE fault is raised. -/
  | taskStop (task : TaskClass)
  /-- BARRIER_RELEASE (R134). The cores of a task continue once all of them have reached the same barrier. -/
  | barrierRelease (task : TaskClass)
  /-- SWAP_START (R158). A pending swap starts once its conditions hold, and it copies the carried data into the new slot. -/
  | swapStart
  /-- NOP (R132). A NOP instance executes and does nothing. -/
  | nop (core : Nat)
  /-- ADD (R172). An ADD instance sums its inputs in index order. -/
  | add (core : Nat)
  /-- SUB (R172). A SUB instance computes IN0 − IN1. -/
  | sub (core : Nat)
  /-- MUL (R172). A MUL instance multiplies its inputs left to right. -/
  | mul (core : Nat)
  /-- DIV (R173). A DIV instance divides, with the stated results for a zero divisor. -/
  | div (core : Nat)
  /-- MOD (R173). A MOD instance computes the remainder with the sign of IN0. -/
  | mod (core : Nat)
  /-- ABS (R172). An ABS instance gives the absolute value of its input. -/
  | abs (core : Nat)
  /-- NEG (R172). A NEG instance inverts the sign of its input. -/
  | neg (core : Nat)
  /-- MIN (R172). A MIN instance gives the smallest of its inputs. -/
  | min (core : Nat)
  /-- MAX (R172). A MAX instance gives the largest of its inputs. -/
  | max (core : Nat)
  /-- LIMIT (R172). A LIMIT instance clamps IN to the range [MN, MX]. -/
  | limit (core : Nat)
  /-- SQRT (R172). A SQRT instance computes the square root of its input. -/
  | sqrt (core : Nat)
  /-- SCALE (R172). A SCALE instance computes (IN × GAIN) + OFFSET. -/
  | scale (core : Nat)
  /-- CONV (R174). A CONV instance converts its input between types. -/
  | conv (core : Nat)
  /-- CMP (R175). A CMP instance compares IN0 with IN1 by OP. -/
  | cmp (core : Nat)
  /-- AND (R175). An AND instance gives the bitwise AND of its inputs. -/
  | and (core : Nat)
  /-- OR (R175). An OR instance gives the bitwise OR of its inputs. -/
  | or (core : Nat)
  /-- XOR (R175). An XOR instance gives the bitwise XOR of its inputs. -/
  | xor (core : Nat)
  /-- NOT (R175). A NOT instance complements its input. -/
  | not (core : Nat)
  /-- SEL (R175). A SEL instance selects IN0 or IN1 by G. -/
  | sel (core : Nat)
  /-- MUX (R175). A MUX instance selects input K. -/
  | mux (core : Nat)
  /-- SR (R175). An SR instance updates its set-dominant latch. -/
  | sr (core : Nat)
  /-- RS (R175). An RS instance updates its reset-dominant latch. -/
  | rs (core : Nat)
  /-- BITGET (R175). A BITGET instance returns one bit of its input. -/
  | bitget (core : Nat)
  /-- BITSET (R175). A BITSET instance replaces one bit of its input. -/
  | bitset (core : Nat)
  /-- RTRIG (R176). An RTRIG instance detects a rising edge of CLK. -/
  | rtrig (core : Nat)
  /-- FTRIG (R176). An FTRIG instance detects a falling edge of CLK. -/
  | ftrig (core : Nat)
  /-- TON (R177). A TON instance runs an on-delay timer, cyclic or not, on DT. -/
  | ton (core : Nat)
  /-- TOF (R177). A TOF instance runs an off-delay timer on DT. -/
  | tof (core : Nat)
  /-- TP (R177). A TP instance runs a pulse timer that cannot be retriggered. -/
  | tp (core : Nat)
  /-- TON_L (R176). A TON_L instance runs an on-delay timer with PT and ET in ms. -/
  | tonL (core : Nat)
  /-- CTU (R178). A CTU instance counts rising edges of CU up. -/
  | ctu (core : Nat)
  /-- CTD (R178). A CTD instance counts rising edges of CD down. -/
  | ctd (core : Nat)
  /-- CTUD (R178). A CTUD instance counts up and down. -/
  | ctud (core : Nat)
  /-- RAMP (R176). A RAMP instance limits the rate of change of its output. -/
  | ramp (core : Nat)
  /-- RATE (R176). A RATE instance computes the rate of change of its input. -/
  | rate (core : Nat)
  /-- PID (R180). A PID instance executes its control step with anti-windup and manual tracking. -/
  | pid (core : Nat)
  /-- PT1 (R179). A PT1 instance applies a first-order lag. -/
  | pt1 (core : Nat)
  /-- DEADBAND (R179). A DEADBAND instance applies a deadband to its input. -/
  | deadband (core : Nat)
  /-- HYST (R179). A HYST instance applies a hysteresis switch. -/
  | hyst (core : Nat)
  /-- CURVE (R181). A CURVE instance interpolates in a curve table. -/
  | curve (core : Nat)
  /-- HEATCURVE (R182). A HEATCURVE instance computes the filtered outdoor temperature, the supply setpoint and the heating decision. -/
  | heatcurve (core : Nat)
  /-- SPLIT (R179). A SPLIT instance splits its input into two ranges. -/
  | split (core : Nat)
  /-- TOTAL (R183). A TOTAL instance integrates its input into a 64-bit accumulator. -/
  | total (core : Nat)
  /-- GETP (R185). A GETP instance reads a point from the image of its release. -/
  | getp (core : Nat)
  /-- PUTP (R185). A PUTP instance writes a point into the output working image. -/
  | putp (core : Nat)
  /-- QUAL (R184). A QUAL instance returns the quality state, quality byte, age and usability of a point. -/
  | qual (core : Nat)
  /-- UNITSTAT (R184). A UNITSTAT instance returns the unit state as it stood at the boundary of the release. -/
  | unitstat (core : Nat)
  /-- SOLVE_REQ (R186). A SOLVE_REQ instance requests and binds a solve of a slot, or rejects it with a CODE. -/
  | solveReq (core : Nat)
  /-- SOLVE_GET (R187). A SOLVE_GET instance returns an element, the status, SEQ and PUB of the last published result. -/
  | solveGet (core : Nat)
  /-- EVREC (R188). An EVREC instance refills its bucket and offers a program event record. -/
  | evrec (core : Nat)
  /-- CLOCK (R189). A CLOCK instance returns the time and calendar values of the latched tick count. -/
  | clock (core : Nat)
  /-- TASK_DISPATCH (R205). A free tile receives the ready solve task of lowest list index under the priority rule. -/
  | taskDispatch (tile : Nat)
  /-- TASK_COMPUTE_DONE (R204). A solve task finishes its compiled cycle count and holds its result in its context. -/
  | taskComputeDone (tile : Nat) (ctx : Nat)
  /-- TASK_RETIRE (R204). A completed solve task retires after its ACC_PREV and combines its result into the target block. -/
  | taskRetire (tile : Nat) (ctx : Nat)
  /-- STAGING_COPY (R207). The staging engine completes the copy of a block between bulk memory and a staging slot. -/
  | stagingCopy (slot : Nat) (block : Nat) (toBulk : Bool)
  /-- SOLVE_BACKSTOP (R248). At the backstop instant an unfinished solve is ended with status TIMEOUT. -/
  | solveBackstop (slot : Nat)
  /-- BASIC_CYCLE_START (R109). A basic cycle begins on every line at its NT. -/
  | basicCycleStart
  /-- REFERENCE_FRAME (R115). The module transmits the reference frame of a basic cycle at the nominal start or at the first bus idle. -/
  | referenceFrame (line : Nat) (at_ : Nat)
  /-- REFERENCE_FRAME_TIMEOUT (R116). A reference frame not started within GUARD of the nominal start is dropped and counted. -/
  | referenceFrameTimeout (line : Nat)
  /-- TX_WINDOW_START (R119). At the start of a TX_EXCL window the line DMA engine builds the frame from the output image and sends it. -/
  | txWindowStart (line : Nat) (window : TxStart)
  /-- TX_FRAME_DONE (R124). A transmitted frame completes or fails, and it is judged acknowledged or not. -/
  | txFrameDone (line : Nat) (at_ : Nat) (result : TxResult)
  /-- RETRY_SEND (R125). An unacknowledged TX_EXCL frame is retried once in a later FREE or ARB window in which it fits, or it is dropped. -/
  | retrySend (line : Nat) (window : Nat) (at_ : Nat)
  /-- INJECTION_SEND (R267). A queued injection enters arbitration at the next bus idle, with up to 4 attempts. -/
  | injectionSend (line : Nat) (at_ : Nat)
  /-- FRAME_RECEIVED (R93). A frame reaches its frame-valid point, is checked and is delivered to a buffer or discarded. -/
  | frameReceived (line : Nat) (at_ : Nat) (frame : Frame)
  /-- RX_WINDOW_END (R127). At the end of an RX_EXCL window the station is judged and its state moves by Table 4-7. -/
  | rxWindowEnd (line : Nat) (window : Nat)
  /-- LINE_ERROR (R99). An error on the bus changes TEC or REC and may move the line state. -/
  | lineError (line : Nat) (kind : Nat) (dataPhase : Bool) (transmitting : Bool) (how : ErrorStep)
  /-- LINE_INTEGRATED (R99). 11 consecutive recessive bits take an integrating line to ERROR_ACTIVE. -/
  | lineIntegrated (line : Nat)
  /-- BUS_OFF_RECOVERY (R99). 128 occurrences of 11 recessive bits end bus-off. -/
  | busOffRecovery (line : Nat)
  /-- XCVR_FAULT (R105). A dominant time-out, thermal shutdown or group supply fault fences the line or lines affected. -/
  | xcvrFault (line : Nat) (fault : XcvrFault)
  /-- VENT_EVENT (R263). An event taken into the vent pipeline evaluates all 1,024 rules and starts their actions. -/
  | ventEvent
  /-- DI_CHANGE (R269). The synchronised level of a DI changes. -/
  | diChange (input : Nat) (level : Bool) (at_ : Nat)
  /-- DI_FILTER_EXPIRY (R269). The filtered level of a DI takes a synchronised level that has been stable for FILTER µs. -/
  | diFilterExpiry (input : Nat)
  /-- FAULT_RAISED (R276). A raised fault pre-empts the handling in progress or enters the fault queue. -/
  | faultRaised (code : Nat) (cls : Nat) (words : List Word)
  /-- FAULT_HANDLING (R276). The supervisor handles the next fault by its class. -/
  | faultHandling
  /-- SAFE_ENTRY_WATCHDOG (R277). An entry watchdog reaching 100 µs enters the hardware safe state. -/
  | safeEntryWatchdog
  /-- CLOCK_LOSS (R23). The loss of the reference or of PLL lock is a HALT fault. -/
  | clockLoss (pll : Bool)
  /-- LOCKSTEP_MISMATCH (R275). A mismatch between the supervisor cores is a HALT fault. -/
  | lockstepMismatch
  /-- POISONED_READ (R28). A double-bit error returns a poisoned transaction and raises a fault by requester. -/
  | poisonedRead (reader : Reader) (addr : Nat)
  /-- SCRUB_PASS (R28). The scrubber reads and corrects every word of the central store once every 10 s. -/
  | scrubPass
  /-- HEARTBEAT (R278). The supervisor writes the heartbeat every 1,000 ms in START, TEST and RECOVERY. -/
  | heartbeat
  /-- SUP_WDOG (R278). A heartbeat missing beyond its limit is fault SUP_WDOG. -/
  | supWdog
  /-- METER_TICK (R293). At each 10 ms tick end the DSP adds energy to the registers and updates the view. -/
  | meterTick (samples : List (List Nat)) (poisoned : List (Nat × Nat × Nat))
  /-- FUNDAMENTAL_CYCLE (R290). A fundamental cycle of a voltage set completes, and P1, Q1 and the lock state are updated. -/
  | fundamentalCycle (set : Nat) (period : Nat) (samples : List (List Nat))
  /-- LOCK_TIMEOUT (R289). Three nominal periods with no phase at or above ULOCK unlock the set. -/
  | lockTimeout (set : Nat)
  /-- METER_SECOND (R291). The one-second values of the metering registers are formed. -/
  | meterSecond
  /-- PERIODIC_SAVE (R303). At a save tick end an energy record and a heat record are written, after waiting for a busy page. -/
  | periodicSave
  /-- METERING_STOP (R305). Metering into the tail stops at the end of the page stores or 15 ms after the latch. -/
  | meteringStop
  /-- WATCH_SECOND (R313). On VBAT the watch forms Irms each second, adds to the totals and may write a record. -/
  | watchSecond (samples : List (List (List Nat)))
  /-- WATCH_LIMIT (R312). The current-only watch ends when WATCH_LIMIT elapses. -/
  | watchLimit
  /-- SPI_WRITE (R338). An SPI WRITE frame writes one or more register words. -/
  | spiWrite (addr : Nat) (words : List Word)
  /-- SPI_READ (R338). An SPI READ frame reads one or more register words. -/
  | spiRead (addr : Nat) (count : Nat)
  /-- SPI_RESERVED (R338). An SPI frame with a reserved command is ignored and counted. -/
  | spiReserved (command : Nat)
  /-- SPI_FRAME_ABORT (R340). SPI_CS_N rising before the end of a word discards the incomplete write and counts the frame. -/
  | spiFrameAbort (isRead : Bool) (addr : Nat) (words : List Word)
  /-- PCIE_MEM_READ (R337). A memory read request to BAR0 completes, or is refused. -/
  | pcieMemRead (addr : Nat) (count : Nat)
  /-- PCIE_MEM_WRITE (R337). A memory write request to BAR0 is performed, or is refused. -/
  | pcieMemWrite (addr : Nat) (words : List (Word × Nat))
  /-- PCIE_CONFIG_ACCESS (R334). A configuration request accesses the type 0 header. -/
  | pcieConfigAccess (write : Bool) (offset : Nat) (value : Word) (enables : Nat)
  /-- PCIE_POWER_STATE (R336). The host places the function in D3hot or returns it to D0. -/
  | pciePowerState (d3hot : Bool)
  /-- LINK_DOWN (R333). A hot reset, link-down or PE_RST_N resets only the host link. -/
  | linkDown (why : LinkDown)
  /-- MSI_SEND (R345). A pending, unmasked MSI vector sends its message. -/
  | msiSend (vector : Nat)
  /-- GLB_NT_LO_READ (R343). A read of GLB_NT_LO latches the high word of NT into GLB_NT_HI. -/
  | glbNtLoRead
  /-- GLB_CPL_READ (R354). A read of GLB_CPL returns and removes the oldest completion entry. -/
  | glbCplRead
  /-- GLB_IRQ_STAT_WRITE (R345). A W1C write to GLB_IRQ_STAT clears bits and re-sends still-pending vectors. -/
  | glbIrqStatWrite (value : Word)
  /-- GLB_IRQ_EN_WRITE (R345). A write to GLB_IRQ_EN sets the enables and re-sends still-pending vectors. -/
  | glbIrqEnWrite (value : Word)
  /-- GLB_IRQ_MAP_WRITE (R345). A write to GLB_IRQ_MAP sets the vector map and re-sends still-pending vectors. -/
  | glbIrqMapWrite (value : Word)
  /-- MB_DOORBELL (R349). A write of 1 to GO posts a mailbox command. -/
  | mbDoorbell (mb : Nat) (at_ : Nat)
  /-- MAILBOX_TAKE (R352). The module takes a posted mailbox in doorbell order and makes the common checks. -/
  | mailboxTake (at_ : Nat)
  /-- COMMAND_COMPLETION (R349). A long command finishes its work and enters DONE with its final status. -/
  | commandCompletion (mb : Nat) (at_ : Nat)
  /-- DMA_TRANSFER (R357). A bulk DMA transfer of a command runs and completes. -/
  | dmaTransfer (mb : Nat) (list : List Byte) (data : List Byte)
  /-- DMA_ERROR (R359). A DMA error stops the transfer, and the command completes with ABORTED. -/
  | dmaError (mb : Nat) (error : Nat) (done : Nat)
  /-- DMA_COMPLETION_TIMEOUT (R357). A read completion that does not arrive within 50 ms ends the transfer. -/
  | dmaCompletionTimeout (mb : Nat) (done : Nat)
  /-- SYS_INFO (R363). Command 0x0101 returns identity, power state and image digests. -/
  | sysInfo (mb : Nat)
  /-- SYS_STATE (R466). Command 0x0102 changes the power state between RUN, TEST and RECOVERY. -/
  | sysState (mb : Nat)
  /-- SYS_RESET (R475). Command 0x0103 resets the module 10 ms after completing. -/
  | sysReset (mb : Nat)
  /-- SYS_RESET_EXPIRY (R475). 10 ms after SYS_RESET the module resets as though RESET_N were pulsed. -/
  | sysResetExpiry
  /-- PAR_READ (R411). Command 0x0110 returns the value in force of a parameter. -/
  | parRead (mb : Nat)
  /-- PAR_WRITE (R368). Command 0x0111 sets a parameter in the runtime layer. -/
  | parWrite (mb : Nat)
  /-- CFG_COMMIT (R368). Command 0x0112 writes a new configuration image with the runtime changes. -/
  | cfgCommit (mb : Nat)
  /-- CFG_DISCARD (R411). Command 0x0113 drops the runtime changes at the next boundary. -/
  | cfgDiscard (mb : Nat)
  /-- IMG_PUT (R366). Command 0x0201 uploads an image into staging. -/
  | imgPut (mb : Nat)
  /-- IMG_LOAD (R370). Command 0x0202 checks a staged image and makes it effective. -/
  | imgLoad (mb : Nat)
  /-- IMG_INFO (R369). Command 0x0203 returns the images of a kind. -/
  | imgInfo (mb : Nat)
  /-- FW_STAGE (R371). Command 0x0210 writes the staged firmware to the slot that is not running. -/
  | fwStage (mb : Nat)
  /-- UNIT_READ (R364). Command 0x0301 returns unit descriptors. -/
  | unitRead (mb : Nat)
  /-- UNIT_SERVICE (R73). Command 0x0302 takes a unit out of service or returns it. -/
  | unitService (mb : Nat)
  /-- PT_READ (R365). Command 0x0303 returns point-image entries. -/
  | ptRead (mb : Nat)
  /-- PT_DIR (R364). Command 0x0304 returns point records. -/
  | ptDir (mb : Nat)
  /-- PT_FORCE (R70). Command 0x0310 forces a point. -/
  | ptForce (mb : Nat)
  /-- PT_RELEASE (R69). Command 0x0311 releases one force or every force. -/
  | ptRelease (mb : Nat)
  /-- PT_FORCES (R364). Command 0x0312 lists the forces in effect. -/
  | ptForces (mb : Nat)
  /-- LN_SERVICE (R99). Command 0x0401 takes a line offline or online. -/
  | lnService (mb : Nat)
  /-- MX_READ (R111). Command 0x0402 returns window entries. -/
  | mxRead (mb : Nat)
  /-- STN_READ (R127). Command 0x0403 returns the station entries of a line. -/
  | stnRead (mb : Nat)
  /-- CE_STATUS (R148). Command 0x0501 returns the cycle engine status record. -/
  | ceStatus (mb : Nat)
  /-- CE_SWAP (R155). Command 0x0502 requests a program swap. -/
  | ceSwap (mb : Nat)
  /-- CE_SWAP_CANCEL (R159). Command 0x0503 withdraws a pending swap. -/
  | ceSwapCancel (mb : Nat)
  /-- CE_VAR_READ (R137). Command 0x0504 returns elements of a variable. -/
  | ceVarRead (mb : Nat)
  /-- SLV_ENGINE_STATUS (R216). Command 0x0601 returns the solver engine status record. -/
  | slvEngineStatus (mb : Nat)
  /-- SLV_SLOTS (R233). Command 0x0602 returns the resident solve slots. -/
  | slvSlots (mb : Nat)
  /-- SLV_RESULT (R252). Command 0x0603 returns the published result of a slot. -/
  | slvResult (mb : Nat)
  /-- SLV_ABORT (R249). Command 0x0604 ends the solve in progress of a slot with ABORTED. -/
  | slvAbort (mb : Nat)
  /-- SLV_PROGRAM_INFO (R232). Command 0x0605 returns program sizes, budgets and the backstop. -/
  | slvProgramInfo (mb : Nat)
  /-- SLV_UNLOAD (R371). Command 0x0606 empties a solve slot at the next boundary. -/
  | slvUnload (mb : Nat)
  /-- MTR_READ (R296). Command 0x0701 returns the full registers of a metering point. -/
  | mtrRead (mb : Nat)
  /-- MTR_READ_SIGNED (R311). Command 0x0702 returns a signed reading of a metering point. -/
  | mtrReadSigned (mb : Nat)
  /-- MTR_RECORD (R304). Command 0x0703 returns the newest energy record and the tail record. -/
  | mtrRecord (mb : Nat)
  /-- MTR_LOSS (R306). Command 0x0704 returns the loss flags and losses. -/
  | mtrLoss (mb : Nat)
  /-- MTR_ACK_LOSS (R307). Command 0x0705 clears TAIL_LOST and LATCH_LOST. -/
  | mtrAckLoss (mb : Nat)
  /-- MTR_CAL_BEGIN (R309). Command 0x0710 starts MA10 for a mask of points. -/
  | mtrCalBegin (mb : Nat)
  /-- MTR_CAL_SET (R309). Command 0x0711 sets the working calibration entry of a channel. -/
  | mtrCalSet (mb : Nat)
  /-- MTR_CAL_MEASURE (R309). Command 0x0712 measures mean quantities over 1–60 s. -/
  | mtrCalMeasure (mb : Nat)
  /-- MTR_CAL_COMMIT (R309). Command 0x0713 stores the calibration record and ends MA10. -/
  | mtrCalCommit (mb : Nat)
  /-- MTR_CAL_CANCEL (R309). Command 0x0714 restores the stored entries and ends MA10. -/
  | mtrCalCancel (mb : Nat)
  /-- MTR_WATCH_READ (R314). Command 0x0720 returns the watch records and totals. -/
  | mtrWatchRead (mb : Nat)
  /-- MTR_WATCH_CLEAR (R314). Command 0x0721 empties the watch buffer. -/
  | mtrWatchClear (mb : Nat)
  /-- HQ_READ (R323). Command 0x0741 returns the full registers of a heat channel. -/
  | hqRead (mb : Nat)
  /-- HQ_READ_SIGNED (R330). Command 0x0742 returns a signed reading of a heat channel. -/
  | hqReadSigned (mb : Nat)
  /-- HQ_RECORD (R327). Command 0x0743 returns the newest heat record. -/
  | hqRecord (mb : Nat)
  /-- HQ_ACK_LOSS (R328). Command 0x0744 clears LATCH_LOST of every heat channel. -/
  | hqAckLoss (mb : Nat)
  /-- TIME_GET (R389). Command 0x0801 returns the date, time and tick count. -/
  | timeGet (mb : Nat)
  /-- TIME_SET (R382). Command 0x0802 sets the tick count to a date and time. -/
  | timeSet (mb : Nat)
  /-- TIME_ADJUST (R382). Command 0x0803 steps the tick count. -/
  | timeAdjust (mb : Nat)
  /-- TIME_CHANGE_APPLY (R382). A time change is applied at the first tick edge after the command is taken. -/
  | timeChangeApply
  /-- ALARM_SET (R385). Command 0x0804 arms or disarms the alarm. -/
  | alarmSet (mb : Nat)
  /-- TIME_TRIM (R376). Command 0x0805 sets and stores the RTC trim code. -/
  | timeTrim (mb : Nat)
  /-- ALARM_FIRE (R386). An armed alarm fires when the count reaches the alarm tick count. -/
  | alarmFire
  /-- BEYOND_REACHED (R389). The count reaching the end of the calendar range sets BEYOND. -/
  | beyondReached
  /-- OSC_STOP (R375). No oscillator edge for 1 ms sets OSCFAIL and clears VALID. -/
  | oscStop
  /-- OSC_RESTART (R375). The first oscillator edge after a stop clears OSCFAIL. -/
  | oscRestart
  /-- BATLOW_CHECK (R377). VBAT is measured at each start and every 3,600 s in RUN. -/
  | batlowCheck (millivolts : Nat)
  /-- RTC_REGISTER_READ (R379). A read of the RTC block freezes the shadows if the block is free, and returns a shadow. -/
  | rtcRegisterRead (offset : Nat)
  /-- RTC_TICK_HI_READ (R379). A read of RTC_TICK_HI returns its shadow and releases the shadows. -/
  | rtcTickHiRead
  /-- RTC_BLOCK_WRITE (R379). A host write to any RTC block address releases the shadows. -/
  | rtcBlockWrite (offset : Nat) (value : Word)
  /-- RTC_SHADOW_TIMEOUT (R379). The shadows are released 65,536 CLK_F cycles after a freeze. -/
  | rtcShadowTimeout
  /-- RS_STORE (R395). Command 0x0901 stores the named pages. -/
  | rsStore (mb : Nat)
  /-- RS_INFO (R391). Command 0x0902 returns the page headers. -/
  | rsInfo (mb : Nat)
  /-- CTR_READ (R403). Command 0x0903 returns a counter value. -/
  | ctrRead (mb : Nat)
  /-- PAGE_STORE (R393). The store engine completes the store of one page. -/
  | pageStore
  /-- COUNTER_INCREMENT (R403). A counter increment programs its next cell once the programming circuits are free. -/
  | counterIncrement
  /-- RS_CMD_STORE (R408). An RS_CMD write with OP STORE stores host pages. -/
  | rsCmdStore (value : Word)
  /-- RS_CMD_CTR_INC (R408). An RS_CMD write with OP CTR_INC increments a host counter. -/
  | rsCmdCtrInc (value : Word)
  /-- RS_WDATA_READ (R407). A read of RS_WDATA returns a working word and advances WORD. -/
  | rsWdataRead
  /-- RS_WDATA_WRITE (R407). A write of RS_WDATA writes a host page word and advances WORD. -/
  | rsWdataWrite (value : Word)
  /-- RECALL_COMPLETE (R398). The recall of the shadow array completes at start-up. -/
  | recallComplete
  /-- KEY_INFO (R431). Command 0x0A01 returns the slot entries. -/
  | keyInfo (mb : Nat)
  /-- KEY_STAGE (R436). Command 0x0A02 unwraps and stages a key. -/
  | keyStage (mb : Nat)
  /-- KEY_VERIFY (R438). Command 0x0A03 checks the staged key against a key check value. -/
  | keyVerify (mb : Nat)
  /-- KEY_COMMIT (R439). Command 0x0A04 writes the staged key into its slot. -/
  | keyCommit (mb : Nat)
  /-- KEY_DISCARD (R437). Command 0x0A05 drops the staged key. -/
  | keyDiscard (mb : Nat)
  /-- ATTEST (R440). Command 0x0A06 returns a signed attestation statement. -/
  | attest (mb : Nat)
  /-- KEY_PUBLIC (R434). Command 0x0A07 returns a public key and KEY_ID. -/
  | keyPublic (mb : Nat)
  /-- KEY_SLOT_CHECK (R429). Every slot is checked again once every 3,600 s in RUN. -/
  | keySlotCheck (bad : List (Nat × Nat))
  /-- EVR_READ (R452). Command 0x0B01 returns ring records from a sequence number. -/
  | evrRead (mb : Nat)
  /-- EVR_EXCERPT (R459). Command 0x0B02 returns the excerpt. -/
  | evrExcerpt (mb : Nat)
  /-- EVR_CODE (R451). Command 0x0B03 returns the mode, rate limit and suppressions of a code. -/
  | evrCode (mb : Nat)
  /-- RECORD_OFFER (R450). A record offered under a code passes its mode and rate limit. -/
  | recordOffer (code : Nat) (cls : Nat) (source : Nat) (words : List Word)
  /-- RECORD_WRITE (R452). A record is written to the ring once its sequence number is granted. -/
  | recordWrite
  /-- EXCERPT_DIRTY_TIMEOUT (R459). An excerpt page dirty for 60 s is stored by owner store. -/
  | excerptDirtyTimeout (page : Nat)
  /-- EVR_CUR_HI_WRITE (R456). A write of EVR_CUR_HI loads the cursor, clamped to the ring. -/
  | evrCurHiWrite (value : Word)
  /-- EVR_TO_OLDEST (R455). EVR_CTRL TO_OLDEST moves the cursor to the oldest record. -/
  | evrToOldest
  /-- EVR_TO_NEW (R455). EVR_CTRL TO_NEW moves the cursor to NEW. -/
  | evrToNew
  /-- MA_STATUS (R476). Command 0x0C01 returns the maintenance activities running. -/
  | maStatus (mb : Nat)
  /-- RPL_CAPTURE (R46). Command 0x0C02 captures a replay snapshot at a suitable boundary. -/
  | rplCapture (mb : Nat)
  /-- RPL_SNAP_GET (R372). Command 0x0C03 returns the last snapshot. -/
  | rplSnapGet (mb : Nat)
  /-- RPL_START (R49). Command 0x0C04 starts REPLAY from a snapshot. -/
  | rplStart (mb : Nat)
  /-- RPL_FEED (R48). Command 0x0C05 queues a replay input record. -/
  | rplFeed (mb : Nat)
  /-- RPL_OUTPUT (R49). Command 0x0C06 returns the outputs of a replayed cycle. -/
  | rplOutput (mb : Nat)
  /-- RPL_END (R49). Command 0x0C07 ends REPLAY at the next boundary. -/
  | rplEnd (mb : Nat)
  /-- LBW_SEL_WRITE (R97). A write of LBW_SEL selects line, page and bank, and sets NDAT. -/
  | lbwSelWrite (value : Word)
  /-- LBW_WATCH_WRITE (R97). A write of LBW_WATCH sets the watched buffer and clears NDAT. -/
  | lbwWatchWrite (value : Word)
  /-- VNT_RELEASE (R262). A write of VNT_RELEASE clears ACTIVE of one latched rule. -/
  | vntRelease (value : Word)
  /-- VNT_RELEASE_ALL (R262). A write of VNT_RELEASE with ALL clears every latched rule. -/
  | vntReleaseAll
  /-- VNT_FIRST_READ (R273). A read of VNT_FIRST returns the first active rule and clears the register. -/
  | vntFirstRead
  /-- SAFE_EXIT (R276). A write of SAFE_EXIT to FLT_CTRL requests the exit from the SAFE fault. -/
  | safeExit
  /-- MTR_SNAP (R299). A write of SNAP to MTR_CTRL freezes the view at the next tick end. -/
  | mtrSnap
  /-- MTR_RELEASE (R299). A write of RELEASE to MTR_CTRL unfreezes the view. -/
  | mtrRelease
  /-- CV_START (R414). A write of START to CV_CTRL sets r to INIT and clears CV_COUNT. -/
  | cvStart (unit : Nat)
  /-- CV_FEED8 (R412). A write of CV_FEED8 feeds one byte to the CRC. -/
  | cvFeed8 (unit : Nat) (value : Word)
  /-- CV_FEED16 (R413). A write of CV_FEED16 feeds a half-word to the CRC. -/
  | cvFeed16 (unit : Nat) (value : Word)
  /-- CV_FEED32 (R413). A write of CV_FEED32 feeds a word to the CRC. -/
  | cvFeed32 (unit : Nat) (value : Word)
  /-- CV_CFG_WRITE (R416). A write of CV_CFG changes the CRC parameters, and r is taken modulo the new width. -/
  | cvCfgWrite (unit : Nat) (value : Word)
  /-- REGISTER_WRITE (R14). A write to a register with no row of its own acts by its access code. -/
  | registerWrite (addr : Nat) (value : Word)
  /-- VIN_GOOD (R466). VIN becoming good starts the module from OFF or WATCH. -/
  | vinGood (ticks : Nat)
  /-- VIO_H_CHANGE (R463). VIO_H becoming good ends the host link reset, and its loss affects only the link. -/
  | vioHChange (good : Bool)
  /-- RESET (R474). RESET_N low, or TESTMODE high, resets the module to START. -/
  | reset (cause : ResetCause)
  /-- READY_ASSERT (R471). READY is asserted once the FW values of firmware, factory data and configuration are loaded. -/
  | readyAssert (rootGood : Nat) (badSlots : List (Nat × Nat))
  /-- XCVR_FAULT_CLEARED (R107). A transceiver's thermal shutdown, dominant time-out or group supply fault ends, which clears THERM_NOW or GSUP_NOW and lets the fence end at a later boundary. -/
  | xcvrFaultCleared (line : Nat) (fault : XcvrFault)
  /-- BUSDOM (R105). The receiver sees the bus dominant for more than 1.0 ms and sets the latched BUSDOM bit without fencing the line. -/
  | busdom (line : Nat)
  /-- VHOLD_MEASURE (R406). Every 25,000 CLK_F cycles VHOLD is measured into RS_VHOLD, which updates VHOLD_OK. -/
  | vholdMeasure (millivolts : Nat)
  /-- INTERNAL_RESET_RELEASE (R470). Once the PLL has locked and RESET_N and TESTMODE allow it, the internal reset is released: NT starts at 0, HOSTSEL is latched and recall begins. -/
  | internalResetRelease (hostsel : Bool)
  /-- BOUNDARY_SCAN_ACCESS (R489). An IEEE 1149.1 operation on the boundary-scan port executes BYPASS, IDCODE, SAMPLE/PRELOAD, or EXTEST while RESET_N is low. -/
  | boundaryScanAccess (op : ScanOp)
  /-- VIN_FAIL (R472). VIN fail starts the hold sequence in RUN, or the store of R469 in other states. -/
  | vinFail
  /-- HOLD_END (R473). At the end of the hold sequence the module powers down or restarts. -/
  | holdEnd
  /-- VBAT_LOSS (R466). VBAT lost in WATCH takes the module to OFF. -/
  | vbatLoss
  /-- ACTIVATION (R467). The loaded network image is activated and the module enters RUN. -/
  | activation
  /-- ACTIVATION_TIMEOUT (R467). 1,000 ms after the other conditions hold, activation proceeds without VHOLD at 27.0 V. -/
  | activationTimeout
  /-- VBAT_PRESENT (R374). VBAT returns, so the RTC domain is supplied again and, after a loss of both supplies, the oscillator restarts with the count at 0. -/
  | vbatPresent
  /-- VHOLD_CUTOFF (R462). VHOLD falls to 8.0 V, the module stops drawing from it and loses all power, leaving any operation in progress interrupted. -/
  | vholdCutoff
  /-- PCIE_LINK_UP (R336). Link training, which starts 20 ms after the end of a reset, completes and the endpoint begins answering configuration requests. -/
  | pcieLinkUp
  /-- STARTUP_COMPLETE (R503). Start-up finishes loading and checking the stored images and restoring records, and the module moves to TEST or RECOVERY or awaits activation. -/
  | startupComplete
deriving DecidableEq, Repr

end Sys2Proof
end

