-- ==== Sys2Proof/Decode.lean ====
section
/-! DEFINITION. The reading of a table word. The table of this block gives no row any bits, so no word spells a command: the host enqueues commands, it does not encode them. -/
namespace Sys2Proof

/-- The command that a word spells by the table's bits: none, since spec/opcode_table.json gives no row bits. -/
def decodeTableWord (_nbits _w : Nat) : Option Instr := none

end Sys2Proof
end

