-- ==== Sys2Proof/Machine/Map.lean ====
section
/-! DEFINITION. Sparse tables keyed by numbers, in one canonical form (keys strictly rising; for a table with a default, no entry equal to it), and the small list, bit and byte-order helpers that every chapter uses. -/
namespace Sys2Proof.Machine

/-- A sparse table: pairs of a key and a value, keys strictly rising. -/
abbrev NMap (α : Type) := List (Nat × α)

/-- The keys of the table rise strictly. -/
abbrev NMap.ordered {α : Type} (m : NMap α) : Prop := m.Pairwise (fun a b => a.1 < b.1)

/-- The value the table lists at a key, if any. -/
def lookup {α : Type} (m : NMap α) (k : Nat) : Option α :=
  match m with
  | [] => none
  | (j, v) :: t => if j = k then some v else lookup t k

/-- The table with `v` listed at `k`. -/
def insertAt {α : Type} (m : NMap α) (k : Nat) (v : α) : NMap α :=
  match m with
  | [] => [(k, v)]
  | (j, w) :: t =>
    if k < j then (k, v) :: (j, w) :: t
    else if k = j then (k, v) :: t
    else (j, w) :: insertAt t k v

/-- The table with nothing listed at `k`. -/
def eraseAt {α : Type} (m : NMap α) (k : Nat) : NMap α :=
  match m with
  | [] => []
  | (j, w) :: t => if j = k then eraseAt t k else (j, w) :: eraseAt t k

/-- The value at `k` of a table whose unlisted keys read as `d`. -/
def getD {α : Type} (d : α) (m : NMap α) (k : Nat) : α := (lookup m k).getD d

/-- Writing to a table whose unlisted keys read as `d` keeps the canonical form: writing `d` removes the entry. -/
def setD {α : Type} [DecidableEq α] (d : α) (m : NMap α) (k : Nat) (v : α) : NMap α :=
  if v = d then eraseAt m k else insertAt m k v

/-- The canonical form of a table whose unlisted keys read as `d`. -/
abbrev NMap.canonical {α : Type} [DecidableEq α] (d : α) (m : NMap α) : Prop :=
  m.ordered ∧ ∀ p ∈ m, p.2 ≠ d

/-- An addressed memory of the module: bytes by address, an unlisted address reads 0 (notes/assumptions/11). -/
abbrev Memory := NMap Byte

/-- The canonical form of an addressed memory, as a test. -/
def Memory.wf (m : Memory) : Bool :=
  match m with
  | [] => true
  | [p] => decide (p.2 ≠ 0)
  | p :: q :: t => decide (p.2 ≠ 0) && decide (p.1 < q.1) && Memory.wf (q :: t)

/-- Read one byte. -/
def readByte (m : Memory) (a : Nat) : Byte := getD 0 m a

/-- Write one byte. -/
def writeByte (m : Memory) (a : Nat) (b : Byte) : Memory := setD 0 m a b

/-- Write bytes in ascending address order from `a`. -/
def writeBytes (m : Memory) (a : Nat) (bs : Bytes) : Memory :=
  match bs with
  | [] => m
  | b :: t => writeBytes (writeByte m a b) (a + 1) t

/-- Read `n` bytes in ascending address order from `a`. -/
def readBytes (m : Memory) (a n : Nat) : Bytes :=
  (List.range n).map (fun i => readByte m (a + i))

/-- The bytes from `a` on, of a table that lists nothing below `a`. -/
def denseFrom (n a : Nat) (m : Memory) : Bytes :=
  match n, m with
  | 0, _ => []
  | n + 1, [] => 0 :: denseFrom n (a + 1) []
  | n + 1, (k, v) :: t => if k = a then v :: denseFrom n (a + 1) t else 0 :: denseFrom n (a + 1) ((k, v) :: t)

/-- Read `n` bytes from `a` in one pass over the table. -/
def readSpan (m : Memory) (a n : Nat) : Bytes := denseFrom n a (m.filter (fun p => decide (a ≤ p.1)))

/-- The table with `n` bytes from `a` taken out. -/
def cutSpan {α : Type} (m : NMap α) (a n : Nat) : NMap α := m.filter (fun p => decide (p.1 < a ∨ a + n ≤ p.1))

/-- The listed entries of `n` bytes from `a`, moved to start at `b`. -/
def moveSpan {α : Type} (m : NMap α) (a n b : Nat) : NMap α :=
  (m.filter (fun p => decide (a ≤ p.1 ∧ p.1 < a + n))).map (fun p => (p.1 - a + b, p.2))

/-- Put a table's entries, all from `a` to `a + n - 1`, in place of what the other lists there. -/
def pasteSpan {α : Type} (m : NMap α) (a n : Nat) (x : NMap α) : NMap α :=
  m.filter (fun p => decide (p.1 < a)) ++ x ++ m.filter (fun p => decide (a + n ≤ p.1))

/-- The bytes as table entries from `a`, zeros left out. -/
def spanOf (a : Nat) (bs : Bytes) : Memory :=
  match bs with
  | [] => []
  | b :: t => if b = 0 then spanOf (a + 1) t else (a, b) :: spanOf (a + 1) t

/-- Write bytes from `a` in one pass. -/
def writeSpan (m : Memory) (a : Nat) (bs : Bytes) : Memory := pasteSpan m a bs.length (spanOf a bs)

/-! Byte order: everything in memory is little-endian (00_scope R11). -/

/-- The number whose little-endian bytes these are. -/
def leNat (bs : Bytes) : Nat :=
  match bs with
  | [] => 0
  | b :: t => b.toNat + 256 * leNat t

/-- The `n` low bytes of a number, little-endian. -/
def natLe (n : Nat) (x : Nat) : Bytes :=
  match n with
  | 0 => []
  | n + 1 => BitVec.ofNat 8 x :: natLe n (x / 256)

/-- The number whose big-endian bytes these are. -/
def beNat (bs : Bytes) : Nat := bs.foldl (fun a b => a * 256 + b.toNat) 0

/-- The `n` low bytes of a number, big-endian. -/
def natBe (n : Nat) (x : Nat) : Bytes := (natLe n x).reverse

/-- `n` bytes of a string from an offset; bytes beyond its end read as 0. -/
def slice (bs : Bytes) (off n : Nat) : Bytes :=
  let t := (bs.drop off).take n
  t ++ List.replicate (n - t.length) 0

/-- The little-endian number of `n` bytes at an offset. -/
def leAt (bs : Bytes) (off n : Nat) : Nat := leNat (slice bs off n)

/-- The 32-bit word at a byte offset. -/
def word32At (bs : Bytes) (off : Nat) : Word := BitVec.ofNat 32 (leAt bs off 4)

/-- The words as bytes. -/
def wordsLe (ws : List Word) : Bytes := ws.flatMap (fun w => natLe 4 w.toNat)

/-- The bytes as words; a last part word is filled with zeros. -/
def bytesToWordsFuel (fuel : Nat) (bs : Bytes) : List Word :=
  match fuel, bs with
  | 0, _ => []
  | _, [] => []
  | f + 1, b :: t => word32At (b :: t) 0 :: bytesToWordsFuel f ((b :: t).drop 4)

/-- The bytes as words; a last part word is filled with zeros. -/
def bytesToWords (bs : Bytes) : List Word := bytesToWordsFuel bs.length bs

/-! Bits and numbers. -/

/-- Bit `i` of a number. -/
def bit (x i : Nat) : Bool := x.testBit i

/-- `n` bits of a number from bit `lo`. -/
def bits (x lo n : Nat) : Nat := (x >>> lo) % 2 ^ n

/-- A number with bit `i` set to `b`. -/
def setBit (x i : Nat) (b : Bool) : Nat :=
  if b then x ||| (1 <<< i) else if x.testBit i then x ^^^ (1 <<< i) else x

/-- 1 for true. -/
def b2n (b : Bool) : Nat := if b then 1 else 0

/-- The number whose bit `i` is the `i`-th entry. -/
def packBits (bs : List Bool) : Nat :=
  match bs with
  | [] => 0
  | b :: t => b2n b + 2 * packBits t

/-- The signed number a two's complement value of `w` bits stands for. -/
def toSigned (w x : Nat) : Int :=
  if x % 2 ^ w < 2 ^ (w - 1) then (x % 2 ^ w : Nat) else (x % 2 ^ w : Nat) - (2 ^ w : Nat)

/-- The two's complement value of `w` bits of a number. -/
def ofSigned (w : Nat) (x : Int) : Nat := (x % (2 ^ w : Nat)).toNat

/-- Limit a number to a range. -/
def clampInt (lo hi x : Int) : Int := if x < lo then lo else if hi < x then hi else x

/-- `min (x + d) (2 ^ w - 1)`: a counter that saturates. -/
def satAdd (w x d : Nat) : Nat := if x + d < 2 ^ w then x + d else 2 ^ w - 1

/-- A 32-bit counter, which wraps. -/
def wrap32 (x : Nat) : Nat := x % 2 ^ 32

/-- Replace entry `i` of a list by what `f` makes of it; a list too short is unchanged. -/
def modifyNth {α : Type} (l : List α) (i : Nat) (f : α → α) : List α :=
  match l, i with
  | [], _ => []
  | a :: t, 0 => f a :: t
  | a :: t, i + 1 => a :: modifyNth t i f

/-- Replace entry `i` of a list; a list too short is unchanged. -/
def setNth {α : Type} (l : List α) (i : Nat) (v : α) : List α := modifyNth l i (fun _ => v)

/-- Entry `i` of a list, or `d`. -/
def nth {α : Type} (d : α) (l : List α) (i : Nat) : α := (l[i]?).getD d

/-- Insert into a list sorted by a key, after the entries whose key is not greater. -/
def insertBy {α : Type} (key : α → Nat) (a : α) (l : List α) : List α :=
  match l with
  | [] => [a]
  | b :: t => if key a < key b then a :: b :: t else b :: insertBy key a t

/-- Sort a list by a key, keeping the order of equal keys. -/
def sortBy {α : Type} (key : α → Nat) (l : List α) : List α :=
  l.foldl (fun acc a => insertBy key a acc) []

/-- The positions and entries of a list. -/
def indexed {α : Type} (l : List α) : List (Nat × α) := (List.range l.length).zip l

/-- No number stands twice in the list. -/
def noDup (l : List Nat) : Bool :=
  match l with
  | [] => true
  | a :: t => !(t.contains a) && noDup t

/-- The numbers rise strictly. -/
def rising (l : List Nat) : Bool :=
  match l with
  | [] => true
  | [_] => true
  | a :: b :: t => decide (a < b) && rising (b :: t)

/-- The largest of a list of numbers, 0 of none. -/
def maxOf (l : List Nat) : Nat := l.foldl Nat.max 0

/-- The sum of a list of numbers. -/
def sumOf (l : List Nat) : Nat := l.foldl (· + ·) 0

end Sys2Proof.Machine
end

