-- ==== Sys2Proof/Machine/Crc.lean ====
section
/-! DEFINITION. The CRC model of 16_check_value_units R412 and R413, and the CRCs the module fixes (15 R391, R402; 16 R419). -/
namespace Sys2Proof.Machine

/-- One bit step of R412. -/
def crcStep (w poly : Nat) (b : Bool) (r : Nat) : Nat :=
  let top := r.testBit (w - 1) != b
  let r := (r * 2) % 2 ^ w
  if top then r ^^^ (poly % 2 ^ w) else r

/-- The bits of a byte in the order in which R412 takes them. -/
def crcOrder (refin : Bool) : List Nat := if refin then [0, 1, 2, 3, 4, 5, 6, 7] else [7, 6, 5, 4, 3, 2, 1, 0]

/-- One byte fed (R412). -/
def crcByte (w poly : Nat) (refin : Bool) (r : Nat) (byte : Nat) : Nat :=
  (crcOrder refin).foldl (fun r i => crcStep w poly (byte.testBit i) r) r

/-- Bytes fed in order (R412, R413). -/
def crcFeed (w poly : Nat) (refin : Bool) (r : Nat) (bs : Bytes) : Nat :=
  bs.foldl (fun r b => crcByte w poly refin r b.toNat) r

/-- The low `w` bits of a number in reverse order. -/
def reflectBits (w x : Nat) : Nat := (List.range w).foldl (fun acc i => 2 * acc + b2n (x.testBit i)) 0

/-- The result of R412. -/
def crcResult (w : Nat) (refout invout : Bool) (r : Nat) : Nat :=
  let r := r % 2 ^ w
  let r := if refout then reflectBits w r else r
  if invout then r ^^^ (2 ^ w - 1) else r

/-- The CRC-32 of page headers and images (15 R391). -/
def crc32 (bs : Bytes) : Nat := crcResult 32 true true (crcFeed 32 0x04C11DB7 true 0xFFFFFFFF bs)

/-- The CRC-16 of counter cells and of the lines (15 R402, 16 R419). -/
def crc16 (bs : Bytes) : Nat := crcResult 16 false false (crcFeed 16 0x1021 false 0xFFFF bs)

end Sys2Proof.Machine
end

