-- ==== Sys2Proof/Machine/Float.lean ====
section
/-! DEFINITION. IEEE 754 binary arithmetic on bit patterns, computed exactly and rounded once to nearest, ties to even, subnormals in full, every NaN result the canonical quiet NaN (05_cycle_engine R136). One definition serves binary32 and binary64 (10_electrical_metering R288). -/
namespace Sys2Proof.Machine

/-- A binary interchange format: precision in bits, width of the exponent field, exponent of the lowest bit of a subnormal. -/
structure FloatFmt where
  prec : Nat
  expBits : Nat
  eMin : Int
deriving DecidableEq, Repr

/-- binary32. -/
def binary32 : FloatFmt := { prec := 24, expBits := 8, eMin := -149 }

/-- binary64. -/
def binary64 : FloatFmt := { prec := 53, expBits := 11, eMin := -1074 }

/-- What a pattern stands for: a NaN, an infinity, or (−1)^neg × mant × 2^exp. -/
inductive FloatVal where
  | nan
  | inf (neg : Bool)
  | num (neg : Bool) (mant : Nat) (exp : Int)
deriving DecidableEq, Repr

/-- The position of the sign bit. -/
def FloatFmt.signPos (f : FloatFmt) : Nat := f.prec - 1 + f.expBits

/-- The pattern of +infinity. -/
def FloatFmt.infBits (f : FloatFmt) : Nat := (2 ^ f.expBits - 1) * 2 ^ (f.prec - 1)

/-- The canonical quiet NaN (05 R136). -/
def FloatFmt.nanBits (f : FloatFmt) : Nat := f.infBits + 2 ^ (f.prec - 2)

/-- A pattern with a sign. -/
def FloatFmt.withSign (f : FloatFmt) (neg : Bool) (mag : Nat) : Nat := if neg then mag + 2 ^ f.signPos else mag

/-- Read a pattern. -/
def FloatFmt.unpack (f : FloatFmt) (x : Nat) : FloatVal :=
  let neg := x.testBit f.signPos
  let mag := x % 2 ^ f.signPos
  let e := mag / 2 ^ (f.prec - 1)
  let m := mag % 2 ^ (f.prec - 1)
  if e = 2 ^ f.expBits - 1 then (if m = 0 then .inf neg else .nan)
  else if e = 0 then .num neg m f.eMin
  else .num neg (m + 2 ^ (f.prec - 1)) (f.eMin + (e : Int) - 1)

/-- Round `num / den` half to even to an integer. -/
def roundDiv (num den : Nat) : Nat :=
  let q := num / den
  let r := num % den
  if den < 2 * r ∨ (2 * r = den ∧ q % 2 = 1) then q + 1 else q

/-- The magnitude pattern nearest to `num / den × 2^exp`, ties to even, once the exponent `e` of its lowest bit is chosen. -/
def FloatFmt.roundAt (f : FloatFmt) (num den : Nat) (exp e : Int) : Nat :=
  let n := if e ≤ exp then num <<< (exp - e).toNat else num
  let d := if e ≤ exp then den else den <<< (e - exp).toNat
  let mag := (e - f.eMin).toNat * 2 ^ (f.prec - 1) + roundDiv n d
  if f.infBits ≤ mag then f.infBits else mag

/-- The magnitude pattern nearest to `num / den × 2^exp`. -/
def FloatFmt.roundMag (f : FloatFmt) (num den : Nat) (exp : Int) : Nat :=
  if num = 0 then 0
  else
    let e0 := max f.eMin (exp + (Nat.log2 num : Int) - (Nat.log2 den : Int) - (f.prec : Int))
    let n := if e0 ≤ exp then num <<< (exp - e0).toNat else num
    let d := if e0 ≤ exp then den else den <<< (e0 - exp).toNat
    if n / d < 2 ^ f.prec then f.roundAt num den exp e0 else f.roundAt num den exp (e0 + 1)

/-- The pattern nearest to ±`num / den × 2^exp`. -/
def FloatFmt.pack (f : FloatFmt) (neg : Bool) (num den : Nat) (exp : Int) : Nat :=
  f.withSign neg (f.roundMag num den exp)

/-- The pattern nearest to an integer times a power of two; zero is +0. -/
def FloatFmt.ofInt (f : FloatFmt) (x : Int) (exp : Int) : Nat := f.pack (decide (x < 0)) x.natAbs 1 exp

/-- The exact sum of two finite values as an integer times a power of two. -/
def alignedSum (an : Bool) (am : Nat) (ae : Int) (bn : Bool) (bm : Nat) (be : Int) : Int × Int :=
  let e := min ae be
  let a : Int := (am <<< (ae - e).toNat : Nat)
  let b : Int := (bm <<< (be - e).toNat : Nat)
  ((if an then -a else a) + (if bn then -b else b), e)

/-- Addition. -/
def FloatFmt.add (f : FloatFmt) (x y : Nat) : Nat :=
  match f.unpack x, f.unpack y with
  | .nan, _ => f.nanBits
  | _, .nan => f.nanBits
  | .inf a, .inf b => if a = b then f.withSign a f.infBits else f.nanBits
  | .inf a, .num _ _ _ => f.withSign a f.infBits
  | .num _ _ _, .inf b => f.withSign b f.infBits
  | .num an am ae, .num bn bm be =>
    let s := alignedSum an am ae bn bm be
    if s.1 = 0 then f.withSign (an && bn) 0 else f.ofInt s.1 s.2

/-- Negation of the sign bit; a NaN gives the canonical NaN. -/
def FloatFmt.neg (f : FloatFmt) (x : Nat) : Nat :=
  match f.unpack x with
  | .nan => f.nanBits
  | _ => if x.testBit f.signPos then x - 2 ^ f.signPos else x + 2 ^ f.signPos

/-- Subtraction. -/
def FloatFmt.sub (f : FloatFmt) (x y : Nat) : Nat := f.add x (f.neg y)

/-- Absolute value; a NaN gives the canonical NaN. -/
def FloatFmt.abs (f : FloatFmt) (x : Nat) : Nat :=
  match f.unpack x with
  | .nan => f.nanBits
  | _ => x % 2 ^ f.signPos

/-- Multiplication. -/
def FloatFmt.mul (f : FloatFmt) (x y : Nat) : Nat :=
  match f.unpack x, f.unpack y with
  | .nan, _ => f.nanBits
  | _, .nan => f.nanBits
  | .inf a, .inf b => f.withSign (a != b) f.infBits
  | .inf a, .num b m _ => if m = 0 then f.nanBits else f.withSign (a != b) f.infBits
  | .num a m _, .inf b => if m = 0 then f.nanBits else f.withSign (a != b) f.infBits
  | .num an am ae, .num bn bm be => f.pack (an != bn) (am * bm) 1 (ae + be)

/-- Division. -/
def FloatFmt.div (f : FloatFmt) (x y : Nat) : Nat :=
  match f.unpack x, f.unpack y with
  | .nan, _ => f.nanBits
  | _, .nan => f.nanBits
  | .inf _, .inf _ => f.nanBits
  | .inf a, .num b _ _ => f.withSign (a != b) f.infBits
  | .num a _ _, .inf b => f.withSign (a != b) 0
  | .num an am ae, .num bn bm be =>
    if bm = 0 then (if am = 0 then f.nanBits else f.withSign (an != bn) f.infBits)
    else f.pack (an != bn) am bm (ae - be)

/-- Fused multiply-add: x × y + z with one rounding. -/
def FloatFmt.fma (f : FloatFmt) (x y z : Nat) : Nat :=
  match f.unpack x, f.unpack y, f.unpack z with
  | .num an am ae, .num bn bm be, .num cn cm ce =>
    let s := alignedSum (an != bn) (am * bm) (ae + be) cn cm ce
    if s.1 = 0 then f.withSign ((an != bn) && cn) 0 else f.ofInt s.1 s.2
  | .num _ _ _, .num _ _ _, _ => f.add 0 z
  | _, _, _ => f.add (f.mul x y) z

/-- One bit of an integer square root, from bit `i` down. -/
def isqrtLoop (i : Nat) (n r : Nat) : Nat :=
  match i with
  | 0 => if (r + 1) * (r + 1) ≤ n then r + 1 else r
  | i + 1 =>
    let t := r + 2 ^ (i + 1)
    isqrtLoop i n (if t * t ≤ n then t else r)

/-- The largest integer whose square is at most `n`. -/
def isqrt (n : Nat) : Nat := isqrtLoop (Nat.log2 n / 2 + 1) n 0

/-- Square root; a negative input other than −0 gives the canonical NaN. -/
def FloatFmt.sqrt (f : FloatFmt) (x : Nat) : Nat :=
  match f.unpack x with
  | .nan => f.nanBits
  | .inf neg => if neg then f.nanBits else x
  | .num neg m e =>
    if m = 0 then x
    else if neg then f.nanBits
    else
      let sh : Nat := 2 * f.prec + 4 + (if e % 2 = 0 then 0 else 1)
      let n := m <<< sh
      let r := isqrt n
      f.pack false (2 * r + (if r * r = n then 0 else 1)) 1 ((e - (sh : Int)) / 2 - 1)

/-- A pattern is a NaN. -/
def FloatFmt.isNan (f : FloatFmt) (x : Nat) : Bool := decide (f.infBits < x % 2 ^ f.signPos)

/-- A pattern is an infinity. -/
def FloatFmt.isInf (f : FloatFmt) (x : Nat) : Bool := x % 2 ^ f.signPos == f.infBits

/-- A pattern is finite. -/
def FloatFmt.isFinite (f : FloatFmt) (x : Nat) : Bool := decide (x % 2 ^ f.signPos < f.infBits)

/-- The integer a pattern orders by: IEEE ordering of the values that are no NaN, −0 equal to +0. -/
def FloatFmt.order (f : FloatFmt) (x : Nat) : Int :=
  if x.testBit f.signPos then -((x % 2 ^ f.signPos : Nat) : Int) else ((x % 2 ^ f.signPos : Nat) : Int)

/-- `x < y`; false with a NaN. -/
def FloatFmt.lt (f : FloatFmt) (x y : Nat) : Bool := !f.isNan x && !f.isNan y && decide (f.order x < f.order y)

/-- `x ≤ y`; false with a NaN. -/
def FloatFmt.le (f : FloatFmt) (x y : Nat) : Bool := !f.isNan x && !f.isNan y && decide (f.order x ≤ f.order y)

/-- `x = y` as IEEE compares: −0 equals +0, a NaN equals nothing. -/
def FloatFmt.eq (f : FloatFmt) (x y : Nat) : Bool := !f.isNan x && !f.isNan y && decide (f.order x = f.order y)

/-- The smaller of two patterns, the first when neither is smaller; a NaN operand gives the canonical NaN. -/
def FloatFmt.minNum (f : FloatFmt) (x y : Nat) : Nat :=
  if f.isNan x || f.isNan y then f.nanBits else if f.lt y x then y else x

/-- The larger of two patterns, the first when neither is larger; a NaN operand gives the canonical NaN. -/
def FloatFmt.maxNum (f : FloatFmt) (x y : Nat) : Nat :=
  if f.isNan x || f.isNan y then f.nanBits else if f.lt x y then y else x

/-- Round ±m × 2^e half to even to an integer. -/
def roundPow2 (neg : Bool) (m : Nat) (e : Int) : Int :=
  let r : Nat := if 0 ≤ e then m <<< e.toNat else roundDiv m (2 ^ (-e).toNat)
  if neg then -(r : Int) else (r : Int)

/-- Truncate ±m × 2^e toward zero. -/
def truncPow2 (neg : Bool) (m : Nat) (e : Int) : Int :=
  let r : Nat := if 0 ≤ e then m <<< e.toNat else m / 2 ^ (-e).toNat
  if neg then -(r : Int) else (r : Int)

/-- The integer nearest to a finite pattern times 2^k, ties to even; 0 for a NaN or an infinity. -/
def FloatFmt.toIntScaled (f : FloatFmt) (x : Nat) (k : Int) : Int :=
  match f.unpack x with
  | .num neg m e => roundPow2 neg m (e + k)
  | _ => 0

/-- A pattern of one format rounded to another. -/
def FloatFmt.convert (f g : FloatFmt) (x : Nat) : Nat :=
  match f.unpack x with
  | .nan => g.nanBits
  | .inf neg => g.withSign neg g.infBits
  | .num neg m e => g.pack neg m 1 e

/-! binary32 on words. -/

/-- binary32 addition. -/
def fadd (a b : Word) : Word := BitVec.ofNat 32 (binary32.add a.toNat b.toNat)
/-- binary32 subtraction. -/
def fsub (a b : Word) : Word := BitVec.ofNat 32 (binary32.sub a.toNat b.toNat)
/-- binary32 multiplication. -/
def fmul (a b : Word) : Word := BitVec.ofNat 32 (binary32.mul a.toNat b.toNat)
/-- binary32 division. -/
def fdiv (a b : Word) : Word := BitVec.ofNat 32 (binary32.div a.toNat b.toNat)
/-- binary32 fused multiply-add. -/
def ffma (a b c : Word) : Word := BitVec.ofNat 32 (binary32.fma a.toNat b.toNat c.toNat)
/-- binary32 square root. -/
def fsqrt (a : Word) : Word := BitVec.ofNat 32 (binary32.sqrt a.toNat)
/-- binary32 negation. -/
def fneg (a : Word) : Word := BitVec.ofNat 32 (binary32.neg a.toNat)
/-- binary32 absolute value. -/
def fabs (a : Word) : Word := BitVec.ofNat 32 (binary32.abs a.toNat)
/-- binary32 `<`. -/
def flt (a b : Word) : Bool := binary32.lt a.toNat b.toNat
/-- binary32 `≤`. -/
def fle (a b : Word) : Bool := binary32.le a.toNat b.toNat
/-- binary32 `=`. -/
def feq (a b : Word) : Bool := binary32.eq a.toNat b.toNat
/-- binary32 minimum. -/
def fmin (a b : Word) : Word := BitVec.ofNat 32 (binary32.minNum a.toNat b.toNat)
/-- binary32 maximum. -/
def fmax (a b : Word) : Word := BitVec.ofNat 32 (binary32.maxNum a.toNat b.toNat)
/-- A binary32 word is a NaN. -/
def fnan (a : Word) : Bool := binary32.isNan a.toNat
/-- A binary32 word is a NaN or an infinity. -/
def fspecial (a : Word) : Bool := !binary32.isFinite a.toNat
/-- The canonical quiet NaN of binary32. -/
def nan32 : Word := 0x7FC00000
/-- binary32 of an integer. -/
def fofInt (x : Int) : Word := BitVec.ofNat 32 (binary32.ofInt x 0)

end Sys2Proof.Machine
end

