-- ==== Sys2Proof/Machine/NetImage.lean ====
section
/-! DEFINITION. The network image: its tables as data, read from the image's bytes by Tables 2-2 to 2-24, 3-10, 4-3, 9-1 and 18-4, and every check that the chapters state for its content (02_units_and_points R78 to R86, 03_station_lines R90, R91, R502, 04_schedule_matrix R108, R112, 09 R272, 16 R421, 17 R433, 18 R446). -/
namespace Sys2Proof.Machine

/-- A unit descriptor as the image gives it (02 Table 2-2); the run-time fields stand apart in the state. -/
structure UnitDesc where
  typ : Nat
  portCount : Nat
  depth : Nat
  parent : Nat
  subtreeEnd : Nat
  firstPoint : Nat
  pointCount : Nat
  scopeMask : Nat
  tspec : Nat
  key : Nat
deriving DecidableEq, Repr

/-- A port record (02 Table 2-4). -/
structure PortRec where
  group : Nat
  index : Nat
  inner : Nat
  outer : Nat
  bpFirst : Nat
deriving DecidableEq, Repr

/-- A point record (02 Table 2-7). `scale` is the exponent E. -/
structure PointRec where
  typ : Nat
  kind : Nat
  policy : Nat
  scale : Int
  rangeMode : Nat
  param : Nat
  unit : Nat
  ageLimit : Nat
  source : Nat
  key : Nat
deriving DecidableEq, Repr

/-- A point parameter entry (02 R60). -/
structure ParamEntry where
  min : Word
  max : Word
  subst : Word
  failsafe : Word
deriving DecidableEq, Repr

/-- A line record (02 Table 2-20). -/
structure LineRec where
  abt : Nat
  dbt : Nat
  ssp : Nat
  fmt : Nat
  guard : Nat
  firstWindow : Nat
  windowCount : Nat
  firstAcc : Nat
  accCount : Nat
  refId : Nat
  absentN : Nat
  maxDelta : Nat
  boffLimit : Nat
  lineKey : Nat
  recovery : Nat
  fenceHold : Nat
  safeInj : Nat
deriving DecidableEq, Repr

/-- A window entry (04 Table 4-3). -/
structure Window where
  kind : Nat
  e2e : Bool
  mac : Bool
  bc : Nat
  address : Nat
  start : Nat
  length : Nat
  buf : Nat
  dlc : Nat
  ident : Nat
  ide : Bool
  fdf : Bool
  brs : Bool
deriving DecidableEq, Repr

/-- An acceptance-list entry (02 Table 2-21). -/
structure AccEntry where
  ident : Nat
  ide : Bool
  fdf : Bool
  buf : Nat
  dlc : Nat
deriving DecidableEq, Repr

/-- A vent rule (09 Table 9-1). -/
structure VentRule where
  src : Nat
  latch : Bool
  reqE2e : Bool
  allLines : Bool
  line : Nat
  di : Nat
  raw : Bool
  edge : Nat
  op : Nat
  signed : Bool
  offset : Nat
  width : Nat
  ident : Nat
  ide : Bool
  fdf : Bool
  k : Nat
  actDo : Bool
  doLevel : Bool
  doNo : Nat
  actInj : Bool
  inj : Nat
  actFs : Bool
  fs : Nat
  actFlt : Bool
  fltClass : Nat
  bitNo : Nat
deriving DecidableEq, Repr

/-- An injection entry (02 Table 2-22); `line` is 0xFF for an unused entry. -/
structure InjEntry where
  line : Nat
  ide : Bool
  fdf : Bool
  brs : Bool
  dlc : Nat
  ident : Nat
  payload : Bytes
deriving DecidableEq, Repr

/-- A local output's configuration (02 Table 2-23). -/
structure DoCfg where
  inUse : Bool
  safe : Bool
  base : Option Nat
deriving DecidableEq, Repr

/-- An event table entry (18 Table 18-4). -/
structure EventEntry where
  mode : Nat
  excerpt : Bool
  notify : Bool
  depth : Nat
  rint : Nat
  list : Nat
  span : Nat
deriving DecidableEq, Repr

/-- A region map entry (02 Table 2-24). -/
structure Region where
  kind : Nat
  index : Nat
  offset : Nat
  size : Nat
deriving DecidableEq, Repr

/-- A network image (02 Tables 2-18 and 2-19). -/
structure NetImage where
  header : Bytes
  imageSize : Nat
  networkId : Nat
  version : Nat
  len : Nat
  basics : Nat
  linesUsed : Nat
  varReserve : Nat
  stagingSize : Nat
  units : List UnitDesc
  ports : List PortRec
  points : List PointRec
  params : List ParamEntry
  lines : List LineRec
  windows : List Window
  accs : List AccEntry
  rules : List VentRule
  injs : List InjEntry
  fsRecs : List (Nat × Nat)
  fsPoints : List Nat
  diFilter : List Nat
  dos : List DoCfg
  events : List EventEntry
  snapLists : List (List Nat)
  binTables : List (List Word)
  regions : List Region
deriving DecidableEq, Repr

/-! Reading the tables. -/

/-- A field of a record's little-endian number. -/
def fld (x lo n : Nat) : Nat := bits x lo n

/-- Read `count` records of `size` bytes from an offset. -/
def records {α : Type} (bs : Bytes) (off size count : Nat) (f : Bytes → α) : List α :=
  (List.range count).map (fun i => f (slice bs (off + size * i) size))

/-- A record with only the named fields, first bit and width of each, left in place: its other bits are reserved and read 0 (00 R13; notes/assumptions/104). -/
def keepFields (l : List (Nat × Nat)) (x : Nat) : Nat := sumOf (l.map (fun f => fld x f.1 f.2 * 2 ^ f.1))

/-- The fields of a unit descriptor that the image gives (02 Table 2-2). -/
def unitFields : List (Nat × Nat) :=
  [(0, 4), (8, 4), (16, 14), (32, 14), (48, 14), (64, 18), (96, 16), (112, 4), (128, 32), (192, 32)]

/-- The fields of a point record (02 Table 2-7). -/
def pointFields : List (Nat × Nat) := [(0, 46), (48, 80)]

/-- The fields of a window entry (04 Table 4-3). -/
def windowFields : List (Nat × Nat) := [(0, 4), (8, 6), (16, 6), (32, 20), (64, 64)]

/-- The fields of LN_ABT (03 Table 3-10). -/
def abtFields : List (Nat × Nat) := [(0, 15), (16, 7), (24, 5)]

/-- The fields of LN_DBT (03 Table 3-10). -/
def dbtFields : List (Nat × Nat) := [(0, 5), (8, 4), (16, 4), (24, 5)]

/-- The fields of LN_SSP that the image gives; DLYM is measured (03 Table 3-10). -/
def sspFields : List (Nat × Nat) := [(0, 1), (8, 7)]

/-- The fields of LN_FMT (03 Table 3-10). -/
def fmtFields : List (Nat × Nat) := [(0, 3), (8, 8)]

/-- 02 Table 2-2. -/
def readUnit (r : Bytes) : UnitDesc :=
  let x := leNat r
  { typ := fld x 0 4, portCount := fld x 8 4, depth := fld x 16 14, parent := fld x 32 14,
    subtreeEnd := fld x 48 14, firstPoint := fld x 64 18, pointCount := fld x 96 16,
    scopeMask := fld x 112 4, tspec := fld x 128 32, key := fld x 192 32 }

/-- The run-time fields of a descriptor are 0 in an image (02 Table 2-19 entry 0). -/
def unitRuntimeZero (r : Bytes) : Bool :=
  let x := leNat r
  fld x 4 2 == 0 && fld x 160 32 == 0 && fld x 224 3 == 0

/-- 02 Table 2-4. -/
def readPort (r : Bytes) : PortRec :=
  let x := leNat r
  { group := fld x 0 14, index := fld x 16 3, inner := fld x 32 14, outer := fld x 48 14, bpFirst := fld x 64 18 }

/-- 02 Table 2-7. -/
def readPoint (r : Bytes) : PointRec :=
  let x := leNat r
  { typ := fld x 0 3, kind := fld x 3 3, policy := fld x 6 2, scale := toSigned 6 (fld x 8 6),
    rangeMode := fld x 14 2, param := fld x 16 16, unit := fld x 32 14, ageLimit := fld x 48 16,
    source := fld x 64 32, key := fld x 96 32 }

/-- 02 R60. -/
def readParam (r : Bytes) : ParamEntry :=
  { min := word32At r 0, max := word32At r 4, subst := word32At r 8, failsafe := word32At r 12 }

/-- 02 Table 2-20. -/
def readLine (r : Bytes) : LineRec :=
  { abt := leAt r 0 4, dbt := leAt r 4 4, ssp := leAt r 8 4, fmt := leAt r 12 4, guard := leAt r 16 4,
    firstWindow := leAt r 0x14 4, windowCount := leAt r 0x18 4, firstAcc := leAt r 0x1C 4,
    accCount := leAt r 0x20 2, refId := leAt r 0x22 2, absentN := leAt r 0x24 1, maxDelta := leAt r 0x25 1,
    boffLimit := leAt r 0x26 1, lineKey := leAt r 0x27 1, recovery := leAt r 0x28 2,
    fenceHold := leAt r 0x2A 2, safeInj := leAt r 0x2C 1 }

/-- 04 Table 4-3. -/
def readWindow (r : Bytes) : Window :=
  let x := leNat r
  { kind := fld x 0 2, e2e := bit x 2, mac := bit x 3, bc := fld x 8 6, address := fld x 16 6,
    start := fld x 32 20, length := fld x 64 20, buf := fld x 84 8, dlc := fld x 92 4, ident := fld x 96 29,
    ide := bit x 125, fdf := bit x 126, brs := bit x 127 }

/-- 02 Table 2-21. -/
def readAcc (r : Bytes) : AccEntry :=
  let x := leNat r
  { ident := fld x 0 29, ide := bit x 29, fdf := bit x 30, buf := fld x 32 8, dlc := fld x 40 4 }

/-- 09 Table 9-1. -/
def readRule (r : Bytes) : VentRule :=
  let x := leNat r
  { src := fld x 0 3, latch := bit x 3, reqE2e := bit x 4, allLines := bit x 5, line := fld x 6 6,
    di := fld x 12 4, raw := bit x 16, edge := fld x 17 2, op := fld x 19 3, signed := bit x 22,
    offset := fld x 23 6, width := fld x 29 2, ident := fld x 32 29, ide := bit x 61, fdf := bit x 62,
    k := fld x 64 32, actDo := bit x 96, doLevel := bit x 97, doNo := fld x 98 4, actInj := bit x 102,
    inj := fld x 103 7, actFs := bit x 110, fs := fld x 111 6, actFlt := bit x 117, fltClass := fld x 118 3,
    bitNo := fld x 121 3 }

/-- 02 Table 2-22. -/
def readInj (r : Bytes) : InjEntry :=
  { line := leAt r 0 1, ide := bit (leAt r 1 1) 0, fdf := bit (leAt r 1 1) 1, brs := bit (leAt r 1 1) 2,
    dlc := leAt r 2 1, ident := leAt r 4 4, payload := slice r 8 64 }

/-- 02 Table 2-23, one output. -/
def readDo (r : Bytes) : DoCfg :=
  let f := leAt r 0 1
  { inUse := bit f 0, safe := bit f 1, base := if bit f 2 then some (leAt r 4 4) else none }

/-- 18 Table 18-4. -/
def readEvent (r : Bytes) : EventEntry :=
  let x := leNat r
  { mode := fld x 0 2, excerpt := bit x 2, notify := bit x 3, depth := fld x 8 8, rint := fld x 16 16,
    list := fld x 32 8, span := fld x 40 8 }

/-- 02 Table 2-24. -/
def readRegion (r : Bytes) : Region :=
  { kind := leAt r 0 2, index := leAt r 2 2, offset := leAt r 4 4, size := leAt r 8 4 }

/-- Entry `i` of the section table: offset and size (02 Table 2-18). -/
def netSection (bs : Bytes) (i : Nat) : Nat × Nat := (leAt bs (0x100 + 8 * i) 4, leAt bs (0x104 + 8 * i) 4)

/-- Sections of a nonzero size overlap. -/
def overlaps (a b : Nat × Nat) : Bool := a.2 != 0 && b.2 != 0 && a.1 < b.1 + b.2 && b.1 < a.1 + a.2

/-- No two extents of the list overlap. -/
def disjoint (l : List (Nat × Nat)) : Bool :=
  match l with
  | [] => true
  | a :: t => t.all (fun b => !overlaps a b) && disjoint t

/-- The header rules of 02 Table 2-18 and the section sizes of 02 Table 2-19 (R79, R81). A window section of size 0 passes here: with a line in use, its WINDOW_COUNT of at least 1 asks for more (DESIGN CHOICE, notes/assumptions/105). -/
def netHeaderOk (bs : Bytes) : Bool :=
  let u := leAt bs 0x20 4
  let p := leAt bs 0x24 4
  let q := leAt bs 0x28 4
  let pl := leAt bs 0x2C 4
  let sz := leAt bs 0x0C 4
  let sec := netSection bs
  let secs := (List.range 28).map sec
  decide (512 ≤ bs.length) && leAt bs 0 4 == 0x544E4751 && leAt bs 4 2 == 4 && leAt bs 6 2 == 0
    && leAt bs 8 4 == 0x00030002 && sz == bs.length && decide (sz ≤ 33554432)
    && decide (1 ≤ u ∧ u ≤ 16384) && decide (p ≤ 8192) && decide (q ≤ 65536)
    && decide (1 ≤ pl ∧ pl ≤ 262144)
    && leAt bs 0x38 4 % 8 == 0 && decide (leAt bs 0x38 4 ≤ 1048576)
    && leAt bs 0x3C 4 % 64 == 0 && decide (leAt bs 0x3C 4 ≤ 8388608)
    && leAt bs 0x40 192 == 0
    && secs.all (fun e => e.1 + e.2 ≤ sz) && disjoint secs
    && (sec 0).2 == u * 32 && (sec 1).2 == p * 16 && (sec 2).2 == pl * 16 && (sec 3).2 == q * 16
    && (sec 4).2 == 4096 && (sec 5).2 % 16 == 0 && (sec 6).2 % 8 == 0 && (sec 7).2 == 16384
    && (sec 8).2 == 10240 && decide (512 ≤ (sec 9).2) && (sec 9).2 % 4 == 0 && (sec 10).2 == 192
    && (sec 11).2 == 32768 && (sec 12).2 == 8192 && (sec 13).2 == 7168 && (sec 14).2 % 16 == 0
    && (secs.drop 15).all (fun e => e.1 == 0 && e.2 == 0)

/-- The image's tables. -/
def readNet (bs : Bytes) : NetImage :=
  let off := fun i => (netSection bs i).1
  let cnt := fun i n => (netSection bs i).2 / n
  { header := bs.take 512, imageSize := leAt bs 0x0C 4, networkId := leAt bs 0x10 4, version := leAt bs 0x14 4,
    len := leAt bs 0x18 4, basics := leAt bs 0x1C 4, linesUsed := leAt bs 0x30 8, varReserve := leAt bs 0x38 4,
    stagingSize := leAt bs 0x3C 4,
    units := records bs (off 0) 32 (cnt 0 32) readUnit,
    ports := records bs (off 1) 16 (cnt 1 16) readPort,
    points := records bs (off 2) 16 (cnt 2 16) readPoint,
    params := records bs (off 3) 16 (cnt 3 16) readParam,
    lines := records bs (off 4) 64 64 readLine,
    windows := records bs (off 5) 16 (cnt 5 16) readWindow,
    accs := records bs (off 6) 8 (cnt 6 8) readAcc,
    rules := records bs (off 7) 16 1024 readRule,
    injs := records bs (off 8) 80 128 readInj,
    fsRecs := records bs (off 9) 8 64 (fun r => (leAt r 0 4, leAt r 4 4)),
    fsPoints := records bs (off 9 + 512) 4 ((netSection bs 9).2 / 4 - 128) leNat,
    diFilter := records bs (off 10) 4 16 (fun r => leAt r 0 2),
    dos := records bs (off 10 + 64) 8 16 readDo,
    events := records bs (off 11) 8 4096 readEvent,
    snapLists := records bs (off 12) 32 256 (fun r => records r 0 4 8 leNat),
    binTables := records bs (off 13) 28 256 (fun r => records r 0 4 7 (fun x => word32At x 0)),
    regions := records bs (off 14) 16 (cnt 14 16) readRegion }

/-- The fields that the tables require to be 0 (02 Tables 2-3, 2-12, 2-20, 2-22, 2-23, 2-24, 18 Table 18-4; notes/assumptions/104). -/
def netZeroFields (bs : Bytes) : Bool :=
  let off := fun i => (netSection bs i).1
  let cnt := fun i n => (netSection bs i).2 / n
  (records bs (off 0) 32 (cnt 0 32) unitRuntimeZero).all id
    && (records bs (off 4) 64 64 (fun r => leAt r 0x2D 19 == 0 && leAt r 0x22 2 < 0x800)).all id
    && (records bs (off 8) 80 128 (fun r => leAt r 1 1 < 8 && leAt r 3 1 == 0 && leAt r 4 4 < 2 ^ 29 && leAt r 0x48 8 == 0)).all id
    && (records bs (off 10) 4 16 (fun r => leAt r 2 2 == 0)).all id
    && (records bs (off 10 + 64) 8 16 (fun r => leAt r 0 1 < 8 && leAt r 1 3 == 0 && (bit (leAt r 0 1) 2 || leAt r 4 4 == 0))).all id
    && (records bs (off 11) 8 4096 (fun r => leAt r 0 1 < 16 && leAt r 6 2 == 0)).all id
    && (records bs (off 14) 16 (cnt 14 16) (fun r => leAt r 12 4 == 0)).all id

/-! Looking things up. -/

/-- The unit of an ID; a unit above U − 1 is UNUSED. -/
def NetImage.unitAt (n : NetImage) (u : Nat) : UnitDesc :=
  nth { typ := 0, portCount := 0, depth := 0, parent := 0, subtreeEnd := 0, firstPoint := 0, pointCount := 0, scopeMask := 0, tspec := 0, key := 0 } n.units u

/-- The point record of an ID; IDs from POINT_LIMIT upwards have KIND NONE (02 Table 2-18). -/
def NetImage.pointAt (n : NetImage) (p : Nat) : PointRec :=
  nth { typ := 0, kind := 0, policy := 0, scale := 0, rangeMode := 0, param := 0, unit := 0, ageLimit := 0, source := 0, key := 0 } n.points p

/-- The parameter entry of a point. -/
def NetImage.paramOf (n : NetImage) (p : PointRec) : ParamEntry :=
  nth { min := 0, max := 0, subst := 0, failsafe := 0 } n.params p.param

/-- A line's record. -/
def NetImage.lineAt (n : NetImage) (l : Nat) : LineRec :=
  nth { abt := 0, dbt := 0, ssp := 0, fmt := 0, guard := 0, firstWindow := 0, windowCount := 0, firstAcc := 0, accCount := 0, refId := 0, absentN := 0, maxDelta := 0, boffLimit := 0, lineKey := 0, recovery := 0, fenceHold := 0, safeInj := 0 } n.lines l

/-- The windows of a line, in entry order. -/
def NetImage.windowsOf (n : NetImage) (l : Nat) : List Window :=
  let r := n.lineAt l
  (n.windows.drop r.firstWindow).take r.windowCount

/-- The acceptance list of a line. -/
def NetImage.accsOf (n : NetImage) (l : Nat) : List AccEntry :=
  let r := n.lineAt l
  (n.accs.drop r.firstAcc).take r.accCount

/-- Line `l` is in use (02 Table 2-18, LINES_USED). -/
def NetImage.lineUsed (n : NetImage) (l : Nat) : Bool := bit n.linesUsed l

/-- The receive buffers of a line: LN_FMT [15:8] + 1 (03 R502); 0 for a line not in use. -/
def NetImage.buffersOf (n : NetImage) (l : Nat) : Nat :=
  if n.lineUsed l then fld (n.lineAt l).fmt 8 8 + 1 else 0

/-- The points of a fail-safe set (02 R81). -/
def NetImage.fsSet (n : NetImage) (i : Nat) : List Nat :=
  let r := nth (0, 0) n.fsRecs i
  (n.fsPoints.drop r.1).take r.2

/-- The STATION unit at an address of a line (02 Table 2-3). -/
def NetImage.stationAt (n : NetImage) (line addr : Nat) : Option Nat :=
  (List.range n.units.length).find? (fun u =>
    let d := n.unitAt u
    d.typ == 1 && fld d.tspec 0 6 == line && fld d.tspec 8 6 == addr)

/-- Point source fields of RX and TX points (02 Table 2-12). -/
def PointRec.srcLine (p : PointRec) : Nat := fld p.source 0 6
/-- The window entry of an RX or TX point (02 Table 2-12). -/
def PointRec.srcWindow (p : PointRec) : Nat := fld p.source 8 11
/-- The first payload byte of an RX or TX point (02 Table 2-12). -/
def PointRec.srcOffset (p : PointRec) : Nat := fld p.source 20 6
/-- The field width code of an RX or TX point (02 Table 2-12). -/
def PointRec.srcWidth (p : PointRec) : Nat := fld p.source 26 2
/-- The bit within the byte of an RX or TX point (02 Table 2-12). -/
def PointRec.srcBit (p : PointRec) : Nat := fld p.source 28 3

/-- The bytes that a field of a width code takes. -/
def widthBytes (w : Nat) : Nat := if w = 2 then 2 else if w = 3 then 4 else 1

/-- Payload length of a data length code as ISO 11898-1 defines it (03 R87, Table 3-6); classic frames end at 8. -/
def dlcLen (fdf : Bool) (dlc : Nat) : Nat :=
  if dlc ≤ 8 then dlc
  else if fdf then nth 64 [12, 16, 20, 24, 32, 48, 64] (dlc - 9) else 8

/-! Bit timing and frame duration. -/

/-- Nominal bit time in CLK_C cycles: A_PRE × (1 + A_SEG1 + A_SEG2) (03 Tables 3-2 and 3-10). -/
def LineRec.nominalBit (r : LineRec) : Nat := (fld r.abt 24 5 + 1) * (1 + (fld r.abt 0 8 + 1) + (fld r.abt 8 7 + 1))

/-- Data bit time in CLK_C cycles; with BRS clear in LN_FMT, the nominal bit time (03 R90, R91). -/
def LineRec.dataBit (r : LineRec) : Nat :=
  if bit r.fmt 1 then (fld r.dbt 24 5 + 1) * (1 + (fld r.dbt 0 5 + 1) + (fld r.dbt 8 4 + 1)) else r.nominalBit

/-- Duration in CLK_C cycles of a frame with `n` payload bytes, every possible stuff bit and the intermission counted (03 R91). -/
def frameClkC (tn td : Nat) (fdf ide : Bool) (n : Nat) : Nat :=
  if fdf then
    let a := if ide then 36 else 17
    let d := 5 + 8 * n
    let crc := if n ≤ 16 then 17 else 21
    let na := a + (a - 1) / 4 + 12
    let nd := d + (d + 3) / 4 + 4 + crc + (crc + 7) / 4 + 1
    na * tn + nd * td
  else
    let m := (if ide then 54 else 34) + 8 * n
    (m + (m - 1) / 4 + 13) * tn

/-- The duration of a line's frame of a format (03 R91). -/
def LineRec.durClkC (r : LineRec) (fdf ide brs : Bool) (n : Nat) : Nat :=
  frameClkC r.nominalBit (if brs then r.dataBit else r.nominalBit) fdf ide n

/-- A window's frame duration, by its own format, BRS setting and DLC (04 R112). -/
def LineRec.windowDur (r : LineRec) (w : Window) : Nat := r.durClkC w.fdf w.ide w.brs (dlcLen w.fdf w.dlc)

/-- An acceptance-list entry's frame duration, with the line's BRS setting (notes/assumptions/20). -/
def LineRec.accDur (r : LineRec) (a : AccEntry) : Nat := r.durClkC a.fdf a.ide (bit r.fmt 1) (dlcLen a.fdf a.dlc)

/-- dur(n) of an ARB window for an acceptance-list entry: its payload and frame format, with the window entry's identifier format and BRS setting (04 R112; notes/assumptions/20). -/
def LineRec.arbDur (r : LineRec) (w : Window) (a : AccEntry) : Nat := r.durClkC a.fdf w.ide w.brs (dlcLen a.fdf a.dlc)

/-- The duration of the reference frame of a line (04 R112, Tr). -/
def LineRec.refDur (r : LineRec) : Nat := r.durClkC true false (bit r.fmt 1) 16

/-- CLK_C cycles in a number of microseconds (00 Table 0-4). -/
def clkC (us : Nat) : Nat := 80 * us

/-- CLK_C cycles rounded up to microseconds. -/
def clkCToUs (c : Nat) : Nat := (c + 79) / 80

/-! Comparing values in a point's type (02 R60). -/

/-- The number a binary32 pattern orders by: IEEE 754 ordering of non-NaN values, −0 equal to +0. -/
def fp32Order (w : Word) : Int :=
  let x := w.toNat
  if x < 2 ^ 31 then (x : Int) else -((x - 2 ^ 31 : Nat) : Int)

/-- A binary32 pattern is a NaN. -/
def isNan32 (w : Word) : Bool := decide (0x7F800000 < w.toNat % 2 ^ 31)

/-- `a ≤ b` in a point's type; no NaN is ordered (02 R60). -/
def leByType (typ : Nat) (a b : Word) : Bool :=
  if typ = 3 then !isNan32 a && !isNan32 b && decide (fp32Order a ≤ fp32Order b)
  else if typ = 1 ∨ typ = 4 then decide (a.toInt ≤ b.toInt)
  else decide (a.toNat ≤ b.toNat)

/-- A value lies in [MIN, MAX] in the point's type. -/
def inRange (typ : Nat) (e : ParamEntry) (v : Word) : Bool := leByType typ e.min v && leByType typ v e.max

/-! Checks of 02 Table 2-16. -/

/-- Unit 0 is a GROUP; no unit below U is UNUSED or of a reserved type (02 Tables 2-1, 2-16 row 1). -/
def netUnitTypes (n : NetImage) : Bool :=
  (n.unitAt 0).typ == 8 && n.units.all (fun u => decide (1 ≤ u.typ ∧ u.typ ≤ 8))

/-- IDs are in preorder; PARENT, DEPTH and SUBTREE_END agree (02 R53, Table 2-16 row 2): each unit's parent is a GROUP whose subtree holds it, the unit before it ends its subtree or is its parent, and a subtree ends where its last child's ends. -/
def netPreorder (n : NetImage) : Bool :=
  let ids := List.range n.units.length
  let last := n.units.length - 1
  (n.unitAt 0).depth == 0 && (n.unitAt 0).parent == 0 && (n.unitAt 0).subtreeEnd == last
    && ids.all (fun u =>
      let d := n.unitAt u
      decide (u ≤ d.subtreeEnd ∧ d.subtreeEnd ≤ last) && (d.typ == 8 || d.subtreeEnd == u)
        && (u == 0 ||
          (let p := n.unitAt d.parent
           decide (d.parent < u) && p.typ == 8 && d.depth == p.depth + 1 && decide (d.subtreeEnd ≤ p.subtreeEnd)
             && decide (u ≤ p.subtreeEnd)
             && (d.parent == u - 1 || ids.any (fun v => v != 0 && (n.unitAt v).parent == d.parent && (n.unitAt v).subtreeEnd == u - 1 && v < u))))
        && (d.subtreeEnd == u || ids.any (fun v => v != 0 && (n.unitAt v).parent == u && (n.unitAt v).subtreeEnd == d.subtreeEnd)))

/-- TSPEC holds what its unit type states and 0 elsewhere (02 Table 2-3). -/
def netTspec (n : NetImage) : Bool :=
  n.units.all (fun u =>
    if u.typ = 1 then u.tspec == fld u.tspec 0 6 + 256 * fld u.tspec 8 6
    else if u.typ = 8 then u.tspec == fld u.tspec 0 13
    else if u.typ = 7 then
      u.tspec == fld u.tspec 0 5 + 128 * fld u.tspec 7 1
        && (bit u.tspec 7 || decide (1 ≤ fld u.tspec 0 5 ∧ fld u.tspec 0 5 ≤ 12))
    else u.tspec == 0)

/-- At most 4,096 stations, at most 64 on a line, no two with one LINE and ADDRESS (02 Table 2-16 row 3). -/
def netStations (n : NetImage) : Bool :=
  let st := (n.units.filter (fun u => u.typ == 1)).map (fun u => fld u.tspec 0 14)
  decide (st.length ≤ 4096) && noDup st

/-- Ports (02 R56, Table 2-16 rows 4 and 5). -/
def netPorts (n : NetImage) : Bool :=
  let ids := List.range n.units.length
  let carrier := fun u => decide (4 ≤ (n.unitAt u).typ ∧ (n.unitAt u).typ ≤ 6)
  ids.all (fun u =>
    let d := n.unitAt u
    if d.typ = 8 then
      let base := fld d.tspec 0 13
      decide (d.portCount ≤ 8) && decide (base + d.portCount ≤ n.ports.length ∨ d.portCount = 0)
        && (List.range d.portCount).all (fun i =>
          let p := nth { group := 0, index := 0, inner := 0, outer := 0, bpFirst := 0 } n.ports (base + i)
          let par := n.unitAt d.parent
          p.group == u && p.index == i
            && decide (u < p.inner ∧ p.inner ≤ d.subtreeEnd) && carrier p.inner
            && carrier p.outer && !decide (u ≤ p.outer ∧ p.outer ≤ d.subtreeEnd)
            && decide (d.parent ≤ p.outer ∧ p.outer ≤ par.subtreeEnd)
            && (List.range 6).all (fun j => (n.pointAt (p.bpFirst + j)).typ == 3 && (n.pointAt (p.bpFirst + j)).kind != 0
                 && (n.pointAt (p.bpFirst + j)).unit == u))
    else d.portCount == 0)

/-- Point ranges of units do not overlap; every configured point's UNIT owns it; stations and groups begin with the four status points; no other point has KIND MODULE (02 R55, R58, Table 2-16 row 6). -/
def netPointOwners (n : NetImage) : Bool :=
  let ext := n.units.map (fun u => (u.firstPoint, u.pointCount))
  disjoint ext
    && (List.range n.points.length).all (fun p =>
      let r := n.pointAt p
      let d := n.unitAt r.unit
      r.kind == 0 ||
        (decide (r.unit < n.units.length ∧ d.firstPoint ≤ p ∧ p < d.firstPoint + d.pointCount)
          && (r.kind != 4 || (decide (d.typ = 1 ∨ d.typ = 8) && decide (p < d.firstPoint + 4)))))
    && n.units.all (fun u => !(decide (u.typ = 1 ∨ u.typ = 8)) ||
        (decide (4 ≤ u.pointCount) && (List.range 4).all (fun i =>
          let r := n.pointAt (u.firstPoint + i)
          r.kind == 4 && r.typ == 2 && fld r.source 0 2 == i)))

/-- The quantity codes of a METER point and the TYPE of each (10 Table 10-8, 11 Table 11-5); `none` for a reserved code. -/
def meterType (source q : Nat) : Option Nat :=
  if source < 12 then
    if (1 ≤ q ∧ q ≤ 6) ∨ (8 ≤ q ∧ q ≤ 0x10) then some 3 else if 0x20 ≤ q ∧ q ≤ 0x28 then some 2 else none
  else
    if 1 ≤ q ∧ q ≤ 4 then some 3 else if 0x20 ≤ q ∧ q ≤ 0x22 then some 2
    else if q = 0x28 then some 2 else none

/-- No reserved encoding; SCALE and RANGE_MODE agree with TYPE; SOURCE fields by KIND (02 Tables 2-8 to 2-12, 2-16 row 7). -/
def netPointEncodings (n : NetImage) : Bool :=
  n.points.all (fun p =>
    decide (p.typ ≤ 4 ∧ p.kind ≤ 6 ∧ p.policy ≤ 2 ∧ p.rangeMode ≤ 2)
      && (p.typ == 4 || p.scale == 0) && (p.typ != 0 || p.rangeMode == 0)
      && (if p.kind = 1 ∨ p.kind = 2 then
            p.source == fld p.source 0 6 + 2 ^ 8 * fld p.source 8 11 + 2 ^ 20 * fld p.source 20 11
              && (p.srcWidth == 0 || p.srcBit == 0)
          else if p.kind = 5 then p.source == fld p.source 0 21
          else if p.kind = 6 then
            p.source == fld p.source 0 6 + 2 ^ 8 * fld p.source 8 8
              && decide (fld p.source 0 6 ≤ 11 ∨ (16 ≤ fld p.source 0 6 ∧ fld p.source 0 6 ≤ 47))
          else if p.kind = 4 then p.source == fld p.source 0 2
          else p.source == 0))

/-- Bits `[8 × offset, …)` that a point's field occupies in its payload. -/
def fieldBits (p : PointRec) : Nat × Nat :=
  if p.srcWidth = 0 then (8 * p.srcOffset + p.srcBit, 1) else (8 * p.srcOffset, 8 * widthBytes p.srcWidth)

/-- The window of an RX or TX point. -/
def NetImage.windowOfPoint (n : NetImage) (p : PointRec) : Option Window :=
  if n.lineUsed p.srcLine then (n.windowsOf p.srcLine)[p.srcWindow]? else none

/-- RX and TX sources: window kinds, fields within the frame, WIDTH by TYPE (02 R61), off the end-to-end header and the MAC trailer (04 Table 4-4), no two TX points overlapping (02 Table 2-16 row 8). -/
def netSources (n : NetImage) : Bool :=
  n.points.all (fun p =>
    if p.kind = 1 ∨ p.kind = 2 then
      match n.windowOfPoint p with
      | none => false
      | some w =>
        let len := dlcLen w.fdf w.dlc
        w.kind == (if p.kind = 1 then 2 else 1)
          && decide (p.srcOffset + widthBytes p.srcWidth ≤ len)
          && (if p.typ = 0 then p.srcWidth == 0 else if p.typ = 3 then p.srcWidth == 3 else true)
          && (!w.e2e || decide (4 ≤ p.srcOffset))
          && (!w.mac || decide (p.srcOffset + widthBytes p.srcWidth + 4 ≤ len))
    else true)
  && disjoint ((n.points.filter (fun p => p.kind == 2)).map (fun p =>
        ((p.srcLine * 2048 + p.srcWindow) * 1024 + (fieldBits p).1, (fieldBits p).2)))

/-- PARAM lies in the table; MIN ≤ MAX; SUBST and FAILSAFE in range, for every configured point (02 Table 2-16 row 9). -/
def netParams (n : NetImage) : Bool :=
  n.points.all (fun p => p.kind == 0 ||
    (let e := n.paramOf p
     decide (p.param < n.params.length) && leByType p.typ e.min e.max && inRange p.typ e e.subst && inRange p.typ e e.failsafe))

/-! Checks on lines and on the matrix. -/

/-- The bit-timing limits of a line in use (03 R90, Table 3-2). -/
def lineTimingOk (r : LineRec) : Bool :=
  let aPre := fld r.abt 24 5 + 1
  let aSeg1 := fld r.abt 0 8 + 1
  let aSeg2 := fld r.abt 8 7 + 1
  let aSjw := fld r.abt 16 7 + 1
  let aBit := 1 + aSeg1 + aSeg2
  let dPre := fld r.dbt 24 5 + 1
  let dSeg1 := fld r.dbt 0 5 + 1
  let dSeg2 := fld r.dbt 8 4 + 1
  let dSjw := fld r.dbt 16 4 + 1
  let dBit := 1 + dSeg1 + dSeg2
  decide (2 ≤ aSeg1 ∧ 2 ≤ aSeg2 ∧ aSjw ≤ aSeg2 ∧ 8 ≤ aBit ∧ aBit ≤ 385 ∧ 80 ≤ aPre * aBit ∧ aPre * aBit ≤ 1600)
    && (!bit r.fmt 1 ||
      (decide (dSjw ≤ dSeg2 ∧ 5 ≤ dBit ∧ dBit ≤ 49 ∧ 16 ≤ dPre * dBit ∧ dPre * dBit ≤ aPre * aBit)
        && (decide (80 ≤ dPre * dBit) || (bit r.ssp 0 && decide (dPre ≤ 2)))))

/-- LN_FMT of a line in use (03 R502). IDE of a FREE or ARB entry does not count as a 29-bit identifier: such an entry carries no identifier (DESIGN CHOICE, notes/assumptions/108). -/
def lineFmtOk (n : NetImage) (l : Nat) : Bool :=
  let r := n.lineAt l
  let ws := (n.windowsOf l).filter (fun w => decide (w.kind = 1 ∨ w.kind = 2))
  let buf := fld r.fmt 8 8 + 1
  bit r.fmt 0
    && (n.windowsOf l).all (fun w => !w.brs || bit r.fmt 1)
    && (bit r.fmt 2 || (ws.all (fun w => !w.ide) && (n.accsOf l).all (fun a => !a.ide)))
    && ws.all (fun w => w.kind != 2 || decide (w.buf < buf)) && (n.accsOf l).all (fun a => decide (a.buf < buf))

/-- The ranges of a line record and its place in the sections (02 R82, Table 2-20, 04 R108, 16 R421). -/
def lineRangesOk (n : NetImage) (l : Nat) : Bool :=
  let r := n.lineAt l
  if n.lineUsed l then
    decide (2 ≤ r.guard ∧ r.guard ≤ 1000 ∧ 1 ≤ r.windowCount ∧ r.windowCount ≤ 2048 ∧ r.accCount ≤ 256
        ∧ r.refId ≤ 0x7FF ∧ 1 ≤ r.absentN ∧ r.absentN ≤ 15 ∧ 1 ≤ r.maxDelta ∧ r.maxDelta ≤ 15
        ∧ 1 ≤ r.boffLimit ∧ r.boffLimit ≤ 15 ∧ 10 ≤ r.recovery ∧ r.recovery ≤ 1000
        ∧ r.firstWindow + r.windowCount ≤ n.windows.length ∧ r.firstAcc + r.accCount ≤ n.accs.length)
      && (r.lineKey == 0xFF || decide (10 ≤ r.lineKey ∧ r.lineKey ≤ 63))
      && (r.safeInj == 0xFF || (decide (r.safeInj < 128)
            && ((n.injs[r.safeInj]?).map (fun i => i.line == l)).getD false))
  else
    [r.abt, r.dbt, r.ssp, r.fmt, r.guard, r.firstWindow, r.windowCount, r.firstAcc, r.accCount, r.refId, r.absentN,
      r.maxDelta, r.boffLimit, r.lineKey, r.recovery, r.fenceHold, r.safeInj].all (fun x => x == 0)

/-- Every window of the line starts and ends where 04 Table 4-4 rows 2 and 3 allow. -/
def lineOrderOk (n : NetImage) (l : Nat) : Bool :=
  let r := n.lineAt l
  let ws := n.windowsOf l
  let lb := n.len / n.basics
  ws.all (fun w => decide (w.bc < n.basics ∧ 1 ≤ w.length ∧ w.start + w.length + r.guard ≤ lb
      ∧ r.refDur + clkC r.guard ≤ clkC w.start))
    && (ws.zip (ws.drop 1)).all (fun p =>
      decide (p.1.bc < p.2.bc ∨ (p.1.bc = p.2.bc ∧ p.1.start + p.1.length ≤ p.2.start)))

/-- A window's own checks (04 Table 4-4 rows 4 to 6, Table 4-3). A TX_EXCL or RX_EXCL entry with BRS set and FDF clear is refused too, since a classic frame has no BRS bit: Table 4-4 does not list it (DESIGN CHOICE, notes/assumptions/106). -/
def windowOk (n : NetImage) (l : Nat) (w : Window) : Bool :=
  let r := n.lineAt l
  let len := dlcLen w.fdf w.dlc
  if w.kind = 1 ∨ w.kind = 2 then
    decide (r.windowDur w + clkC (2 * r.guard) ≤ clkC w.length)
      && (n.stationAt l w.address).isSome && w.ident != r.refId
      && (decide (w.dlc ≤ 8) || w.fdf) && (w.fdf || !w.brs) && (w.kind == 2 || w.buf == 0) && (w.ide || decide (w.ident < 0x800))
      && (!w.e2e || decide (4 ≤ len)) && (!w.mac || decide ((if w.e2e then 8 else 4) ≤ len))
  else
    !w.e2e && !w.mac && w.address == 0 && w.buf == 0 && w.dlc == 0
      && (w.kind != 3 || decide (maxOf ((n.accsOf l).map (r.arbDur w)) + clkC (2 * r.guard) ≤ clkC w.length))

/-- The longest frame of a line is at most 12,500 µs (03 R91, Table 3-2). R91 names the largest payload only: the model takes the longest of the durations that each TX_EXCL, RX_EXCL and acceptance-list entry has by its own format, and leaves FREE and ARB entries, which carry no frame of their own, out (DESIGN CHOICE, notes/assumptions/107). -/
def lineLongestOk (n : NetImage) (l : Nat) : Bool :=
  let r := n.lineAt l
  ((n.windowsOf l).filter (fun w => decide (w.kind = 1 ∨ w.kind = 2))).all (fun w => decide (r.windowDur w ≤ clkC 12500))
    && (n.accsOf l).all (fun a => decide (r.accDur a ≤ clkC 12500))

/-- Buffers and stations of a line (04 Table 4-4 rows 7 and 8; 02 R83). -/
def lineBuffersOk (n : NetImage) (l : Nat) : Bool :=
  let rx := (n.windowsOf l).filter (fun w => w.kind == 2)
  noDup (rx.map (fun w => w.buf)) && (n.accsOf l).all (fun a => !(rx.map (fun w => w.buf)).contains a.buf)
    && noDup ((n.accsOf l).map (fun a => a.ident + 2 ^ 29 * b2n a.ide + 2 ^ 30 * b2n a.fdf))
    && (n.accsOf l).all (fun a => a.ide || decide (a.ident < 0x800))
    && n.units.all (fun u => u.typ != 1 || fld u.tspec 0 6 != l || rx.any (fun w => w.address == fld u.tspec 8 6))

/-- All checks on the lines and the matrix (03 R90, R502; 04 R108, R112). A STATION whose LINE is not in use is refused: no table lists it, and such a station can have no RX_EXCL window, which row 7 of Table 4-4 wants of every station on a line in use (DESIGN CHOICE, notes/assumptions/109). -/
def netLines (n : NetImage) : Bool :=
  decide (1 ≤ n.basics ∧ n.basics ≤ 64 ∧ 250000 ≤ n.len ∧ n.len ≤ 4000000) && n.len % n.basics == 0
    && (List.range 64).all (fun l => lineRangesOk n l && (!n.lineUsed l ||
      (lineTimingOk (n.lineAt l) && lineFmtOk n l && lineOrderOk n l && (n.windowsOf l).all (windowOk n l)
        && lineLongestOk n l && lineBuffersOk n l)))
    && n.units.all (fun u => u.typ != 1 || n.lineUsed (fld u.tspec 0 6))

/-- A line with a MAC window names a slot that is VALID with KIND 5 (17 R433); `keyOk` says which slots are. -/
def netLineKeys (n : NetImage) (keyOk : Nat → Bool) : Bool :=
  (List.range 64).all (fun l => !n.lineUsed l || (n.windowsOf l).all (fun w => !w.mac) ||
    ((n.lineAt l).lineKey != 0xFF && keyOk (n.lineAt l).lineKey))

/-! Checks on the vent path, local I/O, events and regions. -/

/-- A vent rule (09 Tables 9-1 to 9-3, R272; 02 R84). -/
def ruleOk (n : NetImage) (r : VentRule) : Bool :=
  decide (r.src ≤ 4) && (r.src != 2 || r.latch) && (r.src != 3 || !r.latch) && (r.src != 4 || (r.latch && r.edge != 0))
    && (r.src != 1 || decide (8 * r.offset + (if r.width = 0 then r.bitNo + 1 else 8 * widthBytes r.width) ≤ 512))
    && (!r.allLines || r.line == 0)
    && (!r.actDo || ((n.dos[r.doNo]?).map (fun d => d.inUse)).getD false)
    && (!r.actInj || ((n.injs[r.inj]?).map (fun i => i.line != 0xFF)).getD false)
    && (!r.actFlt || decide (1 ≤ r.fltClass ∧ r.fltClass ≤ 4))

/-- An injection entry in use (02 Table 2-22, 09 R272): a line, an identifier below every other of its line but REF_ID, bytes beyond the length 0. -/
def injOk (n : NetImage) (i : InjEntry) : Bool :=
  let ref := (n.lineAt i.line).refId
  i.line == 0xFF ||
    (decide (i.line < 64) && (decide (i.dlc ≤ 8) || i.fdf) && decide (i.dlc ≤ 15)
      && (i.payload.drop (dlcLen i.fdf i.dlc)).all (fun b => b == 0)
      && ((n.windowsOf i.line).filter (fun w => decide (w.kind = 1 ∨ w.kind = 2))).all (fun w => decide (i.ident < w.ident) || w.ident == ref)
      && (n.accsOf i.line).all (fun a => decide (i.ident < a.ident) || a.ident == ref))

/-- The vent path and the local I/O (02 R84, R85; 09 R272). -/
def netVent (n : NetImage) : Bool :=
  n.rules.all (ruleOk n) && n.injs.all (injOk n)
    && n.fsRecs.all (fun r => r.2 == 0 || decide (r.1 + r.2 ≤ n.fsPoints.length))
    && (List.range 64).all (fun i => (n.fsSet i).all (fun p => (n.pointAt p).kind == 2))
    && n.dos.all (fun d => match d.base with
        | none => true
        | some p => (n.pointAt p).typ == 0 && (n.pointAt p).kind == 3)

/-- The event table, the snapshot lists, and each of the 256 bin tables, used or not (18 R446). -/
def netEvents (n : NetImage) : Bool :=
  (indexed n.events).all (fun (c, e) =>
      (e.rint == 0 || decide (1 ≤ e.depth)) && (e.mode != 3 || decide (0x800 ≤ c ∧ 1 ≤ e.span))
        && (e.mode == 3 || e.span == 0) && (decide (2 ≤ e.mode) || e.list == 0))
    && n.snapLists.all (fun l => l.all (fun p => p == 0xFFFFFFFF || (n.pointAt p).kind != 0))
    && n.binTables.all (fun b =>
        b.all (fun w => decide (w.toNat % 2 ^ 31 < 0x7F800000))
          && (b.zip (b.drop 1)).all (fun p => decide (fp32Order p.1 < fp32Order p.2)))

/-- The regions that the image needs, with their sizes (02 Table 2-24). -/
def NetImage.neededRegions (n : NetImage) : List (Nat × Nat × Nat) :=
  [(1, 0, 524288), (2, 0, 131072), (3, 0, n.params.length * 16)]
    ++ ((List.range 64).filter n.lineUsed).map (fun l => (4, l, 160 * n.buffersOf l))
    ++ ((List.range 64).filter n.lineUsed).map (fun l => (5, l, 16 * (n.lineAt l).windowCount))
    ++ [(6, 0, n.varReserve), (7, 0, n.varReserve), (8, 0, n.stagingSize), (10, 0, 65536)]

/-- The fixed regions of 01 Table 1-4 together: 4 + 2 + 2 + 2 + 4 + 4 MiB. -/
def fixedRegionBytes : Nat := 18874368

/-- Sizes of the fixed regions of 01 Table 1-4 in MiB, in its order: the directory, three images, two program slots, the recorder ring. -/
def fixedRegionSizes : List Nat := [4, 2, 2, 2, 2, 2, 4]

/-- No region of the map lies over a fixed region, whose offset the firmware fixes (02 R86; notes/assumptions/110). -/
def clearOfFixed (n : NetImage) (offset : Nat → Nat) : Bool :=
  n.regions.all (fun r => (indexed fixedRegionSizes).all (fun p => !overlaps (r.offset, r.size) (offset p.1, p.2 * 1048576)))

/-- The region map (02 R86; 01 R31): every needed region of a nonzero size once, supervisor data of at least 1 MiB, inside the store, none over another, and all together with the fixed regions at most 32 MiB. -/
def netRegions (n : NetImage) : Bool :=
  let rs := n.regions
  rs.all (fun r => decide (1 ≤ r.kind ∧ r.kind ≤ 10) && r.offset % 64 == 0 && decide (r.offset + r.size ≤ 33554432)
      && (r.kind == 4 || r.kind == 5 || r.index == 0)
      && (if r.kind = 9 then decide (1048576 ≤ r.size) else n.neededRegions.contains (r.kind, r.index, r.size)))
    && noDup (rs.map (fun r => r.kind * 65536 + r.index))
    && n.neededRegions.all (fun q => q.2.2 == 0 || rs.any (fun r => r.kind == q.1 && r.index == q.2.1))
    && rs.any (fun r => r.kind == 9)
    && disjoint (rs.map (fun r => (r.offset, r.size)))
    && decide (sumOf (rs.map (fun r => r.size)) + fixedRegionBytes ≤ 33554432)

/-- METER points: the code and TYPE of their quantity, and a channel or point in use (10 R301, 11 R326). -/
def netMeters (n : NetImage) (inUse : Nat → Bool) : Bool :=
  n.points.all (fun p => p.kind != 6 ||
    (inUse (fld p.source 0 6) && meterType (fld p.source 0 6) (fld p.source 8 8) == some p.typ))

/-- A DI that a heat channel uses as a pulse source has FILTER at most 40 µs (09 R271). -/
def netPulse (n : NetImage) (pulseDi : List Nat) : Bool :=
  pulseDi.all (fun d => decide (nth 0 n.diFilter d ≤ 40))

/-- Every check that the chapters state for a network image's content. -/
def netOk (bs : Bytes) (keyOk : Nat → Bool) (inUse : Nat → Bool) (pulseDi : List Nat) : Bool :=
  netHeaderOk bs && netZeroFields bs &&
    (let n := readNet bs
     netUnitTypes n && netPreorder n && netTspec n && netStations n && netPorts n && netPointOwners n
       && netPointEncodings n && netSources n && netParams n && netLines n && netLineKeys n keyOk && netVent n
       && netEvents n && netRegions n && netMeters n inUse && netPulse n pulseDi)

end Sys2Proof.Machine
end

