-- ==== Sys2Proof/Machine/ProgImage.lean ====
section
/-! DEFINITION. The cycle program image: its tables as data, read from the image's bytes by 05_cycle_engine Tables 5-5 to 5-11, the fixed shape of every block (06_block_library Table 6-5), and the checks of R130, R135, R139, R149 to R151, R162 to R166, R179, R181, R184 to R186, R188 and 18 R446. -/
namespace Sys2Proof.Machine

/-- A task record (05 Table 5-7). -/
structure TaskRec where
  mask : Nat
  barriers : Nat
  offs : List Nat
  lens : List Nat
deriving DecidableEq, Repr

/-- A core list entry (05 Table 5-8). -/
inductive ListEntry where
  | inst (i : Nat)
  | barrier (b : Nat)
deriving DecidableEq, Repr

/-- A block instance with its arguments (05 Table 5-9, R150; 06 R162). -/
structure Inst where
  block : Nat
  task : Nat
  core : Nat
  ident : Nat
  stateOfs : Nat
  inputs : List Word
  types : List Word
  params : List Word
  outs : List Word
deriving DecidableEq, Repr

/-- A variable record (05 Table 5-10). -/
structure VarRec where
  ident : Nat
  typ : Nat
  scale : Nat
  retain : Bool
  owner : Nat
  exported : Bool
  length : Nat
  offset : Nat
deriving DecidableEq, Repr

/-- A cycle program image (05 Tables 5-5 and 5-6). -/
structure ProgImage where
  header : Bytes
  imageSize : Nat
  netDigest : Bytes
  programId : Nat
  version : Nat
  fastPeriod : Nat
  slowFactor : Nat
  varAreaSize : Nat
  retainSize : Nat
  tasks : List TaskRec
  lists : List ListEntry
  insts : List Inst
  args : List Word
  vars : List VarRec
  initData : Bytes
  curves : Bytes
deriving DecidableEq, Repr

/-- The fixed shape of a block (06 Table 6-5): TYPE words, input words, outputs, bytes of specific state, parameter words. -/
structure BlockShape where
  types : Nat
  inputs : Nat
  outputs : Nat
  specific : Nat
  params : Nat
deriving DecidableEq, Repr

/-- The shapes of 06 Table 6-5 with the parameter counts of its family tables; none for a reserved code. -/
def blockShape (code : Nat) : Option BlockShape :=
  match code with
  | 0x00 => some ⟨0, 0, 0, 0, 0⟩
  | 0x01 => some ⟨1, 8, 1, 0, 1⟩
  | 0x02 => some ⟨1, 2, 1, 0, 0⟩
  | 0x03 => some ⟨1, 8, 1, 0, 1⟩
  | 0x04 => some ⟨1, 2, 1, 0, 0⟩
  | 0x05 => some ⟨1, 2, 1, 0, 0⟩
  | 0x06 => some ⟨1, 1, 1, 0, 0⟩
  | 0x07 => some ⟨1, 1, 1, 0, 0⟩
  | 0x08 => some ⟨1, 8, 1, 0, 1⟩
  | 0x09 => some ⟨1, 8, 1, 0, 1⟩
  | 0x0A => some ⟨1, 3, 1, 0, 0⟩
  | 0x0B => some ⟨1, 1, 1, 0, 0⟩
  | 0x0C => some ⟨0, 1, 1, 0, 2⟩
  | 0x0D => some ⟨2, 1, 1, 0, 0⟩
  | 0x10 => some ⟨1, 2, 1, 0, 1⟩
  | 0x11 => some ⟨1, 8, 1, 0, 1⟩
  | 0x12 => some ⟨1, 8, 1, 0, 1⟩
  | 0x13 => some ⟨1, 8, 1, 0, 1⟩
  | 0x14 => some ⟨1, 1, 1, 0, 0⟩
  | 0x15 => some ⟨1, 3, 1, 0, 0⟩
  | 0x16 => some ⟨1, 9, 1, 0, 1⟩
  | 0x17 => some ⟨0, 2, 1, 0, 0⟩
  | 0x18 => some ⟨0, 2, 1, 0, 0⟩
  | 0x19 => some ⟨0, 1, 1, 0, 1⟩
  | 0x1A => some ⟨0, 2, 1, 0, 1⟩
  | 0x20 => some ⟨0, 1, 1, 8, 1⟩
  | 0x21 => some ⟨0, 1, 1, 8, 1⟩
  | 0x22 => some ⟨0, 2, 3, 16, 1⟩
  | 0x23 => some ⟨0, 2, 2, 16, 0⟩
  | 0x24 => some ⟨0, 2, 2, 16, 0⟩
  | 0x25 => some ⟨0, 2, 2, 16, 0⟩
  | 0x26 => some ⟨0, 3, 2, 8, 0⟩
  | 0x27 => some ⟨0, 3, 2, 8, 0⟩
  | 0x28 => some ⟨0, 5, 3, 8, 0⟩
  | 0x29 => some ⟨0, 1, 2, 0, 2⟩
  | 0x2A => some ⟨0, 1, 1, 8, 0⟩
  | 0x30 => some ⟨0, 5, 3, 16, 8⟩
  | 0x31 => some ⟨0, 1, 1, 0, 1⟩
  | 0x32 => some ⟨0, 1, 1, 0, 2⟩
  | 0x33 => some ⟨0, 1, 1, 0, 2⟩
  | 0x34 => some ⟨0, 1, 1, 0, 1⟩
  | 0x35 => some ⟨0, 2, 3, 0, 6⟩
  | 0x36 => some ⟨0, 1, 2, 0, 2⟩
  | 0x37 => some ⟨0, 2, 3, 8, 1⟩
  | 0x38 => some ⟨0, 0, 2, 0, 2⟩
  | 0x39 => some ⟨0, 2, 0, 0, 3⟩
  | 0x3A => some ⟨0, 0, 4, 0, 2⟩
  | 0x3B => some ⟨0, 0, 5, 0, 1⟩
  | 0x3C => some ⟨0, 1, 2, 0, 3⟩
  | 0x3D => some ⟨0, 0, 4, 0, 2⟩
  | 0x3E => some ⟨0, 5, 2, 8, 2⟩
  | 0x3F => some ⟨0, 0, 10, 0, 0⟩
  | _ => none

/-- TYPE in [2:0] and SCALE in [8:3] of a signal's declared type (06 Table 6-1). -/
abbrev SigType := Nat

/-- The plain types of 02 Table 2-8. -/
def tBool : SigType := 0
/-- INT32. -/
def tInt : SigType := 1
/-- UINT32. -/
def tUint : SigType := 2
/-- FP32. -/
def tFp : SigType := 3
/-- The TYPE of a declared type. -/
def typOf (t : SigType) : Nat := t % 8
/-- The exponent E of a declared type. -/
def scaleOf (t : SigType) : Int := toSigned 6 (t / 8)

/-- The declared types of a block's inputs, in order; none where any type is accepted (06 R164). `t` and `p` are the TYPE words and the type of the point of GETP and PUTP. -/
def inputTypes (code : Nat) (t : List Word) (pt : SigType) : List (Option SigType) :=
  let t0 := some (nth 0 t 0).toNat
  match code with
  | 0x02 | 0x04 | 0x05 | 0x10 => [t0, t0]
  | 0x06 | 0x07 | 0x0B | 0x0D | 0x14 => [t0]
  | 0x0A => [t0, t0, t0]
  | 0x01 | 0x03 | 0x08 | 0x09 | 0x11 | 0x12 | 0x13 => List.replicate 8 t0
  | 0x0C | 0x29 | 0x2A | 0x31 | 0x32 | 0x33 | 0x34 | 0x36 => [some tFp]
  | 0x15 => [some tBool, t0, t0]
  | 0x16 => some tUint :: List.replicate 8 t0
  | 0x17 | 0x18 => [some tBool, some tBool]
  | 0x19 => [some tUint]
  | 0x1A => [some tUint, some tBool]
  | 0x20 | 0x21 | 0x3C => [some tBool]
  | 0x22 | 0x23 | 0x24 | 0x25 => [some tBool, some tUint]
  | 0x26 | 0x27 => [some tBool, some tBool, some tInt]
  | 0x28 => [some tBool, some tBool, some tBool, some tBool, some tInt]
  | 0x30 => [some tFp, some tFp, some tFp, some tBool, some tFp]
  | 0x35 => [some tFp, some tFp]
  | 0x37 => [some tFp, some tBool]
  | 0x39 => [some pt, some tBool]
  | 0x3E => [some tBool, none, none, none, none]
  | _ => []

/-- The types of a block's outputs, in order (06 Tables 6-6 to 6-12). -/
def outputTypes (code : Nat) (t : List Word) (pt : SigType) : List SigType :=
  let t0 := (nth 0 t 0).toNat
  match code with
  | 0x01 | 0x02 | 0x03 | 0x04 | 0x05 | 0x06 | 0x07 | 0x08 | 0x09 | 0x0A | 0x0B => [t0]
  | 0x11 | 0x12 | 0x13 | 0x14 | 0x15 | 0x16 => [t0]
  | 0x0D => [(nth 0 t 1).toNat]
  | 0x0C | 0x2A | 0x31 | 0x32 | 0x34 => [tFp]
  | 0x10 | 0x17 | 0x18 | 0x19 | 0x20 | 0x21 | 0x33 => [tBool]
  | 0x1A => [tUint]
  | 0x22 => [tBool, tUint, tUint]
  | 0x23 | 0x24 | 0x25 => [tBool, tUint]
  | 0x26 | 0x27 => [tBool, tInt]
  | 0x28 => [tBool, tBool, tInt]
  | 0x29 => [tFp, tBool]
  | 0x30 => [tFp, tFp, tBool]
  | 0x35 => [tFp, tBool, tFp]
  | 0x36 => [tFp, tFp]
  | 0x37 => [tFp, tInt, tUint]
  | 0x38 => [pt, tUint]
  | 0x3A => [tUint, tUint, tUint, tBool]
  | 0x3B => [tUint, tUint, tUint, tBool, tBool]
  | 0x3C => [tBool, tUint]
  | 0x3D => [tFp, tUint, tUint, tUint]
  | 0x3E => [tBool, tUint]
  | 0x3F => List.replicate 10 tUint
  | _ => []

/-- The types that a block permits in its TYPE words (06 Tables 6-6 and 6-8). -/
def permittedTypes (code : Nat) : List Nat :=
  match code with
  | 0x01 | 0x02 | 0x03 | 0x04 | 0x05 | 0x08 | 0x09 | 0x0A => [1, 2, 3, 4]
  | 0x06 | 0x07 => [1, 3, 4]
  | 0x0B => [2, 3]
  | 0x11 | 0x12 | 0x13 | 0x14 => [0, 2]
  | _ => [0, 1, 2, 3, 4]

/-! Reading the tables. -/

/-- Entry `i` of the section table of a cycle program image (05 Table 5-5). -/
def progSection (bs : Bytes) (i : Nat) : Nat × Nat := (leAt bs (0x50 + 8 * i) 4, leAt bs (0x54 + 8 * i) 4)

/-- The header's field rules (05 Tables 5-5 and 5-6) but for those that need another image. -/
def progHeaderOk (bs : Bytes) : Bool :=
  let sz := leAt bs 0x0C 4
  let sec := progSection bs
  let secs := (List.range 8).map sec
  decide (256 ≤ bs.length) && leAt bs 0 4 == 0x43504751 && leAt bs 4 2 == 3 && leAt bs 6 2 == 0
    && leAt bs 8 4 == 0x00030002 && sz == bs.length && decide (sz ≤ 2097152)
    && (leAt bs 0x38 4 == 0 || decide (1000 ≤ leAt bs 0x38 4 ∧ leAt bs 0x38 4 ≤ 100000))
    && decide (leAt bs 0x3C 4 ≤ 65535) && decide (1 ≤ leAt bs 0x40 4 ∧ leAt bs 0x40 4 ≤ 131072)
    && decide (leAt bs 0x44 4 ≤ 65536) && leAt bs 0x48 4 % 8 == 0 && decide (leAt bs 0x48 4 ≤ 1048576)
    && decide (leAt bs 0x4C 4 ≤ 262144) && leAt bs 0x90 80 == 0
    && secs.all (fun e => decide (e.1 + e.2 ≤ sz)) && disjoint secs && sec 7 == (0, 0)
    && (sec 0).2 == 144 && (sec 1).2 % 4 == 0 && (sec 2).2 == 8 * leAt bs 0x40 4 && (sec 3).2 % 4 == 0
    && (sec 4).2 == 16 * leAt bs 0x44 4 && decide ((sec 5).2 ≤ leAt bs 0x48 4)

/-- The reserved bits of the task records, the core lists and the variable records are 0 (05 Tables 5-7, 5-8 and 5-10, R151). -/
def progReservedOk (bs : Bytes) : Bool :=
  let off := fun i => (progSection bs i).1
  let size := fun i => (progSection bs i).2
  (records bs (off 0) 48 3 (fun r => leAt r 0x2C 4 == 0)).all id
    && (records bs (off 1) 4 (size 1 / 4) leNat).all (fun x => fld x 17 14 == 0 && (!bit x 31 || fld x 12 5 == 0))
    && (records bs (off 4) 16 (size 4 / 16) leNat).all (fun x => !bit x 39 && fld x 46 18 == 0 && fld x 80 16 == 0)

/-- The fixed argument words of every instance lie in the argument section (05 R150, 06 R162). -/
def progArgsOk (bs : Bytes) : Bool :=
  let words := (progSection bs 3).2 / 4
  (records bs (progSection bs 2).1 8 ((progSection bs 2).2 / 8) leNat).all (fun x =>
    match blockShape (fld x 0 6) with
    | some sh => decide (fld x 10 22 + (1 + sh.inputs + sh.types + sh.params + sh.outputs) ≤ words)
    | none => false)

/-- 05 Table 5-7. -/
def readTask (r : Bytes) : TaskRec :=
  { mask := leAt r 0 4, barriers := leAt r 4 4, offs := records r 8 4 4 leNat, lens := records r 0x18 4 4 leNat }

/-- 05 Table 5-8. -/
def readEntry (r : Bytes) : ListEntry :=
  let x := leNat r
  if bit x 31 then .barrier (fld x 0 12) else .inst (fld x 0 17)

/-- 05 Tables 5-9 and R150, with the arguments that the block's shape gives it. -/
def readInst (args : List Word) (r : Bytes) : Inst :=
  let x := leNat r
  let a := args.drop (fld x 10 22)
  let sh := (blockShape (fld x 0 6)).getD ⟨0, 0, 0, 0, 0⟩
  { block := fld x 0 6, task := fld x 6 2, core := fld x 8 2, ident := fld x 32 32,
    stateOfs := (nth 0 a 0).toNat,
    inputs := (a.drop 1).take sh.inputs,
    types := (a.drop (1 + sh.inputs)).take sh.types,
    params := (a.drop (1 + sh.inputs + sh.types)).take sh.params,
    outs := (a.drop (1 + sh.inputs + sh.types + sh.params)).take sh.outputs }

/-- 05 Table 5-10. -/
def readVar (r : Bytes) : VarRec :=
  let x := leNat r
  { ident := fld x 0 32, typ := fld x 32 3, retain := bit x 35, owner := fld x 36 2, exported := bit x 38,
    scale := fld x 40 6, length := fld x 64 16, offset := fld x 96 32 }

/-- The image's tables. -/
def readProg (bs : Bytes) : ProgImage :=
  let off := fun i => (progSection bs i).1
  let size := fun i => (progSection bs i).2
  let args := records bs (off 3) 4 (size 3 / 4) (fun r => word32At r 0)
  { header := bs.take 256, imageSize := leAt bs 0x0C 4, netDigest := slice bs 0x10 32, programId := leAt bs 0x30 4,
    version := leAt bs 0x34 4, fastPeriod := leAt bs 0x38 4, slowFactor := leAt bs 0x3C 4,
    varAreaSize := leAt bs 0x48 4, retainSize := leAt bs 0x4C 4,
    tasks := records bs (off 0) 48 3 readTask,
    lists := records bs (off 1) 4 (size 1 / 4) readEntry,
    insts := records bs (off 2) 8 (size 2 / 8) (readInst args),
    args := args,
    vars := records bs (off 4) 16 (size 4 / 16) readVar,
    initData := slice bs (off 5) (size 5),
    curves := slice bs (off 6) (size 6) }

/-- Task `t` of the program; an empty record when there is none. -/
def ProgImage.taskAt (p : ProgImage) (t : Nat) : TaskRec := nth { mask := 0, barriers := 0, offs := [], lens := [] } p.tasks t

/-- A core's list for a task (05 Table 5-7); empty for a core outside the mask. -/
def ProgImage.coreList (p : ProgImage) (t c : Nat) : List ListEntry :=
  let r := p.taskAt t
  if bit r.mask c then (p.lists.drop (nth 0 r.offs c)).take (nth 0 r.lens c) else []

/-- An instance by index. -/
def ProgImage.instAt (p : ProgImage) (i : Nat) : Inst :=
  nth { block := 0, task := 0, core := 0, ident := 0, stateOfs := 0, inputs := [], types := [], params := [], outs := [] } p.insts i

/-- Task `t` is present: its mask is nonzero and, for FAST and SLOW, so is its period field (05 R151). -/
def ProgImage.present (p : ProgImage) (t : Nat) : Bool :=
  (p.taskAt t).mask != 0 && (t != 0 || p.fastPeriod != 0) && (t != 2 || p.slowFactor != 0)

/-- The type of the point that GETP or PUTP names by its parameters UNIT and INDEX (06 R184). -/
def pointIdOf (n : NetImage) (i : Inst) : Nat :=
  (n.unitAt (nth 0 i.params 0).toNat).firstPoint + (nth 0 i.params 1).toNat

/-- The declared type of a point. -/
def PointRec.sigType (p : PointRec) : SigType := p.typ + 8 * ofSigned 6 p.scale

/-- The type of the point an interface block names. -/
def instPointType (n : NetImage) (i : Inst) : SigType := (n.pointAt (pointIdOf n i)).sigType

/-- The declared type of a variable. -/
def VarRec.sigType (v : VarRec) : SigType := v.typ + 8 * v.scale

/-- The variable whose working copy holds a word offset (05 Table 5-11). -/
def ProgImage.varAt (p : ProgImage) (w : Nat) : Option VarRec :=
  p.vars.find? (fun v => decide (v.offset / 4 ≤ w ∧ w < v.offset / 4 + v.length))

/-- The bytes of a variable, its published copy included (05 Table 5-10). -/
def VarRec.bytes (v : VarRec) : Nat := if v.exported then 8 * v.length else 4 * v.length

/-- The bytes of an instance's state (06 R166); NOP has none. -/
def Inst.stateBytes (i : Inst) : Nat :=
  if i.block = 0 then 0
  else match blockShape i.block with
    | none => 0
    | some sh => 8 * sh.outputs + 8 + sh.specific

/-! The order of instances (05 R135). -/

/-- Where an instance stands: its core, its position in the core's list, the barriers before it. -/
structure Place where
  core : Nat
  pos : Nat
  passed : Nat
deriving DecidableEq, Repr

/-- The places of the instances of one list. -/
def placesIn (core : Nat) (l : List ListEntry) (pos passed : Nat) : List (Nat × Place) :=
  match l with
  | [] => []
  | .inst i :: t => (i, ⟨core, pos, passed⟩) :: placesIn core t (pos + 1) passed
  | .barrier _ :: t => placesIn core t (pos + 1) (passed + 1)

/-- The places of the instances of a task. -/
def ProgImage.places (p : ProgImage) (t : Nat) : List (Nat × Place) :=
  (List.range 4).flatMap (fun c => placesIn c (p.coreList t c) 0 0)

/-- One place lies before another as R135 requires of a producer and a reader. -/
def placeBefore (a b : Place) : Bool := (a.core == b.core && decide (a.pos < b.pos)) || decide (a.passed < b.passed)

/-- The place of an instance. -/
def placeOf (pl : List (Nat × Place)) (i : Nat) : Option Place := (pl.find? (fun q => q.1 == i)).map (fun q => q.2)

/-- R135 orders two instances, the first before the second. -/
def orderedPair (pl : List (Nat × Place)) (i j : Nat) : Bool :=
  match placeOf pl i, placeOf pl j with
  | some a, some b => placeBefore a b
  | _, _ => false

/-! Checks. -/

/-- The lists of a task hold each barrier of it once, in ascending order, and each of its instances stands in exactly one list, that of its TASK and CORE (05 R134, R150, R151). -/
def progLists (p : ProgImage) : Bool :=
  (List.range 3).all (fun t =>
    let r := p.taskAt t
    decide (r.mask < 16 ∧ r.barriers ≤ 4096)
      && (List.range 4).all (fun c => !bit r.mask c ||
        (decide (nth 0 r.offs c + nth 0 r.lens c ≤ p.lists.length)
          && (p.coreList t c).filterMap (fun e => match e with | .barrier b => some b | .inst _ => none) == List.range r.barriers
          && (p.coreList t c).all (fun e => match e with
              | .barrier _ => true
              | .inst i => decide (i < p.insts.length) && (p.instAt i).task == t && (p.instAt i).core == c))))
    && ((p.taskAt 0).mask == 0) == (p.fastPeriod == 0) && ((p.taskAt 2).mask == 0) == (p.slowFactor == 0)
    && (let all := (List.range 3).flatMap (fun t => (p.places t).map (fun q => q.1))
        noDup all && all.length == p.insts.length)

/-- Identifiers are unique; variables and states lie in the area and overlap nothing; RETAIN_SIZE holds (05 R151, Table 5-10; 06 R166). -/
def progArea (p : ProgImage) : Bool :=
  let states := p.insts.map (fun i => (i.stateOfs, i.stateBytes))
  let vars := p.vars.map (fun v => (v.offset, v.bytes))
  noDup (p.insts.map (fun i => i.ident)) && noDup (p.vars.map (fun v => v.ident))
    && p.vars.all (fun v => decide (v.typ ≤ 4 ∧ v.owner ≤ 2 ∧ 1 ≤ v.length) && (v.typ == 4 || v.scale == 0)
        && v.offset % 4 == 0 && decide (v.offset + v.bytes ≤ p.varAreaSize))
    && p.insts.all (fun i => if i.block = 0 then i.stateOfs == 0 else i.stateOfs % 8 == 0 && decide (i.stateOfs + i.stateBytes ≤ p.varAreaSize))
    && disjoint (vars ++ states)
    && decide (sumOf ((p.vars.filter (fun v => v.retain)).map (fun v => 4 * v.length)) ≤ p.retainSize)
    && states.all (fun e => (slice p.initData e.1 e.2).all (fun b => b == 0))

/-- A TYPE word (06 Table 6-1) of a type that the block permits. -/
def typeWordOk (code : Nat) (w : Word) : Bool :=
  let x := w.toNat
  decide (x < 512) && (permittedTypes code).contains (x % 8) && (x % 8 == 4 || x / 8 == 0)

/-- A finite binary32 word. -/
def finite (w : Word) : Bool := binary32.isFinite w.toNat

/-- A finite binary32 word of at least 0. -/
def atLeast0 (w : Word) : Bool := finite w && fle 0 w

/-- A curve table at a byte offset of the curve data (06 R181): its pairs, or none where it breaks the rule. -/
def curveAt (curves : Bytes) (ofs : Nat) : Option (List (Word × Word)) :=
  let n := leAt curves ofs 4
  let ps := records curves (ofs + 4) 8 n (fun r => (word32At r 0, word32At r 4))
  if ofs % 4 = 0 ∧ 2 ≤ n ∧ n ≤ 64 ∧ ofs + 4 + 8 * n ≤ curves.length
      ∧ ps.all (fun q => finite q.1 && finite q.2) ∧ (ps.zip (ps.drop 1)).all (fun q => flt q.1.1 q.2.1) then some ps
  else none

/-- The number N of inputs read (06 R162, R172). -/
def countOk (w : Word) : Bool := decide (2 ≤ w.toNat ∧ w.toNat ≤ 8)

/-- A parameter that is 0 or 1. -/
def flagOk (w : Word) : Bool := decide (w.toNat ≤ 1)

/-- The parameters of an instance (06 Tables 6-6 to 6-12, R162, R179, R181, R184 to R186, R188; 05 Table 5-2; 18 R446). -/
def paramsOk (n : NetImage) (p : ProgImage) (i : Inst) : Bool :=
  let q := fun k => nth 0 i.params k
  let pointOk := decide ((q 1).toNat < (n.unitAt (q 0).toNat).pointCount) && decide ((q 0).toNat < n.units.length)
    && (n.pointAt (pointIdOf n i)).kind != 0
  match i.block with
  | 0x01 | 0x03 | 0x08 | 0x09 | 0x11 | 0x12 | 0x13 | 0x16 => countOk (q 0)
  | 0x0C => finite (q 0) && finite (q 1)
  | 0x10 => decide ((q 0).toNat ≤ 5) && ((nth 0 i.types 0).toNat % 8 != 0 || decide ((q 0).toNat ≤ 1))
  | 0x19 | 0x1A => decide ((q 0).toNat ≤ 31)
  | 0x20 | 0x21 | 0x22 => flagOk (q 0)
  | 0x29 => atLeast0 (q 0) && atLeast0 (q 1)
  | 0x30 => finite (q 0) && flt 0 (q 0) && atLeast0 (q 1) && atLeast0 (q 2) && atLeast0 (q 3) && finite (q 4)
      && finite (q 5) && flt (q 4) (q 5) && finite (q 6) && flagOk (q 7)
  | 0x31 => atLeast0 (q 0)
  | 0x32 => atLeast0 (q 0) && flagOk (q 1)
  | 0x33 => finite (q 0) && finite (q 1) && fle (q 0) (q 1)
  | 0x34 => (curveAt p.curves (q 0).toNat).isSome
  | 0x35 => (curveAt p.curves (q 0).toNat).isSome && atLeast0 (q 1) && finite (q 2) && finite (q 3) && flt (q 2) (q 3)
      && finite (q 4) && atLeast0 (q 5)
  | 0x36 => finite (q 0) && flt 0 (q 0) && flt (q 0) (fofInt 100) && flagOk (q 1)
  | 0x37 => flagOk (q 0)
  | 0x38 | 0x3A => pointOk && i.task != 2
  | 0x39 => pointOk && i.task == 1 && flagOk (q 2) && decide ((n.pointAt (pointIdOf n i)).kind = 2 ∨ (n.pointAt (pointIdOf n i)).kind = 3)
  | 0x3B => decide ((q 0).toNat < n.units.length) && i.task != 2
  | 0x3C => decide ((q 0).toNat ≤ 3 ∧ (q 1).toNat ≤ 2) && i.task == (if (q 1).toNat = 2 then 2 else 1)
  | 0x3D => decide ((q 0).toNat ≤ 3 ∧ (q 1).toNat ≤ 524287) && i.task != 0
  | 0x3E => decide (0x800 ≤ (q 0).toNat ∧ (q 0).toNat ≤ 0xFFF) && flagOk (q 1)
      && ((n.events[(q 0).toNat]?).map (fun e => e.mode != 0)).getD false
  | _ => true

/-- The number of inputs an instance reads (06 R162): for MUX, K and N values. -/
def inputsRead (i : Inst) : Nat :=
  match i.block with
  | 0x01 | 0x03 | 0x08 | 0x09 | 0x11 | 0x12 | 0x13 => (nth 0 i.params 0).toNat
  | 0x16 => 1 + (nth 0 i.params 0).toNat
  | _ => i.inputs.length

/-- An input reference and its type (05 Table 5-11, 06 R164). -/
def inputOk (n : NetImage) (p : ProgImage) (pl : List (Nat × Place)) (idx : Nat) (i : Inst) (ty : Option SigType) (w : Word) : Bool :=
  let x := w.toNat
  let src := x / 2 ^ 30
  let ix := x % 2 ^ 30
  if src = 0 then
    decide (ix < 2 ^ 18) && (match p.varAt ix with
      | none => false
      | some v => (v.owner == i.task || v.exported) && (ty.all (fun t => t == v.sigType)))
  else if src = 1 then
    decide (ix < p.args.length) && (ty != some tBool || decide ((nth 0 p.args ix).toNat ≤ 1))
  else if src = 2 then
    let j := ix % 2 ^ 17
    let o := fld ix 17 4
    let src := p.instAt j
    decide (ix < 2 ^ 21 ∧ j < p.insts.length) && src.task == i.task
      && (match (outputTypes src.block src.types (instPointType n src))[o]? with
          | none => false
          | some t => ty.all (fun u => u == t))
      && orderedPair pl j idx
  else false

/-- The element that an output binding names, none when unbound (06 Table 6-2). -/
def bindingElem (w : Word) : Option Nat := if w = 0xFFFFFFFF then none else some w.toNat

/-- An output binding (06 R163, R165). -/
def bindingOk (p : ProgImage) (i : Inst) (t : SigType) (w : Word) : Bool :=
  match bindingElem w with
  | none => true
  | some x => decide (x < 2 ^ 18) && (match p.varAt x with
      | none => false
      | some v => v.owner == i.task && v.sigType == t)

/-- The elements an instance reads as variables of its own task. -/
def ownReads (i : Inst) : List Nat :=
  (i.inputs.take (inputsRead i)).filterMap (fun w => if w.toNat / 2 ^ 30 = 0 then some (w.toNat % 2 ^ 30) else none)

/-- Two bindings to one element, or a binding and a read of it in the same task, only where R135 orders the two instances (06 R165). -/
def bindingsOrdered (p : ProgImage) (t : Nat) (pl : List (Nat × Place)) : Bool :=
  let ids := pl.map (fun q => q.1)
  let writes := ids.flatMap (fun i => (p.instAt i).outs.filterMap (fun w => (bindingElem w).map (fun x => (x, i))))
  let reads := ids.flatMap (fun i => (ownReads (p.instAt i)).map (fun x => (x, i)))
  decide (t < 3) && writes.all (fun a => (writes ++ reads).all (fun b =>
    a.1 != b.1 || a.2 == b.2 || orderedPair pl a.2 b.2 || orderedPair pl b.2 a.2))

/-- Every instance: its block, its arguments, its inputs and its bindings. -/
def progInsts (n : NetImage) (p : ProgImage) : Bool :=
  (List.range 3).all (fun t =>
    let pl := p.places t
    bindingsOrdered p t pl && pl.all (fun q =>
      let i := p.instAt q.1
      let pt := instPointType n i
      (blockShape i.block).isSome && i.types.all (typeWordOk i.block) && paramsOk n p i
        && ((inputTypes i.block i.types pt).zip (i.inputs.take (inputsRead i))).all (fun e => inputOk n p pl q.1 i e.1 e.2)
        && (i.inputs.drop (inputsRead i)).all (fun w => w == 0)
        && ((outputTypes i.block i.types pt).zip i.outs).all (fun e => bindingOk p i e.1 e.2)))

/-- No two PUTP name one point, no two SOLVE_REQ one slot, no two EVREC one SINTER code (06 R185, R186; 18 R446). -/
def progUnique (n : NetImage) (p : ProgImage) : Bool :=
  let of := fun b => p.insts.filter (fun i => i.block == b)
  noDup ((of 0x39).map (pointIdOf n))
    && noDup ((of 0x3C).map (fun i => (nth 0 i.params 0).toNat))
    && noDup (((of 0x3E).map (fun i => (nth 0 i.params 0).toNat)).filter (fun c =>
        ((n.events[c]?).map (fun e => e.mode == 3)).getD false))

/-- Every check of a cycle program image against the network image it runs on (05 R149 to R151). -/
def progOk (n : NetImage) (digest : Bytes) (bs : Bytes) : Bool :=
  progHeaderOk bs &&
    (let p := readProg bs
     p.netDigest == digest && decide (p.varAreaSize ≤ n.varReserve) && (p.fastPeriod == 0 || n.len % p.fastPeriod == 0)
       && progReservedOk bs && progArgsOk bs && progLists p && progArea p && progInsts n p && progUnique n p)

end Sys2Proof.Machine
end

