-- ==== Sys2Proof/Machine/SolveImage.lean ====
section
/-! DEFINITION. The solve program image: its tables as data, read from the image's bytes by 07_solver_engine Tables 7-2 and 7-3 and 08_solve_programs Tables 8-2 to 8-10, and the checks of 07 R193, R194, R199, R203, R206, R207 and 08 R217, R231, R233, R234, R236 to R238. -/
namespace Sys2Proof.Machine

/-- A block descriptor (07 Table 7-2). `rows` and `cols` are the counts. -/
structure BlockDesc where
  scale : Int
  shape : Nat
  bulk : Bool
  rows : Nat
  cols : Nat
  addr : Nat
deriving DecidableEq, Repr

/-- A task record (07 Table 7-3). -/
structure SolveTask where
  kind : Nat
  dir : Bool
  fuse : Bool
  nrhs : Nat
  vop : Nat
  target : Nat
  srcA : Nat
  srcB : Nat
  accPrev : Option Nat
  deps : List Nat
  cycFx : Nat
  cycFp : Nat
  footprint : Nat
deriving DecidableEq, Repr

/-- An operand table entry (08 Table 8-2). -/
structure OperandRec where
  point : Nat
  meas : Bool
  sigma : Word
deriving DecidableEq, Repr

/-- A row-owner entry (08 Table 8-8). -/
structure RowOwner where
  unit : Nat
  sign : Bool
  step : Nat
  kind : Nat
deriving DecidableEq, Repr

/-- A section: the list index of its first task and the number of tasks (08 R234). -/
structure Section where
  role : Nat
  first : Nat
  count : Nat
deriving DecidableEq, Repr

/-- A group entry (08 Table 8-10), with the section table of a scopable group. -/
structure GroupRec where
  unit : Nat
  scopable : Bool
  firstRow : Nat
  interior : Nat
  sep : Nat
  sections : List Section
  bcBlock : Nat
deriving DecidableEq, Repr

/-- A solve program image (08 Tables 8-5 and 8-6). -/
structure SolveImage where
  header : Bytes
  cls : Nat
  imageSize : Nat
  netDigest : Bytes
  programId : Nat
  version : Nat
  scopeRoot : Nat
  kktRows : Nat
  resultLen : Nat
  cFixed : Nat
  cSwitch : Nat
  cIter : Nat
  iterMax : Nat
  publishDelay : Nat
  refineMax : Nat
  tol : Int
  tauExp : Int
  deltaExp : Int
  epsExp : Int
  obsLimit : Nat
  stageAhead : Nat
  sigmaC : Word
  resultBlock : Nat
  convBlock : Nat
  certBlock : Nat
  certMax : Nat
  loopPipes : Nat
  loopFill : Nat
  calderaRows : Nat
  operandBlock : Nat
  factorNnz : Nat
  workMac : Nat
  sections : List Section
  blocks : List BlockDesc
  tasks : List SolveTask
  operands : List OperandRec
  owners : List RowOwner
  groups : List GroupRec
  initData : List Word
deriving DecidableEq, Repr

/-- The block index that means no block (07 R198). -/
def noBlock : Nat := 0xFFFFF

/-- Entry `i` of the data table (08 Table 8-5). -/
def solveSection (bs : Bytes) (i : Nat) : Nat × Nat := (leAt bs (0x190 + 8 * i) 4, leAt bs (0x194 + 8 * i) 4)

/-- 07 Table 7-2. -/
def readBlock (r : Bytes) : BlockDesc :=
  let x := leNat r
  { scale := toSigned 8 (fld x 0 8), shape := fld x 8 2, bulk := bit x 10, rows := fld x 16 16 + 1,
    cols := fld x 32 16 + 1, addr := fld x 64 40 }

/-- 07 Table 7-3; `deps` is the dependency section. -/
def readSolveTask (deps : Bytes) (r : Bytes) : SolveTask :=
  let x := leNat r
  { kind := fld x 0 4, dir := bit x 4, fuse := bit x 5, nrhs := fld x 6 2 + 1, vop := fld x 16 4,
    target := fld x 32 20, srcA := fld x 64 20, srcB := fld x 96 20,
    accPrev := if fld x 128 20 = noBlock then none else some (fld x 128 20),
    deps := records deps (4 * fld x 160 32) 4 (fld x 8 8) leNat,
    cycFx := fld x 192 16, cycFp := fld x 208 16, footprint := fld x 224 8 }

/-- 08 Table 8-2. -/
def readOperand (r : Bytes) : OperandRec :=
  let x := leNat r
  { point := fld x 0 18, meas := bit x 20, sigma := word32At r 4 }

/-- 08 Table 8-8. -/
def readOwner (r : Bytes) : RowOwner :=
  let x := leNat r
  { unit := fld x 0 14, sign := bit x 14, step := fld x 16 8, kind := fld x 24 4 }

/-- 08 R234: the entries of a section table that are used. -/
def readSections (bs : Bytes) (off : Nat) : List Section :=
  (records bs off 16 16 (fun r => ({ role := leAt r 0 1, first := leAt r 4 4, count := leAt r 8 4 } : Section))).filter (fun s => s.role != 0)

/-- 08 Table 8-10; `g` is the group section. -/
def readGroup (g : Bytes) (r : Bytes) : GroupRec :=
  let sc := bit (leAt r 2 2) 0
  { unit := leAt r 0 2, scopable := sc, firstRow := leAt r 4 4, interior := leAt r 8 4, sep := leAt r 0xC 4,
    sections := if sc then readSections g (leAt r 0x10 4) else [], bcBlock := leAt r 0x14 4 }

/-- The number of GROUP units in the scope of a program: the entries that open the group section (08 R238). -/
def scopeGroups (n : NetImage) (root : Nat) : List Nat :=
  (List.range n.units.length).filter (fun u => decide (root ≤ u ∧ u ≤ (n.unitAt root).subtreeEnd) && (n.unitAt u).typ == 8)

/-- The image's tables, for the network image it was compiled against. -/
def readSolve (n : NetImage) (bs : Bytes) : SolveImage :=
  let off := fun i => (solveSection bs i).1
  let size := fun i => (solveSection bs i).2
  let deps := slice bs (off 2) (size 2)
  let grp := slice bs (off 5) (size 5)
  let s8 := fun a => toSigned 8 (leAt bs a 1)
  { header := bs.take 512, cls := leAt bs 6 1, imageSize := leAt bs 0xC 4, netDigest := slice bs 0x10 32,
    programId := leAt bs 0x30 4, version := leAt bs 0x34 4, scopeRoot := leAt bs 0x38 4, kktRows := leAt bs 0x3C 4,
    factorNnz := leAt bs 0x40 4, resultLen := leAt bs 0x44 4, cFixed := leAt bs 0x4C 4, cSwitch := leAt bs 0x50 4,
    cIter := leAt bs 0x54 4, iterMax := leAt bs 0x58 2, publishDelay := leAt bs 0x5A 1, refineMax := leAt bs 0x5B 1,
    tol := s8 0x5C, tauExp := s8 0x5D, deltaExp := s8 0x5E, epsExp := s8 0x5F, obsLimit := leAt bs 0x60 2,
    stageAhead := leAt bs 0x62 2, sigmaC := word32At bs 0x64, resultBlock := leAt bs 0x68 4, convBlock := leAt bs 0x6C 4,
    certBlock := leAt bs 0x70 4, certMax := leAt bs 0x74 2, loopPipes := leAt bs 0x78 4, loopFill := leAt bs 0x7C 4,
    calderaRows := leAt bs 0x80 4, operandBlock := leAt bs 0x84 4, workMac := leAt bs 0x88 8,
    sections := readSections bs 0x90,
    blocks := records bs (off 0) 16 (size 0 / 16) readBlock,
    tasks := records bs (off 1) 32 (size 1 / 32) (readSolveTask deps),
    operands := records bs (off 3) 8 (leAt bs 0x48 4) readOperand,
    owners := records bs (off 4) 4 (leAt bs 0x3C 4) readOwner,
    groups := records grp 0 32 (scopeGroups n (leAt bs 0x38 4)).length (readGroup grp),
    initData := records bs (off 6) 4 (size 6 / 4) (fun r => word32At r 0) }

/-! Shapes of blocks. -/

/-- A block by index; a block of one element at address 0 where there is none. -/
def SolveImage.blockAt (p : SolveImage) (i : Nat) : BlockDesc :=
  nth { scale := 0, shape := 0, bulk := false, rows := 1, cols := 1, addr := 0 } p.blocks i

/-- A task by list index. -/
def SolveImage.taskAt (p : SolveImage) (i : Nat) : SolveTask :=
  nth { kind := 4, dir := false, fuse := false, nrhs := 1, vop := 0, target := 0, srcA := 0, srcB := noBlock, accPrev := none, deps := [], cycFx := 1, cycFp := 1, footprint := 1 } p.tasks i

/-- The elements of a block (07 R198): stored column by column, a lower triangle its lower part only, a diagonal its diagonal. -/
def BlockDesc.elements (b : BlockDesc) : Nat :=
  match b.shape with
  | 0 => b.rows * b.cols
  | 1 => sumOf ((List.range b.cols).map (fun j => b.rows - j))
  | _ => b.rows

/-- The place of element (i, j) among the stored elements; none for an element that the shape does not store. -/
def BlockDesc.index (b : BlockDesc) (i j : Nat) : Option Nat :=
  if i < b.rows then
    match b.shape with
    | 0 => if j < b.cols then some (j * b.rows + i) else none
    | 1 => if j < b.cols ∧ j ≤ i then some (sumOf ((List.range j).map (fun c => b.rows - c)) + (i - j)) else none
    | 2 => if i = j then some i else none
    | _ => if j = 0 then some i else none
  else none

/-- The section of a role in a section table. -/
def sectionOf (l : List Section) (role : Nat) : Section := (l.find? (fun s => s.role == role)).getD { role := role, first := 0, count := 0 }

/-- The list indices of a section's tasks. -/
def Section.indices (s : Section) : List Nat := (List.range s.count).map (fun i => s.first + i)

/-! Checks. -/

/-- The header's field rules (08 Tables 8-5 and 8-6) but for those that need another image. -/
def solveHeaderOk (bs : Bytes) : Bool :=
  let sz := leAt bs 0xC 4
  let dp := leAt bs 6 1 == 2
  let sec := solveSection bs
  let secs := (List.range 8).map sec
  let between := fun (lo hi x : Int) => decide (lo ≤ x ∧ x ≤ hi)
  let s8 := fun a => toSigned 8 (leAt bs a 1)
  decide (512 ≤ bs.length) && leAt bs 0 4 == 0x53504751 && leAt bs 4 2 == 2 && decide (leAt bs 6 1 ≤ 2)
    && leAt bs 7 1 == 0 && leAt bs 8 4 == 0x00030002 && sz == bs.length && decide (sz ≤ 16777216)
    && between 1 524288 (leAt bs 0x3C 4) && decide (leAt bs 0x40 4 ≤ 134217728) && between 1 524288 (leAt bs 0x44 4)
    && decide (leAt bs 0x48 4 ≤ 65536) && (if dp then decide (leAt bs 0x50 4 ≤ leAt bs 0x54 4) else leAt bs 0x50 4 == 0)
    && decide (1 ≤ leAt bs 0x54 4) && between 1 1000 (leAt bs 0x58 2)
    && (if dp then decide (1 ≤ leAt bs 0x5A 1) else leAt bs 0x5A 1 == 1) && between 1 15 (leAt bs 0x5B 1)
    && between (-30) (-1) (s8 0x5C) && between (-30) (-8) (s8 0x5D)
    && (if dp then between (-30) (-8) (s8 0x5E) else leAt bs 0x5E 1 == 0) && between (-30) (-4) (s8 0x5F)
    && (if leAt bs 6 1 = 0 then decide (leAt bs 0x60 2 ≤ 1000) else leAt bs 0x60 2 == 0)
    && between 16 512 (leAt bs 0x62 2)
    && (if dp then flt 0 (word32At bs 0x64) && flt (word32At bs 0x64) (fofInt 1) else leAt bs 0x64 4 == 0)
    && (if dp then decide (leAt bs 0x74 2 ≤ 256) else leAt bs 0x70 4 == noBlock && leAt bs 0x74 2 == 0)
    && leAt bs 0x76 2 == 0 && between 1 (leAt bs 0x3C 4) (leAt bs 0x80 4)
    && (leAt bs 0x48 4 != 0 || leAt bs 0x84 4 == noBlock) && leAt bs 0x1D0 16 == 0
    && secs.all (fun e => decide (e.1 + e.2 ≤ sz)) && disjoint secs && sec 7 == (0, 0)
    && (sec 0).2 % 16 == 0 && (sec 1).2 % 32 == 0 && (sec 2).2 % 4 == 0 && (sec 3).2 == 8 * leAt bs 0x48 4
    && (sec 4).2 == 4 * leAt bs 0x3C 4 && (sec 6).2 % 4 == 0
    && decide ((sec 0).2 / 16 ≤ 1048575 ∧ (sec 1).2 / 32 ≤ 1048575)

/-- A section table (08 R234, Table 8-7): the bytes between its fields are 0, every role at most once, the roles present that must be, sections inside the task list and apart from one another. -/
def sectionsOk (bs : Bytes) (off : Nat) (cls nTasks : Nat) : Bool :=
  let raw := records bs off 16 16 id
  let l := readSections bs off
  raw.all (fun r => leAt r 1 3 == 0 && leAt r 0xC 4 == 0 && (leAt r 0 1 != 0 || leAt r 4 8 == 0))
    && l.all (fun s => decide (s.role ≤ 9) && decide (s.first + s.count ≤ nTasks))
    && noDup (l.map (fun s => s.role))
    && [1, 2, 3, 4, 7, 8].all (fun r => l.any (fun s => s.role == r))
    && (l.any (fun s => s.role == 9)) == (cls == 2)
    && disjoint (l.map (fun s => (s.first, s.count)))

/-- A column-vector block of a length. -/
def SolveImage.isVector (p : SolveImage) (b len : Nat) : Bool :=
  decide (b < p.blocks.length) && (p.blockAt b).shape == 3 && (p.blockAt b).rows == len

/-- Block descriptors (07 Table 7-2): COLS 0 for a vector or a diagonal, ADDR a multiple of 64, FMT 0 in the image. -/
def blocksOk (bs : Bytes) : Bool :=
  let e := solveSection bs 0
  (records bs e.1 16 (e.2 / 16) (fun r =>
    let b := readBlock r
    !bit (leNat r) 11 && (decide (b.shape < 2) || b.cols == 1) && b.addr % 64 == 0)).all id

/-- The most products of one source pair in a sum of a task: of FACTOR the columns before, of TRSV the columns of L forward and its rows below backward, of the others the inner dimension (07 R193, Tables 7-4 and 7-5). -/
def SolveImage.innerDim (p : SolveImage) (t : SolveTask) : Nat :=
  let a := p.blockAt t.srcA
  match t.kind with
  | 0 => (p.blockAt t.target).cols - 1
  | 2 => if t.dir then a.rows - 1 else Nat.min a.cols ((p.blockAt t.target).rows - 1)
  | 4 => a.elements
  | _ => a.cols

/-- The exponents of the sums that a task combines with its target: FACTOR and TRSV sum products of L with an element at the target's scale, backward also with SRC_B (07 R194). -/
def SolveImage.sumExps (p : SolveImage) (t : SolveTask) : List Int :=
  let e := fun b => (p.blockAt b).scale
  match t.kind with
  | 0 => if (p.blockAt t.target).cols ≤ 1 then [] else [e t.srcA + e t.target]
  | 2 => (e t.srcA + e t.target) :: (if t.dir ∧ t.srcB ≠ noBlock then [e t.srcA + e t.srcB] else [])
  | 4 => if t.vop = 1 ∨ t.vop = 6 then [e t.srcA + e t.srcB] else []
  | _ => [e t.srcA + e t.srcB]

/-- A task record: reserved encodings, fields of other kinds 0, cycles, footprint, blocks named (07 Tables 7-3 to 7-5, R206), the limits of R193 and R194. -/
def solveTaskOk (p : SolveImage) (t : SolveTask) : Bool :=
  let nb := p.blocks.length
  let et := (p.blockAt t.target).scale
  decide (t.kind ≤ 4) && (t.kind == 2 || !t.dir) && (t.kind == 0 || !t.fuse)
    && ((t.kind == 0 && t.fuse) || t.kind == 2 || t.kind == 3 || t.nrhs == 1)
    && (t.kind == 4 || t.vop == 0) && decide (t.vop ≤ 7)
    && decide (t.target < nb ∧ (t.srcA < nb ∨ t.srcA = noBlock) ∧ (t.srcB < nb ∨ t.srcB = noBlock))
    && decide (1 ≤ t.cycFx ∧ t.cycFx ≤ 50000 ∧ 1 ≤ t.cycFp ∧ t.cycFp ≤ 50000 ∧ 1 ≤ t.footprint ∧ t.footprint ≤ 240)
    && decide (p.innerDim t ≤ 32768) && (p.sumExps t).all (fun ep => decide (0 ≤ et - ep ∧ et - ep ≤ 47))

/-- The chain that ends at task `i`: the tasks before it in the accumulation order, `n` at most. -/
def chainBack (p : SolveImage) (n i : Nat) : List Nat :=
  match n with
  | 0 => [i]
  | n + 1 => match (p.taskAt i).accPrev with
    | none => [i]
    | some j => if j < i then i :: chainBack p n j else [i]

/-- Within a section every task named in DEP or ACC_PREV has a lower list index; ACC_PREV names a writer of the same block; no two chains into one block overlap, among all the sections of a table (07 R199, R203). -/
def chainsOk (p : SolveImage) (table : List Section) : Bool :=
  let all := table.flatMap Section.indices
  all.all (fun i =>
    let t := p.taskAt i
    t.deps.all (fun d => decide (d < i))
      && (match t.accPrev with
          | none => true
          | some a => decide (a < i) && (p.taskAt a).target == t.target)
      && (let c := chainBack p i i
          let lo := c.getLast?.getD i
          all.all (fun j => decide (j ≤ lo ∨ i ≤ j) || (p.taskAt j).target != t.target || c.contains j)))

/-- The range of a group: its interior rows and its separator rows (08 R231). -/
def GroupRec.range (g : GroupRec) : Nat × Nat := (g.firstRow, g.interior + g.sep)

/-- A row lies in an extent. -/
def inExtent (e : Nat × Nat) (r : Nat) : Bool := decide (e.1 ≤ r ∧ r < e.1 + e.2)

/-- The FACTOR tasks of a section table with the first matrix row of each: they take the rows in list order, those of a group's table from the group's first row on (notes/assumptions/25). -/
def SolveImage.factorRows (p : SolveImage) (table : List Section) (scope : Nat) : List (Nat × Nat) :=
  let base := if scope = 0 then 0 else match p.groups.find? (fun g => g.unit == scope) with | some g => g.firstRow | none => 0
  (((sectionOf table 3).indices.filter (fun i => (p.taskAt i).kind == 0)).foldl (fun (acc : List (Nat × Nat) × Nat) i =>
    ((i, acc.2) :: acc.1, acc.2 + (p.blockAt (p.taskAt i).target).cols)) ([], base)).1.reverse

/-- No FACTOR task covers rows of two different ranges (08 R231). -/
def factorsInRanges (p : SolveImage) (table : List Section) (scope : Nat) : Bool :=
  (p.factorRows table scope).all (fun q =>
    let last := q.2 + (p.blockAt (p.taskAt q.1).target).cols - 1
    p.groups.all (fun g => inExtent g.range q.2 == inExtent g.range last))

/-- A unit is the INNER_UNIT of a port of a group. -/
def isInner (n : NetImage) (g u : Nat) : Bool :=
  let d := n.unitAt g
  (List.range d.portCount).any (fun i =>
    (nth { group := 0, index := 0, inner := 0, outer := 0, bpFirst := 0 } n.ports (fld d.tspec 0 13 + i)).inner == u)

/-- The separator rows of a group: rows of the INNER_UNITs of its ports and, where the group is not scopable, of pipes placed at it, which can close loops; a row of an INNER_UNIT that lies in no child's range is among them. The separator of SCOPE_ROOT is the caldera block (08 R231, R232, R238; notes/assumptions/119). -/
def separatorOk (n : NetImage) (p : SolveImage) (g : GroupRec) : Bool :=
  let sep := (g.firstRow + g.interior, g.sep)
  let rows := indexed p.owners
  let inner := fun (u : Nat) => isInner n g.unit u
  let loop := fun (u : Nat) => !g.scopable && (n.unitAt u).typ == 6 && (n.unitAt u).parent == g.unit
  let child := fun (r : Nat) => p.groups.any (fun h => h.unit != g.unit && (n.unitAt h.unit).parent == g.unit && inExtent h.range r)
  if g.unit = p.scopeRoot then !g.scopable || rows.all (fun q => !inExtent sep q.1 || inner q.2.unit)
  else
    rows.all (fun q => !inExtent sep q.1 || inner q.2.unit || loop q.2.unit)
      && rows.all (fun q => inExtent sep q.1 || !inner q.2.unit || child q.1)

/-- The group table against the unit tree and the row owners (08 R231, R237, R238). -/
def groupsOk (n : NetImage) (p : SolveImage) : Bool :=
  let rows := indexed p.owners
  (p.groups.map (fun g => g.unit)).all (fun u => (scopeGroups n p.scopeRoot).contains u)
    && noDup (p.groups.map (fun g => g.unit))
    && p.groups.all (fun g =>
      let d := n.unitAt g.unit
      decide (g.firstRow + g.interior + g.sep ≤ p.kktRows)
        && rows.all (fun q => inExtent g.range q.1 == decide (g.unit ≤ q.2.unit ∧ q.2.unit ≤ d.subtreeEnd))
        && (g.unit == p.scopeRoot || p.groups.all (fun h => h.unit != d.parent ||
              decide (h.firstRow ≤ g.firstRow ∧ g.firstRow + g.interior + g.sep ≤ h.firstRow + h.interior)))
        && p.groups.all (fun h => h.unit == g.unit || (n.unitAt h.unit).parent != d.parent || h.unit == p.scopeRoot || g.unit == p.scopeRoot
              || !overlaps g.range h.range)
        && separatorOk n p g
        && (if g.scopable then p.isVector g.bcBlock (p.blockAt g.bcBlock).rows && factorsInRanges p g.sections g.unit
            else g.bcBlock == noBlock))
    && p.groups.all (fun g => g.unit != p.scopeRoot || (g.firstRow == 0 && g.interior + g.sep == p.kktRows && g.sep == p.calderaRows))
    && factorsInRanges p p.sections 0

/-- The fields of a group entry that are 0: 0x02 but its bit 0, 0x10 without SCOPABLE, and the reserved bytes (08 Table 8-10). -/
def groupReservedOk (r : Bytes) : Bool :=
  decide (leAt r 2 2 ≤ 1) && (bit (leAt r 2 2) 0 || leAt r 0x10 4 == 0) && leAt r 0x18 8 == 0

/-- Row owners: reserved kinds, units in the scope, STEP and SIGN by class (08 R236, R238). -/
def ownersOk (n : NetImage) (p : SolveImage) : Bool :=
  p.owners.all (fun o =>
    decide (o.kind ≤ 7) && decide (p.scopeRoot ≤ o.unit ∧ o.unit ≤ (n.unitAt p.scopeRoot).subtreeEnd)
      && (if p.cls = 2 then o.sign == (o.kind != 0) else !o.sign && o.step == 255))

/-- Operands (08 R219, Table 8-2). -/
def operandsOk (n : NetImage) (p : SolveImage) : Bool :=
  p.operands.all (fun o => (n.pointAt o.point).kind != 0
    && (if o.meas then p.cls == 0 && binary32.isFinite o.sigma.toNat && flt 0 o.sigma else o.sigma == 0))

/-- Every check of a solve program image for a slot, against the network image it runs on (08 R233, R238; 07 R193, R194, R199, R203, R206). -/
def solveOk (n : NetImage) (digest : Bytes) (slot : Nat) (bs : Bytes) : Bool :=
  solveHeaderOk bs &&
    (let p := readSolve n bs
     let g := solveSection bs 5
     p.netDigest == digest && (n.unitAt p.scopeRoot).typ == 8
       && (indexed n.units).all (fun q => bit q.2.scopeMask slot == decide (p.scopeRoot ≤ q.1 ∧ q.1 ≤ (n.unitAt p.scopeRoot).subtreeEnd))
       && decide (32 * (scopeGroups n p.scopeRoot).length ≤ g.2)
       && sectionsOk bs 0x90 p.cls p.tasks.length
       && (indexed p.groups).all (fun q => !q.2.scopable ||
            (let off := leAt bs (g.1 + 32 * q.1 + 0x10) 4
             decide (off + 256 ≤ g.2) && sectionsOk bs (g.1 + off) p.cls p.tasks.length && chainsOk p q.2.sections))
       && (records bs g.1 32 p.groups.length groupReservedOk).all id
       && blocksOk bs && p.tasks.all (solveTaskOk p) && chainsOk p p.sections
       && p.isVector p.resultBlock p.resultLen && p.isVector p.convBlock 8
       && (p.cls != 2 || p.isVector p.certBlock p.kktRows)
       && (p.operands.length == 0 || p.isVector p.operandBlock p.operands.length)
       && groupsOk n p && ownersOk n p && operandsOk n p)

/-! Budgets (08 R241 to R246), all in exact arithmetic: CB in CLK_S cycles, 1.5 × CB1 in half µs × 1,000. -/

/-- The compiled bound of `b` iterations (08 R241). -/
def SolveImage.bound (p : SolveImage) (b : Nat) : Nat := p.cFixed + p.cSwitch + b * p.cIter

/-- CB1 in CLK_S cycles: the bounds of the resident priority-1 programs together (08 R242). -/
def boundOne (ps : List SolveImage) : Nat := sumOf ((ps.filter (fun p => p.cls != 2)).map (fun p => p.bound p.iterMax))

/-- 1.5 × CB1 fits: 1.5 × CB1 ≤ L − 1,250 µs, with CB1 in cycles of 1 ns (08 R242). -/
def boundOneFits (len : Nat) (ps : List SolveImage) : Bool := decide (3 * boundOne ps + 2000 * 1250 ≤ 2000 * len)

/-- 2,000 × D, with D = L − 1,250 µs − 1.5 × CB1 (08 R244). -/
def twoThousandD (len : Nat) (ps : List SolveImage) : Nat := 2000 * len - 2000 * 1250 - 3 * boundOne ps

/-- A DP budget of `b` fits: CB × L / D ≤ P × L − 1,250 µs (08 R244). -/
def dpFits (len : Nat) (ps : List SolveImage) (p : SolveImage) (b : Nat) : Bool :=
  decide (2 * p.bound b * len ≤ (p.publishDelay * len - 1250) * twoThousandD len ps ∧ 0 < twoThousandD len ps)

/-- The largest budget not above `b` that fits, 0 when none does. -/
def dpBudget (len : Nat) (ps : List SolveImage) (p : SolveImage) (b : Nat) : Nat :=
  match b with
  | 0 => 0
  | b + 1 => if dpFits len ps p (b + 1) then b + 1 else dpBudget len ps p b

/-- The budget of a resident program (08 R242, R244). -/
def budgetOf (len : Nat) (ps : List SolveImage) (p : SolveImage) : Nat :=
  if p.cls = 2 then dpBudget len ps p p.iterMax else p.iterMax

/-- The backstop of a solve, in µs from its binding boundary, rounded up to a whole µs (08 R243, R245). -/
def backstopOf (len : Nat) (ps : List SolveImage) (p : SolveImage) : Nat :=
  if p.cls = 2 then
    let d := twoThousandD len ps
    let wall := if d = 0 then 0 else (3 * p.bound (budgetOf len ps p) * len + d - 1) / d
    min (250 + wall) (p.publishDelay * len - 500)
  else 250 + (3 * boundOne ps + 1999) / 2000

/-- The resident programs keep to the time they share (08 R242, R244). -/
def budgetsFit (len : Nat) (ps : List SolveImage) : Bool :=
  boundOneFits len ps && ps.all (fun p => p.cls != 2 || decide (1 ≤ budgetOf len ps p))

end Sys2Proof.Machine
end

