-- ==== Sys2Proof/Machine/State.lean ====
section
/-! DEFINITION. The state of the block: everything the spec gives the module, chapter by chapter, as plain data, and the queue of the commands that wait. INVENTORY.md lists every field with its rule and its value at reset. -/
namespace Sys2Proof.Machine

/-- No operation and no event of this module stops the model with a fault: a fault of the module is an effect on its state (09 R274 to R280). Nobody raises this one; a stop would be safe. -/
inductive Fault where
  | unreachable
deriving DecidableEq, Repr

/-- A command without a meaning. -/
inductive Refusal where
  /-- Raised by an arm of exec whose command has no meaning yet; safe, since nothing then happens. -/
  | notModelled (mnemonic : String)
deriving DecidableEq, Repr


/-- Factory data (00 R5, 12 Table 12-7). -/
structure Part where
  m40 : Bool
  serial : Nat
deriving DecidableEq, Repr

/-- The clock unit: NT in µs, the clocks, T0, the index of the matrix cycle and of the basic cycle (01 R23 to R26, 04 R109). `t0` is the NT of boundary `base`: boundary 0, until a network image of another cycle length comes in (notes/assumptions/48). -/
structure Clk where
  nt : Nat
  running : Bool
  refOk : Bool
  pllOk : Bool
  t0 : Option Nat
  base : Nat
  k : Nat
  begun : Bool
  bc : Nat
deriving DecidableEq, Repr

/-- The hold sequence in progress (19 Table 19-6): its NT of start, and whether metering goes into the tail. -/
structure Hold where
  since : Nat
  metering : Bool
deriving DecidableEq, Repr

/-- Supplies, strap and reset lands, power state and start-up (19 R460 to R475); `leaving` while the store of R469 runs after VIN fail outside RUN. -/
structure Pwr where
  pstate : Nat
  ready : Bool
  vin : Bool
  vbat : Bool
  vioH : Bool
  resetN : Bool
  testmode : Bool
  hostsel : Bool
  linkSpi : Bool
  vhold : Nat
  recalling : Bool
  startDone : Bool
  condSince : Option Nat
  sysResetAt : Option Nat
  hold : Option Hold
  leaving : Bool
  watchStart : Option Nat
  toState : Option (Nat × Nat)
  extest : Bool
  batCheckAt : Nat
  slotCheckAt : Nat
deriving DecidableEq, Repr

/-- The network image in force (02 R79 to R86). -/
structure Net where
  image : Option NetImage
  bytes : Bytes
  digest : Bytes
deriving DecidableEq, Repr

/-- The run-time fields of a unit (02 Table 2-2, 04 R127). -/
structure UnitRun where
  oosOwn : Bool
  oosInh : Bool
  svcSince : Nat
  station : Nat
  miss : Nat
  good : Nat
deriving DecidableEq, Repr

/-- A request of UNIT_SERVICE that waits for its boundary (02 R73). -/
structure UnitReq where
  unit : Nat
  out : Bool
  mb : Nat
deriving DecidableEq, Repr

/-- The units: their run-time fields, the same as they stood at the last two boundaries (01 Table 1-8, 05 R144), and the requests that wait. -/
structure Units where
  run : NMap UnitRun
  atBoundary : NMap UnitRun
  requests : List UnitReq
deriving DecidableEq, Repr

/-- A point-image entry (01 Table 1-3). -/
structure Entry where
  value : Word
  quality : Nat
  age : Nat
deriving DecidableEq, Repr

/-- The entry of 02 Table 2-14 without its rows 1 and 2, and whether the point has ever held a good value (02 R66). -/
structure Track where
  entry : Entry
  everGood : Bool
deriving DecidableEq, Repr

/-- A force or a release that waits for its boundary (02 R69); a release has no value. -/
structure ForceReq where
  point : Nat
  value : Option Word
deriving DecidableEq, Repr

/-- The point images, the tracked entries and the forces (01 R30, 02 R66, R69). -/
structure Points where
  input : NMap Entry
  output : NMap Entry
  working : NMap Entry
  track : NMap Track
  forces : NMap Word
  forceReq : List ForceReq
deriving DecidableEq, Repr

/-- A receive buffer (03 Table 3-6). -/
structure Buf where
  ident : Nat
  ide : Bool
  fdf : Bool
  brs : Bool
  dlc : Nat
  esi : Bool
  valid : Bool
  repl : Bool
  e2e : Nat
  window : Nat
  fvnt : Nat
  data : Bytes
deriving DecidableEq, Repr

/-- What the module has on the wire of a line. -/
inductive TxRole where
  | reference
  | window (w : Nat)
  | retry (w : Nat)
  | injection (entry : Nat)
deriving DecidableEq, Repr

/-- The module's frame on the wire: role, payload, NT of its start, its identifier, format, bit rate switch, length code and ESI as sent, and whether it is the frame of the hardware safe state (03 R87, 04 R113, R115, 09 R278). -/
structure OnBus where
  role : TxRole
  data : Bytes
  start : Nat
  ident : Nat
  ide : Bool
  fdf : Bool
  brs : Bool
  dlc : Nat
  esi : Bool
  safe : Bool
deriving DecidableEq, Repr

/-- A TX_EXCL frame that is built: one that waits for the bus in its window, or a retry that is pending (04 R113, R125). -/
structure Retry where
  window : Nat
  data : Bytes
deriving DecidableEq, Repr

/-- A queued injection entry with the attempts made (09 R267). -/
structure InjWait where
  entry : Nat
  tries : Nat
deriving DecidableEq, Repr

/-- A station line (03, 04). `boffs` are the bus-offs of the recovery window, each as the number of boundaries since it (R100). -/
structure Line where
  state : Nat
  lphase : Bool
  lerr : Nat
  fcause : Nat
  fhold : Nat
  boffs : List Nat
  tec : Nat
  rcv : Nat
  abt : Nat
  dbt : Nat
  ssp : Nat
  fmt : Nat
  rxok : Nat
  txok : Nat
  rxerr : Nat
  txerr : Nat
  drop : Nat
  disc : Nat
  boff : Nat
  fences : Nat
  domto : Bool
  therm : Bool
  gsup : Bool
  busdom : Bool
  thermNow : Bool
  gsupNow : Bool
  domNow : Bool
  align : Int
  lastnt : Nat
  joined : Bool
  cur : NMap Buf
  prev : NMap Buf
  delivered : NMap Nat
  alive : NMap Nat
  e2eRef : NMap Nat
  lastGood : NMap Bool
  onBus : Option OnBus
  refDue : Option Nat
  txWait : Option Retry
  retries : List Retry
  inj : List InjWait
  safeSent : Bool
deriving DecidableEq, Repr

/-- A request of LN_SERVICE that waits for its boundary (03 Table 3-9). -/
structure LineReq where
  line : Nat
  online : Bool
  mb : Nat
deriving DecidableEq, Repr

/-- The raw buffer window (03 Table 3-7). `curCycle` and `prevCycle` are the matrix-cycle counts of the banks of every line (LBW_CYCLE). -/
structure Lbw where
  sel : Word
  watch : Nat
  ndat : Bool
  curCycle : Nat
  prevCycle : Nat
deriving DecidableEq, Repr

/-- A program slot: its image and its variable area, one word at each word offset (05 R149 to R152). -/
structure ProgSlot where
  img : Option ProgImage
  bytes : Bytes
  area : NMap Word
deriving DecidableEq, Repr

/-- A result of a solve (08 R250, R252): the header's values, the certificate, and the vector: an element that has never been published is absent. `fresh` are the elements that the solve itself gave: none of them, or a range, or all. -/
structure Result where
  status : Nat
  cls : Nat
  iters : Nat
  seq : Nat
  pub : Nat
  budget : Nat
  scope : Nat
  conv : List Word
  notGood : Nat
  certs : Bytes
  certCount : Nat
  report : Bytes
  len : Nat
  vector : List (Option Word)
  fresh : Option (Nat × Nat)
deriving DecidableEq, Repr

/-- The images and unit states that an execution still reads after its cycle has ended (05 Table 5-2). -/
structure View where
  input : NMap Entry
  output : NMap Entry
  units : NMap UnitRun
deriving DecidableEq, Repr

/-- An execution of a task in progress (05 R132 to R145): task start NT, matrix cycle of its release, its deadline and the NT of its release, DT, position in each core's list, snapshot of the published copies, DI set, releases skipped, deadline missed, the RTC tick count latched at the boundary of its release, the results published then, and the images it keeps reading. -/
structure Exec where
  start : Nat
  cycle : Nat
  release : Nat
  deadline : Nat
  dt : Nat
  pos : List Nat
  snap : NMap Word
  di : Nat
  skipped : Nat
  missed : Bool
  tick : Nat
  valid : Bool
  beyond : Bool
  pubs : List (Option Result)
  view : Option View
deriving DecidableEq, Repr

/-- Statistics of a task (05 Table 5-4, R143). -/
structure TaskStat where
  started : Nat
  overruns : Nat
  hist : List Bool
  last : Nat
  max : Nat
  slack : Nat
deriving DecidableEq, Repr

/-- What is kept of a task: its execution in progress, the start NT of its previous execution and whether that completed, whether it was stopped and has not completed since, whether the outputs of a late execution are still to be exchanged or published, its release instants in this cycle so far (05 R138, R140, R142, R145, 09 R276). -/
structure TaskRun where
  exec : Option Exec
  prevStart : Option Nat
  prevOk : Bool
  stopped : Bool
  late : Bool
  nextRel : Nat
  stat : TaskStat
deriving DecidableEq, Repr

/-- Idle CLK_P cycles of a core (05 R147). -/
structure Idle where
  running : Nat
  last : Nat
  min : Nat
deriving DecidableEq, Repr

/-- A swap that is pending (05 R155 to R160). -/
structure Swap where
  mb : Nat
  deferrals : Nat
  firstCycle : Nat
  started : Bool
deriving DecidableEq, Repr

/-- What is kept of an instance beside its state: the start NT of its last execution, the same as a swap carried it, and the last TRIG of an EVREC (05 R140, R156, 06 R188; notes/assumptions/27). -/
structure InstRun where
  carried : Option Nat
  last : Nat
  trig : Bool
deriving DecidableEq, Repr

/-- The cycle engine (05). -/
structure Ce where
  slotA : ProgSlot
  slotB : ProgSlot
  active : Nat
  fast : TaskRun
  network : TaskRun
  slow : TaskRun
  inst : NMap InstRun
  idle : List Idle
  record : Bytes
  swap : Option Swap
  pubNt : Option Nat
  latchTick : Nat
  latchValid : Bool
  latchBeyond : Bool
  poison : List (Nat × Nat)
  exc : Nat
  excNext : Nat
  areaWas : NMap Word
deriving DecidableEq, Repr

/-- The arithmetic report of a solve while it is formed (07 Table 7-8). -/
structure Report where
  fxPasses : Nat
  fpPasses : Nat
  guardPasses : Nat
  lowest : Option Nat
  sats : Nat
  pivots : Nat
  refSteps : Nat
  notConv : Nat
  flags : Nat
deriving DecidableEq, Repr

/-- The refinement of one right-hand side (07 R214): still refining, converged, steps made, and maxabs of r at the last accepted x. -/
structure Refine where
  going : Bool
  converged : Bool
  steps : Nat
  last : Nat
deriving DecidableEq, Repr

/-- A solve that is bound (07 R199 to R215, 08 R218 to R251). `role` is the section being run (08 Table 8-7), `admitted` the number of its tasks admitted, `xs` and `bs` the blocks x and r as refinement keeps them, `iterMem` the blocks at the last iteration boundary, `verdict` the status decided there, `status` the status with which the solve has ended. -/
structure Solve where
  cycle : Nat
  scope : Nat
  role : Nat
  iters : Nat
  fp : Bool
  stay : Bool
  guard : Bool
  numeric : Bool
  poison : Bool
  low : Option Nat
  admitted : Nat
  retired : List Nat
  refine : List Refine
  xs : NMap Word
  bs : NMap Word
  conv : List Word
  iterMem : NMap Word
  iterFmt : List Nat
  notConv : Bool
  verdict : Option Nat
  status : Option Nat
  budget : Nat
  backstop : Nat
  pubCycle : Nat
  notGood : Nat
  report : Report
deriving DecidableEq, Repr

/-- The snapshot of the operands of a slot (08 R218, R221). -/
structure Snap where
  cycle : Nat
  ents : NMap Entry
  oos : List Nat
deriving DecidableEq, Repr

/-- A resident solve slot (08 R217, 07 R198): program, block contents by home and element address, blocks that hold binary32, contents and blocks of the last iterate published GOOD, operand snapshots (newest first), the solve bound, the result held, result published. -/
structure SolveSlot where
  img : Option SolveImage
  mem : NMap Word
  fmt : List Nat
  prior : NMap Word
  priorFmt : List Nat
  snaps : List Snap
  solve : Option Solve
  held : Option Result
  heldMem : Option (NMap Word × List Nat)
  pub : Option Result
deriving DecidableEq, Repr

/-- A task context of a tile (07 R204): slot, list index, binary32, source elements as loaded with their formats, NT of dispatch, computed. -/
structure TileCtx where
  slot : Nat
  task : Nat
  fp : Bool
  srcA : List Word
  srcB : List Word
  fmtA : Bool
  fmtB : Bool
  since : Nat
  done : Bool
deriving DecidableEq, Repr

/-- A staging slot in use: the solve slot and the block that it holds, and whether the block has been written and is still to be copied back to bulk memory (07 R207). -/
structure StageSlot where
  slot : Nat
  block : Nat
  dirty : Bool
deriving DecidableEq, Repr

/-- A load or unload of a solve slot that waits for its boundary (13 R370, R371). -/
structure SolveReq where
  slot : Nat
  bytes : Option Bytes
  mb : Nat
  persist : Bool
deriving DecidableEq, Repr

/-- The solver engine (07, 08). -/
structure Sv where
  slots : List SolveSlot
  order : List Nat
  tiles : List (List (Option TileCtx))
  staged : List StageSlot
  busy : List Nat
  winMax : Nat
  moved : Nat
  singleBit : Nat
  fpPasses : Nat
  record : Bytes
  reqs : List SolveReq
  poison : List (Nat × Nat)
deriving DecidableEq, Repr

/-- An event that waits in the vent pipeline (09 R263): a valid data frame, a remote frame, which no rule matches (R261), or a change of the selected DI levels. -/
inductive VentEv where
  | frame (line ident : Nat) (ide fdf : Bool) (e2e : Nat) (data : Bytes) (nt : Nat)
  | remote (line nt : Nat)
  | di (rawWas filtWas raw filt nt : Nat)
deriving DecidableEq, Repr

/-- The vent path and the local I/O (09 R259 to R273). `active` has bit r for rule r, `fs` bit n for fail-safe set n. -/
structure Vent where
  active : Nat
  events : Nat
  acts : Nat
  inj : Nat
  injDrop : Nat
  first : Option Nat
  firstNt : Nat
  fs : Nat
  queue : List VentEv
  diRaw : Nat
  diFilt : Nat
  diSince : List Nat
  pcnt : List Nat
  pcntCut : List Nat
  doBase : Nat
deriving DecidableEq, Repr

/-- A raised fault: its code, class and payload words, the NT and matrix-cycle count of its cause, and whether a replayed cycle produced it. -/
structure FaultItem where
  code : Nat
  cls : Nat
  words : List Word
  source : Nat
  nt : Nat
  mcc : Nat
  replay : Bool
deriving DecidableEq, Repr

/-- Fault handling (09 R274 to R280). `entryStep` is the last step of Table 9-8 made while `entry` holds the NT of the SAFE entry; `hwNew` while the record of the last hardware safe state is still to be written at a start (R277); `eccCentral` and `eccBulk` count the single-bit errors corrected in the central store and the bulk memory (01 R28, R29). -/
structure Ft where
  stack : List FaultItem
  queue : List FaultItem
  ovf : Nat
  ovfLatch : Option Nat
  pend : Nat
  cnt : List Nat
  highest : Nat
  lastCode : Nat
  lastCls : Nat
  lastNt : Nat
  entry : Option Nat
  entryStep : Nat
  safe : Bool
  hwsafe : Bool
  exitRefused : Bool
  safeCause : Nat
  safeExit : Bool
  hwCause : Nat
  hwNew : Bool
  beat : Option Nat
  eccCentral : Nat
  eccBulk : Nat
deriving DecidableEq, Repr

/-- A calibration entry (10 R308). -/
structure CalEntry where
  gain : Word
  phase : Nat
deriving DecidableEq, Repr

/-- The frequency lock of a voltage set (10 R289): `quiet` since when no phase is at or above ULOCK, `since` the NT at which the last cycle ended, `lastP1` by point P1, Q1 and apparent power of that cycle. -/
structure Lock where
  locked : Bool
  inRange : Nat
  outRange : Nat
  quiet : Option Nat
  since : Nat
  lastP1 : NMap (Nat × Nat × Nat)
deriving DecidableEq, Repr

/-- The states of the three filters of a channel (10 R287, steps 1 to 3). -/
structure Chain where
  highPass : Nat
  integrator : Nat
  delay : Nat
deriving DecidableEq, Repr

/-- A run of MTR_CAL_MEASURE: mailbox, point, seconds left, the quantities of each second so far (10 Table 10-11). -/
structure Measure where
  mb : Nat
  point : Nat
  left : Nat
  seconds : List (List Word)
deriving DecidableEq, Repr

/-- A signed reading on its way (10 R311, 11 R330): waiting for its tick end or step, then for the counter. -/
structure Reading where
  mb : Nat
  heat : Bool
  object : Nat
  taken : Option Bytes
deriving DecidableEq, Repr

/-- The metering DSP (10). Lists of numbers are by channel, or by point and phase as `4 × point + phase` with the three phases together in place 3; `tick…` sums the tick in progress, `sec…` the second in progress, `rms` and `energy` are those of the last tick. `watchNew` while the records of a watch are still to be copied at a start (R314). Registers are counts of 2^−32 µWh or µvarh, so that the low 32 bits are the residue. -/
structure Mt where
  calStored : NMap CalEntry
  calValid : Bool
  calWorking : NMap CalEntry
  regs : NMap Nat
  tail : NMap Nat
  view : NMap Word
  viewNt : Nat
  frozen : Bool
  snapReq : Bool
  sec : NMap Word
  clip : List Nat
  clipNow : List Nat
  locks : List Lock
  chain : NMap Chain
  hist : List (List Nat)
  sLast : List Nat
  poisonNext : List Nat
  tickN : Nat
  tickSq : List Nat
  tickUI : List Nat
  closeNt : Nat
  rms : List Nat
  energy : List Nat
  secN : Nat
  secSq : List Nat
  secUI : List Nat
  secNt : Nat
  periods : List (Nat × Nat)
  cycles : List (Nat × Nat × List Nat)
  volts : NMap (List Nat)
  pending : List (Nat × Nat × Nat)
  pmax : NMap Nat
  unmet : NMap Nat
  unmetUs : NMap Nat
  unmetOn : List Nat
  status : NMap Nat
  poison : NMap Nat
  holdId : Nat
  tailLostCount : Nat
  tailLost : Bool
  latchLost : Bool
  lossEst : NMap Nat
  lossMax : NMap Nat
  saveNt : Nat
  saveDue : Bool
  calMask : Nat
  measures : List Measure
  readings : List Reading
  reads : List (Nat × Bool × Nat)
  tailing : Bool
  tailStart : Nat
  tailUs : Nat
  newest : Option Bytes
  newestHeat : Option Bytes
  watchRing : List Bytes
  watchTotals : NMap Nat
  watchStart : Nat
  watchEnd : Nat
  watchOver : Nat
  watchCfg : Word
  watchThr : Word
  watchScale : NMap (Nat × Word × Word)
  watchNew : Bool
  tickNt : Nat
  regsWas : NMap Nat
deriving DecidableEq, Repr

/-- A heat channel (11). Registers as in `Mt`. -/
structure Heat where
  heat : Nat
  cold : Nat
  vol : Nat
  volErr : Nat
  errCyc : Nat
  base : Nat
  baseSet : Bool
  restored : Option Nat
  lastPulse : Nat
  avg : List (Nat × Nat × Nat)
  flags : Nat
  cyc : Nat
  kLast : Word
  latchLost : Bool
  lossEst : Nat
  power : Word
deriving DecidableEq, Repr

/-- The global registers (12 Table 12-7). `irqW1c` holds the W1C bits of GLB_IRQ_STAT in their places. -/
structure Glb where
  ntHi : Nat
  irqW1c : Nat
  irqEn : Nat
  irqMap : Nat
  cpl : List (Nat × Nat)
  errPw : Nat
  errMb : Nat
  errSpi : Nat
  errLink : Nat
  scratch : Word
deriving DecidableEq, Repr

/-- The PCI Express endpoint (12 R334 to R336): writable bytes of the configuration space by offset, link up, D3hot; `slow` is a link that runs at 2.5 GT/s. -/
structure Pcie where
  up : Bool
  d3 : Bool
  cfg : NMap Byte
  msiPending : Nat
  trainFrom : Nat
  slow : Bool
deriving DecidableEq, Repr

/-- The model's own record of what left the module (12 R337, R339, R345, R358; 20 R489), and of the vectors whose message is owed. -/
structure Link where
  rdata : List Word
  refused : Bool
  msi : List (Nat × Nat)
  msiDue : Nat
  msiWas : Nat
  dmaOut : Bytes
  dmaTo : List (Nat × Nat)
  dmaFrom : List (Nat × Nat)
  jtag : Bytes
deriving DecidableEq, Repr

/-- A mailbox state (12 Table 12-12). -/
inductive MbState where
  | idle
  | posted
  | exec
  | accepted
  | done
deriving DecidableEq, Repr

/-- The outcome of a command, before it enters DONE. `body` is a response that a bulk transfer moves. -/
structure Reply where
  status : Nat
  res0 : Nat
  res1 : Nat
  res2 : Nat
  res3 : Nat
  page : Bytes
  body : Option Bytes
deriving DecidableEq, Repr

/-- A mailbox (12 Table 12-11): the request fields, the response fields, the outcome that a long command waits to complete with, and the NT from which its transfer waits. -/
structure Mailbox where
  cmd : Word
  reqLen : Word
  arg0 : Word
  arg1 : Word
  arg2 : Word
  arg3 : Word
  dmaLo : Word
  dmaHi : Word
  dmaLen : Word
  dmaCtl : Word
  state : MbState
  dmaErr : Nat
  status : Nat
  rtag : Word
  rspLen : Nat
  res0 : Nat
  res1 : Nat
  res2 : Nat
  res3 : Nat
  dmaDone : Nat
  dmaNeed : Nat
  time : Nat
  page : Memory
  bellNt : Nat
  reply : Option Reply
  dmaWait : Bool
  dmaSince : Nat
deriving DecidableEq, Repr

/-- The mailboxes, the doorbells in their order, and the mailboxes in the order in which they were last taken (12 R347 to R355). -/
structure Mb where
  boxes : List Mailbox
  bells : List Nat
  order : List Nat
deriving DecidableEq, Repr

/-- A partial upload (13 R366). -/
structure Upload where
  kind : Nat
  slot : Nat
  total : Nat
  bytes : Bytes
deriving DecidableEq, Repr

/-- A NETWORK load that waits for its boundary (13 R370): the plain network, cycle and solve images. -/
structure NetLoad where
  network : Bytes
  cycle : Bytes
  solves : List (Option Bytes)
  mb : Nat
  persist : Bool
deriving DecidableEq, Repr

/-- An image that a load takes in when its instant comes: a CYCLE or CONFIG image (13 R370). `slot` is the flash slot to write, if any; `staged` is the staged image that a refusal puts back. -/
structure HeldLoad where
  bytes : Bytes
  staged : Bytes
  slot : Option Nat
  mb : Nat
deriving DecidableEq, Repr

/-- Images: staged ones and flash contents by place, partial uploads, the running firmware slot and the one that runs after the next reset, loads that wait, and the firmware that FW_STAGE is writing (13 R366 to R371, 15 R409). Places: 4 × kind + slot. -/
structure Im where
  staged : NMap Bytes
  flash : NMap Bytes
  uploads : List Upload
  fwSlot : Nat
  fwNext : Nat
  netLoad : Option NetLoad
  cycLoad : List HeldLoad
  cfgLoad : Option HeldLoad
  cfgCommit : Option Nat
  fwHeld : Option Bytes
deriving DecidableEq, Repr

/-- A configuration image in force (15 R409 to R411); slot 2 stands for an image of IMG_LOAD that no flash slot holds. -/
structure Conf where
  slot : Nat
  seq : Nat
  entries : NMap Word
  header : Bytes
deriving DecidableEq, Repr

/-- Firmware parameters: the runtime layer, CFG_DISCARD waiting for its boundary, the configuration image in force, and the values metering and heat use until their instant of change (15 R411, 13 R368, 10 R315). -/
structure Pa where
  runtime : NMap Word
  discard : List Nat
  conf : Option Conf
  meter : NMap Word
  heat : NMap Word
  meterNew : Bool
deriving DecidableEq, Repr

/-- A change of the tick count that waits for the next tick edge (14 R382). -/
structure TimeChange where
  adjust : Bool
  value : Int
  mb : Nat
deriving DecidableEq, Repr

/-- The shadows of the RTC block while it is frozen (14 R379): the eight registers and the NT of the freeze. -/
structure Shadow where
  regs : List Word
  nt : Nat
deriving DecidableEq, Repr

/-- The RTC domain (14 Tables 14-1 and 14-2). `acc` is the part of a tick run, in 10^−14; `told` holds the events that wait for the recorder, by code. -/
structure Rtc where
  tick : Nat
  acc : Nat
  trim : Nat
  armed : Bool
  alm : Bool
  almLate : Bool
  pwrLoss : Bool
  oscFail : Bool
  valid : Bool
  batLow : Bool
  beyond : Bool
  alarm : Nat
  lateArm : Bool
  frz : Nat
  shadow : Option Shadow
  change : Option TimeChange
  trimNew : Option Nat
  told : List (Nat × List Word)
deriving DecidableEq, Repr

/-- For whom a page store is made (15 R393, Table 15-2 CAUSE). -/
inductive StoreFor where
  | owner
  | mailbox (n : Nat)
  | powerFail
  | rsCmd
deriving DecidableEq, Repr

/-- A page store that is pending; `first` marks the first page of its command, where VHOLD is checked (15 R393, R395). -/
structure StoreReq where
  page : Nat
  who : StoreFor
  first : Bool
deriving DecidableEq, Repr

/-- What the owner sets of a page header (15 Table 15-2). -/
structure PageMeta where
  fmt : Nat
  len : Nat
  w0 : Nat
  w1 : Nat
  w2 : Nat
deriving DecidableEq, Repr

/-- A shadow page: its 64-byte header as stored and its data (15 R391). -/
structure Shadowed where
  header : Bytes
  data : Memory
deriving DecidableEq, Repr

/-- The page store in progress: what the shadow page becomes when it completes (15 R393). -/
structure Storing where
  page : Nat
  who : StoreFor
  image : Shadowed
  since : Nat
deriving DecidableEq, Repr

/-- An owner's write that waits until its page is stored (15 R394). -/
structure OwnerWrite where
  page : Nat
  off : Nat
  bytes : Bytes
  head : PageMeta
  store : Bool
deriving DecidableEq, Repr

/-- What a counter increment is for (15 Table 15-6). -/
inductive IncFor where
  | plain
  | recorder
  | calibration (mb : Nat)
  | reading (mb : Nat)
  | rsCmd
deriving DecidableEq, Repr

/-- A counter increment that is pending (15 R404). -/
structure CtrInc where
  counter : Nat
  why : IncFor
  since : Nat
deriving DecidableEq, Repr

/-- A cell of a counter: its value, and whether its check matches (15 R402). -/
structure Cell where
  value : Nat
  good : Bool
deriving DecidableEq, Repr

/-- The retained store (15). `valid` and `dirty` have bit n for page n; `found` is the recall result of each page; cells are keyed 32 × counter + cell. -/
structure Rs where
  work : Memory
  head : NMap PageMeta
  shadow : NMap Shadowed
  dirty : Nat
  valid : Nat
  found : NMap Nat
  gen : Nat
  cur : Option Storing
  queue : List StoreReq
  waiting : List OwnerWrite
  vhold : Nat
  cells : NMap Cell
  incCur : Option CtrInc
  incs : List CtrInc
  word : Nat
  page : Nat
  cmdBusy : Bool
  cmdDone : Bool
  cmdOp : Nat
  cmdStatus : Nat
  errWin : Nat
  errCmd : Nat
  ctrSel : Nat
deriving DecidableEq, Repr

/-- A check-value unit (16 Table 16-1). -/
structure Cv where
  width : Nat
  refin : Bool
  refout : Bool
  invout : Bool
  poly : Nat
  init : Nat
  r : Nat
  count : Nat
deriving DecidableEq, Repr

/-- One copy of an imported slot's record (17 R429). -/
structure KeyCopy where
  gen : Nat
  key : Bytes
deriving DecidableEq, Repr

/-- An imported slot: the copy in force, and the other one where that is valid (17 R429). -/
structure KeySlot where
  cur : KeyCopy
  other : Option KeyCopy
deriving DecidableEq, Repr

/-- The staged key (17 R437). -/
structure StagedKey where
  slot : Nat
  key : Bytes
  verified : Bool
deriving DecidableEq, Repr

/-- A commit on its way: written, and waiting for its boundary if a line uses the slot (17 R439). -/
structure KeyCommit where
  slot : Nat
  mb : Nat
  since : Nat
deriving DecidableEq, Repr

/-- An old line key and the last cycle in which it is accepted (17 R439). -/
structure OldKey where
  slot : Nat
  key : Bytes
  last : Nat
deriving DecidableEq, Repr

/-- The key store (17). `root` has a bit for each copy of the root region that matches its digest (R424). `lineBad`: the bad slots as lines have taken them since the last boundary (R441). -/
structure Ks where
  root : Nat
  keydis : Bool
  slots : NMap KeySlot
  bad : List Nat
  staged : Option StagedKey
  commit : Option KeyCommit
  old : List OldKey
  lineBad : List Nat
  bm : List Bytes
deriving DecidableEq, Repr

/-- A record (18 Tables 18-1 and 18-2): `flags` is byte 0x16, `body` bytes 0x18 to 0x3F. -/
structure Rec where
  seq : Nat
  nt : Nat
  mcc : Nat
  code : Nat
  flags : Nat
  source : Nat
  body : Bytes
deriving DecidableEq, Repr

/-- A token bucket (18 R450). -/
structure Bucket where
  credit : Nat
  tokens : Nat
  supp : Nat
  last : Nat
deriving DecidableEq, Repr

/-- A sinter span in progress (18 R449). -/
structure Sinter where
  count : Nat
  min : Word
  max : Word
  sum : Word
  any : Bool
  bins : List Nat
deriving DecidableEq, Repr

/-- The event recorder (18). `held` is the last low word written, `heldAt` the cursor at that write until EVR_CUR_HI is written. -/
structure Ev where
  ring : NMap Rec
  new : Nat
  firstSeq : Nat
  free : Bool
  started : Bool
  cursor : Nat
  held : Nat
  heldAt : Option Nat
  ovw : Bool
  ntf : Bool
  thresh : Nat
  lost : Nat
  waiting : List Rec
  buckets : NMap Bucket
  suppressed : NMap Nat
  sinter : NMap Sinter
  index : Nat
  dirtied : NMap Nat
deriving DecidableEq, Repr

/-- A maintenance activity that runs: its number, and the slot or unit it names (19 R476, R478). -/
structure Activity where
  no : Nat
  object : Nat
deriving DecidableEq, Repr

/-- A replay snapshot (01 R46). -/
structure Snapshot where
  cycle : Nat
  digest : Bytes
  area : NMap Word
  inst : NMap InstRun
  tasks : List TaskRun
  pubs : List (Option Result)
  priors : List (NMap Word × List Nat)
deriving DecidableEq, Repr

/-- A replay input record (01 Table 1-11). -/
structure FeedRec where
  cycle : Nat
  start : Nat
  ticks : Nat
  dis : List Nat
  entries : NMap Entry
  units : NMap UnitRun
deriving DecidableEq, Repr

/-- What is kept of a replayed cycle (13 RPL_OUTPUT). -/
structure Replayed where
  cycle : Nat
  output : NMap Entry
  results : List (Option Result)
deriving DecidableEq, Repr

/-- Replay (01 R45 to R51): the snapshot captured and the mailbox that waits for a capture; a start that waits for its boundary; the live state and output image saved; the records queued, the count that the next one must have, the record of the cycle that runs; what is kept of the last cycles. -/
structure Rp where
  captured : Option Snapshot
  capture : Option Nat
  starting : Option (Nat × Snapshot)
  saved : Option Snapshot
  savedOut : NMap Entry
  running : Bool
  ending : Option Nat
  feeds : List FeedRec
  fed : Option Nat
  cycle : Option FeedRec
  outputs : List Replayed
  records : List Rec
  count : Nat
deriving DecidableEq, Repr

/-- The state of the block. `free` counts the free values drawn; `pending` is the queue of commands, first in, first out. Both are the model's own. -/
structure State where
  part : Part
  clk : Clk
  pwr : Pwr
  net : Net
  un : Units
  pt : Points
  ln : NMap Line
  lnReq : List LineReq
  lbw : Lbw
  ce : Ce
  sv : Sv
  vn : Vent
  ft : Ft
  mt : Mt
  hq : NMap Heat
  glb : Glb
  pcie : Pcie
  link : Link
  mb : Mb
  im : Im
  pa : Pa
  rtc : Rtc
  rs : Rs
  cv : List Cv
  ks : Ks
  ev : Ev
  ma : List Activity
  rp : Rp
  free : Nat
  pending : List Instr
deriving DecidableEq, Repr

/-- A line at reset: OFFLINE (03 Table 3-9), every register at its Reset value (Table 3-10). -/
def Line.reset : Line :=
  { state := 5, lphase := false, lerr := 0, fcause := 0, fhold := 0, boffs := [], tec := 0, rcv := 0,
    abt := 0, dbt := 0, ssp := 0, fmt := 0, rxok := 0, txok := 0, rxerr := 0, txerr := 0, drop := 0, disc := 0,
    boff := 0, fences := 0, domto := false, therm := false, gsup := false, busdom := false, thermNow := false,
    gsupNow := false, domNow := false, align := 0, lastnt := 0, joined := false, cur := [], prev := [],
    delivered := [], alive := [], e2eRef := [], lastGood := [], onBus := none, refDue := none, txWait := none, retries := [],
    inj := [], safeSent := false }

/-- An empty receive buffer (03 R94). -/
def Buf.empty : Buf :=
  { ident := 0, ide := false, fdf := false, brs := false, dlc := 0, esi := false, valid := false, repl := false,
    e2e := 0, window := 0, fvnt := 0, data := [] }

/-- A point-image entry at reset: state INITIAL (01 Table 1-3). -/
def Entry.reset : Entry := { value := 0, quality := 7, age := 0 }

/-- The run-time fields of a unit at reset (02 Table 2-2): a station is ABSENT. -/
def UnitRun.reset : UnitRun := { oosOwn := false, oosInh := false, svcSince := 0, station := 2, miss := 0, good := 0 }

/-- A slot with no program. -/
def ProgSlot.empty : ProgSlot := { img := none, bytes := [], area := [] }

/-- Task statistics before any value exists (05 R148). -/
def TaskStat.reset : TaskStat := { started := 0, overruns := 0, hist := [], last := 0, max := 0, slack := 0xFFFFFFFF }

/-- A task that has never run. -/
def TaskRun.reset : TaskRun :=
  { exec := none, prevStart := none, prevOk := true, stopped := false, late := false, nextRel := 0, stat := .reset }

/-- The cycle engine at reset: both slots empty, A active (15 Table 15-5). -/
def Ce.reset : Ce :=
  { slotA := .empty, slotB := .empty, active := 0, fast := .reset, network := .reset, slow := .reset, inst := [],
    idle := List.replicate 4 { running := 0, last := 0, min := 0xFFFFFFFF }, record := [], swap := none,
    pubNt := none, latchTick := 0, latchValid := false, latchBeyond := false, poison := [],
    exc := 0, excNext := 0, areaWas := [] }

/-- An arithmetic report before the first pass (07 Table 7-8). -/
def Report.zero : Report :=
  { fxPasses := 0, fpPasses := 0, guardPasses := 0, lowest := none, sats := 0, pivots := 0, refSteps := 0,
    notConv := 0, flags := 0 }

/-- A solve slot with no program. -/
def SolveSlot.empty : SolveSlot :=
  { img := none, mem := [], fmt := [], prior := [], priorFmt := [], snaps := [], solve := none, held := none,
    heldMem := none, pub := none }

/-- The solver engine at reset. -/
def Sv.reset : Sv :=
  { slots := List.replicate 4 .empty, order := [], tiles := List.replicate 16 [none, none], staged := [],
    busy := List.replicate 16 0, winMax := 0, moved := 0, singleBit := 0, fpPasses := 0, record := [], reqs := [],
    poison := [] }

/-- The vent path and local I/O at reset (09 R262, R270, R271, Table 9-5). -/
def Vent.reset : Vent :=
  { active := 0, events := 0, acts := 0, inj := 0, injDrop := 0, first := none, firstNt := 0, fs := 0, queue := [],
    diRaw := 0, diFilt := 0, diSince := List.replicate 16 0, pcnt := List.replicate 16 0,
    pcntCut := List.replicate 16 0, doBase := 0 }

/-- Fault handling at reset (09 Table 9-9). -/
def Ft.reset : Ft :=
  { stack := [], queue := [], ovf := 0, ovfLatch := none, pend := 0, cnt := List.replicate 5 0, highest := 0,
    lastCode := 0, lastCls := 0, lastNt := 0, entry := none, entryStep := 0, safe := false, hwsafe := false, exitRefused := false,
    safeCause := 0, safeExit := false, hwCause := 0, hwNew := false, beat := none,
    eccCentral := 0, eccBulk := 0 }

/-- The lock of a voltage set at reset: UNLOCKED (10 R289). -/
def Lock.reset : Lock := { locked := false, inRange := 0, outRange := 0, quiet := none, since := 0, lastP1 := [] }

/-- The metering DSP at reset (10 Tables 10-4 to 10-7). -/
def Mt.reset : Mt :=
  { calStored := [], calValid := false, calWorking := [], regs := [], tail := [], view := [], viewNt := 0,
    frozen := false, snapReq := false, sec := [], clip := [], clipNow := [], locks := List.replicate 4 .reset,
    chain := [], hist := [], sLast := [], poisonNext := [], tickN := 0, tickSq := [], tickUI := [], closeNt := 0, rms := [],
    energy := [], secN := 0, secSq := [], secUI := [], secNt := 0, periods := [], cycles := [], volts := [], pending := [], pmax := [], unmet := [], unmetUs := [],
    unmetOn := [], status := [], poison := [], holdId := 0, tailLostCount := 0, tailLost := false, latchLost := false,
    lossEst := [], lossMax := [], saveNt := 0, saveDue := false, calMask := 0, measures := [], readings := [],
    reads := [], tailing := false, tailStart := 0, tailUs := 0, newest := none, newestHeat := none, watchRing := [], watchTotals := [],
    watchStart := 0, watchEnd := 0, watchOver := 0, watchCfg := 0, watchThr := 0, watchScale := [], watchNew := false, tickNt := 0, regsWas := [] }

/-- A heat channel at reset (11 Table 11-3). -/
def Heat.reset : Heat :=
  { heat := 0, cold := 0, vol := 0, volErr := 0, errCyc := 0, base := 0, baseSet := false, restored := none,
    lastPulse := 0, avg := [], flags := 0, cyc := 0, kLast := 0, latchLost := false, lossEst := 0,
    power := 0 }

/-- An idle mailbox with its registers at their Reset values (12 Table 12-11). -/
def Mailbox.reset : Mailbox :=
  { cmd := 0, reqLen := 0, arg0 := 0, arg1 := 0, arg2 := 0, arg3 := 0, dmaLo := 0, dmaHi := 0, dmaLen := 0,
    dmaCtl := 0, state := .idle, dmaErr := 0, status := 0, rtag := 0, rspLen := 0, res0 := 0, res1 := 0, res2 := 0,
    res3 := 0, dmaDone := 0, dmaNeed := 0, time := 0, page := [], bellNt := 0, reply := none, dmaWait := false, dmaSince := 0 }

/-- The RTC domain after a loss of power (14 Tables 14-1 and 14-2). -/
def Rtc.reset : Rtc :=
  { tick := 0, acc := 0, trim := 32, armed := false, alm := false, almLate := false, pwrLoss := true,
    oscFail := false, valid := false, batLow := false, beyond := false, alarm := 0, lateArm := false, frz := 0, shadow := none,
    change := none, trimNew := none, told := [] }

/-- The retained store at reset: recall still to be made, every counter as made (15 Table 15-8, R403). -/
def Rs.reset : Rs :=
  { work := [], head := [], shadow := [], dirty := 0, valid := 0, found := [], gen := 0, cur := none, queue := [],
    waiting := [], vhold := 0, cells := [], incCur := none, incs := [], word := 0, page := 0, cmdBusy := false,
    cmdDone := false, cmdOp := 0, cmdStatus := 0, errWin := 0, errCmd := 0, ctrSel := 0 }

/-- A check-value unit at reset: CRC-32 (16 Table 16-1). -/
def Cv.reset : Cv :=
  { width := 32, refin := true, refout := true, invout := true, poly := 0x04C11DB7, init := 0xFFFFFFFF, r := 0, count := 0 }

/-- The key store at reset: the root region good, every imported slot EMPTY, the boot measurements zero (17 R424, R426, R430). -/
def Ks.reset : Ks :=
  { root := 3, keydis := false, slots := [], bad := [], staged := none, commit := none, old := [], lineBad := [],
    bm := List.replicate 4 (List.replicate 32 0) }

/-- The recorder at reset (18 Tables 18-7 and 18-8). -/
def Ev.reset : Ev :=
  { ring := [], new := 0, firstSeq := 0, free := false, started := false, cursor := 0, held := 0, heldAt := none, ovw := false,
    ntf := false, thresh := 0, lost := 0, waiting := [], buckets := [], suppressed := [], sinter := [], index := 0,
    dirtied := [] }

/-- Replay at reset. -/
def Rp.reset : Rp :=
  { captured := none, capture := none, starting := none, saved := none, savedOut := [], running := false,
    ending := none, feeds := [], fed := none, cycle := none, outputs := [], records := [], count := 0 }

/-- The supplies and lands at reset, with the power state START (19 R465, notes/assumptions/8). -/
def Pwr.reset : Pwr :=
  { pstate := 2, ready := false, vin := true, vbat := true, vioH := true, resetN := true, testmode := false,
    hostsel := false, linkSpi := false, vhold := 0, recalling := true, startDone := false,
    condSince := none, sysResetAt := none, hold := none, leaving := false, watchStart := none, toState := none,
    extest := false, batCheckAt := 0, slotCheckAt := 0 }

/-- The global registers at reset (12 Table 12-7). -/
def Glb.reset : Glb :=
  { ntHi := 0, irqW1c := 0, irqEn := 0, irqMap := 0x00FAC688, cpl := [], errPw := 0, errMb := 0, errSpi := 0,
    errLink := 0, scratch := 0 }

/-- The module right after reset: START, the internal reset not yet released (19 R465, R470, R474). Values that the spec does not state are those of notes/assumptions/5 to 12. -/
def State.reset : State :=
  { part := { m40 := true, serial := 0 },
    clk := { nt := 0, running := false, refOk := true, pllOk := true, t0 := none, base := 0, k := 0, begun := false, bc := 0 },
    pwr := .reset,
    net := { image := none, bytes := [], digest := [] },
    un := { run := [], atBoundary := [], requests := [] },
    pt := { input := [], output := [], working := [], track := [], forces := [], forceReq := [] },
    ln := [], lnReq := [], lbw := { sel := 0, watch := 0, ndat := false, curCycle := 0, prevCycle := 0 }, ce := .reset, sv := .reset, vn := .reset,
    ft := .reset, mt := .reset, hq := [], glb := .reset,
    pcie := { up := false, d3 := false, cfg := [], msiPending := 0, trainFrom := 0, slow := false },
    link := { rdata := [], refused := false, msi := [], msiDue := 0, msiWas := 0, dmaOut := [], dmaTo := [], dmaFrom := [], jtag := [] },
    mb := { boxes := List.replicate 16 .reset, bells := [], order := [] },
    im := { staged := [], flash := [], uploads := [], fwSlot := 0, fwNext := 0, netLoad := none, cycLoad := [], cfgLoad := none, cfgCommit := none, fwHeld := none },
    pa := { runtime := [], discard := [], conf := none, meter := [], heat := [], meterNew := false },
    rtc := .reset, rs := .reset, cv := List.replicate 8 .reset, ks := .reset, ev := .reset, ma := [], rp := .reset,
    free := 0, pending := [] }

end Sys2Proof.Machine
end

