-- ==== Sys2Proof/Config.lean ====
section
/-! DEFINITION. What an implementation fixes and the manual does not state: constants without a body, so that nothing can be proved about which value they have. Each is named in an entry of notes/assumptions. -/
namespace Sys2Proof.Config
open Sys2Proof.Machine

/-- The byte offset of each fixed region of the central store, in the order of 01 Table 1-4: the firmware fixes it (02 R86; notes/assumptions/110). -/
opaque fixedOffset : Nat → Nat

/-- What a word of the central store belongs to: the image leaves the places of the regions open (01 R31; notes/assumptions/33). -/
inductive StorePlace where
  | input (point : Nat)
  | output (point : Nat)
  | unit (u : Nat)
  | area (pair : Nat)
  | block (home element : Nat)
  | other
deriving DecidableEq, Repr, Inhabited

/-- The place of the 64-bit word at an address of the central store or the bulk memory (notes/assumptions/33). -/
opaque placeOf : Nat → StorePlace

/-- A fresh free word, one for each value of the counter `State.free` (notes/assumptions/10). -/
opaque freeWord : Nat → Word

/-- The increment of TOTAL, a signed word, where IN is an infinity and DT is 0, so that its product is no number: of IN and DT (06 R183; notes/assumptions/27). -/
opaque openIncrement : Word → Nat → Word

/-- Whether the fixed-point quotient 0 / 0 saturates to the upper limit, by the scales of target and divisor (07 Table 7-5; notes/assumptions/118). -/
opaque zeroOverZero : Int → Int → Bool

/-- The root secret of the part (17 R423; notes/assumptions/5). -/
opaque rootSecret : Bytes

/-- The factory certificate of the attestation key (17 R423; notes/assumptions/5). -/
opaque certificate : Bytes

/-- Whether a firmware image carries a signature of the firmware signing key, which the manual does not show (17 R426; notes/assumptions/21). -/
opaque firmwareSigned : Bytes → Bool

/-- Whether a firmware image meets the checks of its own chapter, which the manual does not state (13 Table 13-5; notes/assumptions/21). -/
opaque firmwareOk : Bytes → Bool

/-- SHA-256 of the factory firmware image that runs where the flash model holds none (17 Table 17-1; notes/assumptions/21). -/
opaque firmwareDigest : Bytes

/-- The firmware signing public key, x ‖ y (17 Table 17-1; notes/assumptions/21). -/
opaque firmwareKey : Bytes

/-- The lifecycle record of the part (17 Table 17-1; notes/assumptions/21). -/
opaque lifecycle : Bytes

/-- The high-pass filter with its corner at 0.25 Hz: next state and output (binary64), of state and input; the coefficients are not stated (10 R287; notes/assumptions/23). -/
opaque highPass : Nat → Nat → Nat × Nat

/-- The integrator of SENSOR 3: next state and output, of FNOM, state and input; the coefficients are not stated (10 R287; notes/assumptions/23). -/
opaque integrator : Nat → Nat → Nat → Nat × Nat

/-- The fractional-delay filter: next state and output, of PHASE_CORR, state and input; the coefficients are not stated (10 R287; notes/assumptions/23). -/
opaque fractionalDelay : Nat → Nat → Nat → Nat × Nat

/-- Point k of the 64 to which a fundamental cycle is resampled, of its period in ns and its samples; the interpolation is not stated (10 R290; notes/assumptions/23). -/
opaque resample : Nat → Nat → List Nat → Nat

/-- The mean (binary32) over a second of a quantity of its fundamental cycles, given with their periods in ns (10 Table 10-6; notes/assumptions/23). -/
opaque cycleMean : List (Nat × Nat) → Word

/-- The mean frequency (binary32) of a second, of the periods of its cycles in ns (10 Table 10-5; notes/assumptions/23). -/
opaque frequencyMean : List Nat → Word

/-- Whether the phase sequence of a voltage set is negative, of the real and imaginary parts of its fundamental voltages (10 Table 10-5; notes/assumptions/23). -/
opaque negativeSequence : List Nat → Bool

/-- A mean of MTR_CAL_MEASURE (binary32), of the one-second values (13 Table 13-11; notes/assumptions/23). -/
opaque measureMean : List Word → Word

/-- The raw samples taken since the last command that carried any, when the tick in progress is closed by the latch or the metering stop: by `State.free`, sample and channel (10 R305; notes/assumptions/23). -/
opaque latchSample : Nat → Nat → Nat → Nat

/-- Whether the watch rounds an Irms × 1 s (binary64) up to a whole A·s (10 R313; notes/assumptions/40). -/
opaque watchUp : Nat → Bool

/-- The place code of IMG_INFO for an image loaded (0), stored in flash (1) or staged (2): the codes are not stated (13 Table 13-5; notes/assumptions/44). -/
opaque placeCode : Nat → Word

/-- PROGRAM_ID (0), PROGRAM_VERSION (1) and TARGET_FW (2) in IMG_INFO of an image whose header the manual does not show: firmware, and an envelope (13 Table 13-5; notes/assumptions/44). -/
opaque hiddenName : Bytes → Nat → Word

/-- The header of such an image, whose SHA-256 IMG_INFO shows (13 Table 13-5; notes/assumptions/44). -/
opaque hiddenHeader : Bytes → Bytes

/-- Bytes of the staging area that a solve program's slots take, by its header: the image does not state the slot sizes (07 R207; notes/assumptions/24). -/
opaque stagingBytes : Bytes → Nat

/-- A term of a solve that binding sets (08 R221, R223): the weight of measurement i in operand order; in HY the term of a unit's branches in D⁻¹, their flow, the injection of a unit, and diagonal and right-hand side of a node's row; in DP the upper bounds of a unit's activity variables. -/
inductive SolveTerm where
  | weight (i : Nat)
  | branch (unit : Nat)
  | flow (unit : Nat)
  | injection (unit : Nat)
  | diagonal (row : Nat)
  | rightSide (row : Nat)
  | upper (unit : Nat)
deriving DecidableEq, Repr, Inhabited

/-- The places of a term, as blocks and elements, by program header: the image does not state them (08 R221, R223; notes/assumptions/25). -/
opaque termPlaces : Bytes → SolveTerm → List (Nat × Nat)

/-- The units whose branches meet at the node of an HY row, by program header; none for a row that is no node (08 R221, R225; notes/assumptions/25). -/
opaque branchesOf : Bytes → Nat → List Nat

/-- The block and element that hold the state variable of an SE row, by program header (08 R222, R257; notes/assumptions/25). -/
opaque statePlace : Bytes → Nat → Nat × Nat

/-- The block and element that hold b_i, or c_j for a dual certificate, of a row: the image does not state the place. By program header and form (08 R255; notes/assumptions/25). -/
opaque rowTerm : Bytes → Bool → Nat → Nat × Nat

/-- The body of a replay snapshot as bytes: its layout is not stated (01 R46, 13 R372; notes/assumptions/26). -/
opaque snapshotBody : Snapshot → Bytes

/-- The snapshot that an uploaded body holds, if any (13 R372; notes/assumptions/26). -/
opaque snapshotOf : Bytes → Option Snapshot


end Sys2Proof.Config
end

