-- ==== Sys2Proof/Machine/Ops.lean ====
section
/-! DEFINITION. The shared operations over the state: time, lines and mailboxes by number, free values, the interrupt sources and the messages they owe, power state, and the tick of an empty queue. -/
namespace Sys2Proof.Machine

/-- What a meaning answers. -/
abbrev Out := Host.Outcome State Fault Refusal

/-! Time (01 R24, 14 R373). -/

/-- NT. -/
def now (s : State) : Nat := s.clk.nt

/-- The matrix-cycle count of the current cycle (01 R25); 0 before the first boundary (19 R467). -/
def mcc (s : State) : Nat := s.clk.k % 2 ^ 32

/-- Count `a` comes before count `b`: a comparison modulo 2^32, in which the nearer way round decides (01 R25; notes/assumptions/100). -/
def countBefore (a b : Nat) : Bool := decide (0 < (b + 2 ^ 32 - a % 2 ^ 32) % 2 ^ 32 ∧ (b + 2 ^ 32 - a % 2 ^ 32) % 2 ^ 32 < 2 ^ 31)

/-- The later of two counts (01 R25). -/
def laterCount (a b : Nat) : Nat := if countBefore a b then wrap32 b else wrap32 a

/-- The matrix-cycle length in µs, 0 where no network image is loaded. -/
def cycleLen (s : State) : Nat := match s.net.image with | some n => n.len | none => 0

/-- Tk of boundary k (01 R26; notes/assumptions/48). -/
def boundaryNt (s : State) (k : Nat) : Nat := s.clk.t0.getD 0 + (k - s.clk.base) * cycleLen s

/-- Tk of the current cycle. -/
def cycleStart (s : State) : Nat := boundaryNt s s.clk.k

/-- Whether the power state is RUN. -/
def inRun (s : State) : Bool := s.pwr.pstate == 3

/-- Whether matrix cycles run: RUN, activated, and the boundary T0 past. -/
def cycling (s : State) : Bool := inRun s && s.clk.begun

/-- The first tick after the calendar range (14 R388). -/
def calendarEnd : Nat := 281263944499200

/-- The count moves on by `n` edges, modulo 2^48; BEYOND is set at the edge at which it reaches the end of the calendar range (14 R373, R389). -/
def Rtc.count (r : Rtc) (n : Nat) : Rtc :=
  { r with tick := (r.tick + n) % 2 ^ 48, beyond := r.beyond || decide (r.tick < calendarEnd ∧ calendarEnd ≤ r.tick + n) }

/-- The parts of a tick, which `Rtc.acc` counts. -/
def tickParts : Nat := 100000000000000

/-- Parts of a tick that pass in 1 µs: 32,768 ticks a second at trim code 32, and (32 − code) × 0.95 ppm more, the nominal effect of a code (14 R373, R376; notes/assumptions/125). -/
def tickRate (trim : Nat) : Nat := 32768 * (100003040 - 95 * trim)

/-- A new trim code applies (14 R376). -/
def Rtc.newTrim (r : Rtc) : Rtc := { r with trim := r.trimNew.getD r.trim, trimNew := none }

/-- `dt` µs pass under the trim code in force. -/
def Rtc.spin (r : Rtc) (dt : Nat) : Rtc :=
  let a := r.acc + tickRate r.trim * dt
  { r.count (a / tickParts) with acc := a % tickParts }

/-- µs until the next tick edge (14 R382). -/
def Rtc.toEdge (r : Rtc) : Nat := (tickParts - r.acc + tickRate r.trim - 1) / tickRate r.trim

/-- Ticks that the oscillator makes in `dt` µs, from the part of a tick already run (14 R373); a new trim code applies from the next edge (14 R376). -/
def Rtc.run (r : Rtc) (dt : Nat) : Rtc :=
  if r.oscFail then r
  else if r.trimNew.isNone || decide (dt < r.toEdge) then r.spin dt
  else ((r.spin r.toEdge).newTrim).spin (dt - r.toEdge)

/-- µs until the count reaches `t` under the trim code in force. -/
def Rtc.toTick (r : Rtc) (t : Nat) : Nat := ((t - r.tick) * tickParts - r.acc + tickRate r.trim - 1) / tickRate r.trim

/-- µs until the count reaches `t`, which lies ahead. -/
def Rtc.until_ (r : Rtc) (t : Nat) : Nat :=
  if r.trimNew.isNone then r.toTick t
  else
    let r' := (r.spin r.toEdge).newTrim
    r.toEdge + (if t ≤ r'.tick then 0 else r'.toTick t)

/-- One tick edge: the count moves on by 1, or by the change that waits; a new trim code applies (14 R373, R376, R382, R383, R389). -/
def Rtc.edge (r : Rtc) : Rtc :=
  let r := r.newTrim
  match r.change with
  | none => r.count 1
  | some x =>
    if x.adjust then
      let t := ((r.tick + 1 : Nat) + x.value : Int).toNat % 2 ^ 48
      { r with tick := t, beyond := r.beyond || decide (r.tick < calendarEnd ∧ calendarEnd ≤ t), change := none }
    else { r with tick := x.value.toNat, valid := true, beyond := false, change := none }

/-- The RTC domain is supplied: from VIN while VIN is present, and from VBAT otherwise (14 R374; notes/assumptions/9). -/
def rtcPowered (s : State) : Bool := s.pwr.vin || s.pwr.vbat

/-- The RTC after `dt` µs. -/
def rtcAfter (s : State) (dt : Nat) : Rtc := if rtcPowered s then s.rtc.run dt else s.rtc

/-- Whether a core has an entry left in its list of a task's execution. -/
def coreBusyIn (p : ProgImage) (t : Nat) (e : Exec) (c : Nat) : Bool :=
  decide (nth 0 e.pos c < (p.coreList t c).length)

/-- The active program slot. -/
def activeSlot (s : State) : ProgSlot := if s.ce.active = 0 then s.ce.slotA else s.ce.slotB

/-- The active program, if one is loaded. -/
def activeProg (s : State) : Option ProgImage := (activeSlot s).img

/-- Whether a core is idle: no entry left in any released, incomplete execution (05 R147). -/
def coreIdle (s : State) (c : Nat) : Bool :=
  match activeProg s with
  | none => true
  | some p =>
    let busy := fun (t : Nat) (r : TaskRun) => match r.exec with | some e => coreBusyIn p t e c | none => false
    !(busy 0 s.ce.fast || busy 1 s.ce.network || busy 2 s.ce.slow)

/-- Idle CLK_P cycles that pass in `dt` µs (05 R147). -/
def idleRun (s : State) (dt : Nat) : List Idle :=
  if cycling s then
    (indexed s.ce.idle).map (fun p => if coreIdle s p.1 then { p.2 with running := p.2.running + 500 * dt } else p.2)
  else s.ce.idle

/-- Busy CLK_S cycles of the tiles that pass in `dt` µs: a tile that holds a task still computing is busy (07 Table 7-9). -/
def busyRun (s : State) (dt : Nat) : List Nat :=
  s.sv.busy.zipWith (fun b ctxs => if ctxs.any (fun c => match c with | some x => !x.done | none => false) then b + 1000 * dt else b) s.sv.tiles

/-- NT moves on to `t`, never backwards; what counts time counts it. -/
def advanceTo (s : State) (t : Nat) : State :=
  if t ≤ s.clk.nt then s
  else
    let dt := t - s.clk.nt
    { s with
      clk := { s.clk with nt := t }
      rtc := rtcAfter s dt
      ce := { s.ce with idle := idleRun s dt }
      sv := { s.sv with busy := busyRun s dt } }

/-- NT moves on while no edge of the oscillator comes (14 R375). -/
def advanceHeld (s : State) (t : Nat) : State := { advanceTo s t with rtc := s.rtc }

/-- A step on an empty queue: one CLK_T cycle while CLK_T runs, else one edge of the RTC oscillator while that runs (01 R24, 14 R373, R374; notes/assumptions/2). -/
def idleTick (s : State) : State :=
  if s.clk.running && s.clk.refOk then advanceTo s (s.clk.nt + 1)
  else if rtcPowered s && !s.rtc.oscFail then { s with rtc := s.rtc.newTrim.count 1 }
  else s

/-! Free values (notes/assumptions/10). -/

/-- The next free word. -/
def freeWord (s : State) : Word := Config.freeWord s.free

/-- The state after a free word has been drawn. -/
def drew (s : State) : State := { s with free := s.free + 1 }

/-! Lines, mailboxes, units and heat channels by number. -/

/-- Line `l`. -/
def lineOf (s : State) (l : Nat) : Line := getD Line.reset s.ln l

/-- The state with line `l` replaced. -/
def setLine (s : State) (l : Nat) (x : Line) : State := { s with ln := setD Line.reset s.ln l x }

/-- The state with line `l` changed by `f`. -/
def onLine (s : State) (l : Nat) (f : Line → Line) : State := setLine s l (f (lineOf s l))

/-- The line record of line `l` in the network image. -/
def lineRec (s : State) (l : Nat) : Option LineRec :=
  match s.net.image with
  | some n => if n.lineUsed l then some (n.lineAt l) else none
  | none => none

/-- Mailbox `n`. -/
def box (s : State) (n : Nat) : Mailbox := nth Mailbox.reset s.mb.boxes n

/-- The state with mailbox `n` changed by `f`. -/
def onBox (s : State) (n : Nat) (f : Mailbox → Mailbox) : State :=
  { s with mb := { s.mb with boxes := modifyNth s.mb.boxes n f } }

/-- The run-time fields of unit `u`. -/
def unitRun (s : State) (u : Nat) : UnitRun := getD UnitRun.reset s.un.run u

/-- Whether a unit is effectively out of service (02 R73). -/
def UnitRun.out (r : UnitRun) : Bool := r.oosOwn || r.oosInh

/-- Heat channel `n`. -/
def heatOf (s : State) (n : Nat) : Heat := getD Heat.reset s.hq n

/-- The state with heat channel `n` replaced. -/
def setHeat (s : State) (n : Nat) (h : Heat) : State := { s with hq := setD Heat.reset s.hq n h }

/-- The solve slot `n`. -/
def solveSlot (s : State) (n : Nat) : SolveSlot := nth SolveSlot.empty s.sv.slots n

/-- The state with solve slot `n` changed by `f`. -/
def onSlot (s : State) (n : Nat) (f : SolveSlot → SolveSlot) : State :=
  { s with sv := { s.sv with slots := modifyNth s.sv.slots n f } }

/-! Maintenance activities that run (19 R476). -/

/-- Whether activity `n` runs. -/
def runs (s : State) (n : Nat) : Bool := s.ma.any (fun a => a.no == n)

/-! Interrupt sources (12 R344 to R346). -/

/-- The notification condition of the recorder (18 R458). -/
def evrCond (e : Ev) : Bool := (e.thresh != 0 && decide (e.new - e.cursor ≥ e.thresh)) || e.ntf || e.ovw

/-- GLB_IRQ_STAT (12 Table 12-9). -/
def irqStat (s : State) : Nat :=
  let z := setBit (setBit (setBit (setBit s.glb.irqW1c 16 false) 17 false) 18 false) 21 false
  let z := setBit z 16 (s.ft.pend != 0)
  let z := setBit z 17 s.rtc.alm
  let z := setBit z 18 (evrCond s.ev)
  setBit z 21 s.rs.cmdDone

/-- The bits of source group g (12 Table 12-10). -/
def groupBits (g : Nat) : Nat :=
  match g with
  | 0 => 0x1 | 1 => 0xFFFE | 2 => 0x10000 | 3 => 0x20000 | 4 => 0x40000 | 5 => 0x180000 | 6 => 0x200000 | 7 => 0x400000
  | _ => 0

/-- A little-endian word of the configuration space's writable bytes. -/
def cfgLe (p : Pcie) (off n : Nat) : Nat := leNat (readBytes p.cfg off n)

/-- MSI enabled (12 Table 12-2, MSI at 0x50: Message Control bit 0). -/
def msiOn (s : State) : Bool := !s.pwr.linkSpi && bit (cfgLe s.pcie 0x52 2) 0

/-- The vectors granted: 1, 2, 4 or 8 (12 R345). -/
def msiGranted (s : State) : Nat := 2 ^ (Nat.min 3 (bits (cfgLe s.pcie 0x52 2) 4 3))

/-- The vector of source group g (12 R345). -/
def vectorOf (s : State) (g : Nat) : Nat := bits s.glb.irqMap (3 * g) 3 % msiGranted s

/-- The vectors that are pending, bit v for vector v (12 R345). -/
def vectorsPending (s : State) : Nat :=
  if msiOn s then
    (List.range 8).foldl (fun acc g => if (irqStat s &&& s.glb.irqEn) &&& groupBits g != 0 then setBit acc (vectorOf s g) true else acc) 0
  else 0

/-- The Mask bits of the MSI capability. -/
def msiMask (s : State) : Nat := cfgLe s.pcie 0x60 4 % 256

/-- Messages become owed for the vectors `v`; a masked vector sets its Pending bit instead (12 R345). -/
def owe (s : State) (v : Nat) : State :=
  let m := msiMask s
  let hit := v &&& m
  { s with
    link := { s.link with msiDue := s.link.msiDue ||| (v ^^^ hit) }
    pcie := { s.pcie with msiPending := s.pcie.msiPending ||| hit } }

/-- A vector that has become pending owes its message (12 R345). Every meaning ends with this. -/
def settle (s : State) : State :=
  let v := vectorsPending s
  let fresh := v &&& (v ^^^ (v &&& s.link.msiWas))
  let s := if fresh = 0 then s else owe s fresh
  { s with link := { s.link with msiWas := v } }

/-- A vector still pending sends again after a host write of GLB_IRQ_STAT, GLB_IRQ_EN or GLB_IRQ_MAP (12 R345). -/
def resendAll (s : State) : State := owe s (vectorsPending s)

/-- The vector of group g, if still pending, sends again after a clear of its source (12 R345). -/
def resendGroup (s : State) (g : Nat) : State :=
  let v := setBit 0 (vectorOf s g) true
  owe s (vectorsPending s &&& v)

/-- A meaning answers its next state. -/
def done (s : State) : Out := .next (settle s)

/-- An access of the host takes effect while the module runs: in reset and unpowered no link carries it (12 R331, 19 Table 19-2). -/
def whilePowered (s t : State) : Out := if s.clk.running then done t else done s

/-- HOST_IRQ_N asserted: released in reset and when the module is unpowered (12 R346). -/
def hostIrq (s : State) : Bool := s.clk.running && irqStat s &&& s.glb.irqEn != 0

/-- A W1C bit of GLB_IRQ_STAT is set by its source. -/
def setIrq (s : State) (b : Nat) : State := { s with glb := { s.glb with irqW1c := setBit s.glb.irqW1c b true } }

/-- A write discarded by R12 is counted in GLB_ERRCNT_PW (12 Table 12-7). -/
def countPw (s : State) : State := setIrq { s with glb := { s.glb with errPw := wrap32 (s.glb.errPw + 1) } } 22

/-- A write discarded by 12 R348 is counted in GLB_ERRCNT_MB. -/
def countMb (s : State) : State := setIrq { s with glb := { s.glb with errMb := wrap32 (s.glb.errMb + 1) } } 22

/-- An SPI frame is counted in GLB_ERRCNT_SPI (12 R338 to R340). -/
def countSpi (s : State) : State := setIrq { s with glb := { s.glb with errSpi := wrap32 (s.glb.errSpi + 1) } } 22

/-- A PCI Express request refused is counted in GLB_ERRCNT_LINK (12 R336, R337, R359). -/
def countLink (s : State) : State := setIrq { s with glb := { s.glb with errLink := wrap32 (s.glb.errLink + 1) } } 22

/-- The power state changes; a change sets PSTATE in GLB_IRQ_STAT, and the heartbeat watchdog restarts with the new state's period (19 R465, 09 R278). -/
def setPstate (s : State) (p : Nat) : State :=
  if s.pwr.pstate = p then s
  else
    let s := { s with pwr := { s.pwr with pstate := p, ready := s.pwr.ready && decide (2 ≤ p ∧ p ≤ 5) } }
    let s := { s with ft := { s.ft with beat := s.ft.beat.map (fun _ => s.clk.nt) } }
    setIrq s 19

/-! Parameters in force (15 R411). -/

/-- Whether a firmware parameter is defined (10 Table 10-13, 11 Table 11-1, 19 R466). -/
def parDefined (p : Nat) : Bool :=
  p == 0x0101 || decide (0x0700 ≤ p ∧ p ≤ 0x0777) || decide (0x0780 ≤ p ∧ p ≤ 0x0784) || decide (0x0800 ≤ p ∧ p < 0x0900)

/-- The factory default of a parameter (10 Table 10-13, 11 Table 11-1, 19 R466). -/
def parDefault (p : Nat) : Word :=
  if p < 0x0730 then 0
  else if p ≤ 0x075F then 0x3F800000
  else if p ≤ 0x076B then 0
  else if p ≤ 0x0777 then 200
  else if p = 0x0780 then 60
  else if p = 0x0781 then 50
  else if p = 0x0782 then 50000
  else if p = 0x0783 then 0x00480000
  else if p = 0x0784 then 5000
  else
    match p % 8 with
    | 4 => 0x3F800000
    | 5 => 0x42C80000
    | 6 => 0x3D4CCCCD
    | 7 => 0x06400282
    | _ => 0

/-- The value of the configuration image in force, or the factory default (15 R411). -/
def confValue (s : State) (p : Nat) : Word :=
  match s.pa.conf with
  | some c => (lookup c.entries p).getD (parDefault p)
  | none => parDefault p

/-- The value in force of a parameter (15 R411). -/
def parValue (s : State) (p : Nat) : Word := (lookup s.pa.runtime p).getD (confValue s p)

/-- The metering parameters in force: a commit that changes them takes effect at a tick end (10 R315). -/
def meterPar (s : State) (p : Nat) : Word := (lookup s.pa.meter p).getD (parDefault p)

/-- The heat parameters in force: a commit that changes them takes effect at a boundary (11 R317). -/
def heatPar (s : State) (p : Nat) : Word := (lookup s.pa.heat p).getD (parDefault p)

/-- Whether metering point m (1 to 12) is in use (10 MPCFG); never on QG64-C40 (00 R6). -/
def pointInUse (s : State) (m : Nat) : Bool := s.part.m40 && bit (meterPar s (0x0760 + (m - 1))).toNat 0

/-- Whether heat channel n is in use (11 HCCFG). -/
def heatInUse (s : State) (n : Nat) : Bool := bit (heatPar s (0x0800 + 8 * n)).toNat 0

end Sys2Proof.Machine
end

