-- ==== Sys2Proof/Machine/Faults.lean ====
section
/-! DEFINITION. Raising a fault, the fault queue, the entry into the hardware safe state, and the dropping of work when the module leaves RUN (09 R274 to R279, 12 R355, 19 R479). -/
namespace Sys2Proof.Machine

/-- The work of commands in flight is dropped without completion (12 R355), and what waited for a boundary with it; `keep` keeps that of mailbox 0 and of RS_CMD, when the module leaves RUN for TEST or RECOVERY. -/
def dropWork (s : State) (keep : Bool) : State :=
  let stays := fun (n : Nat) => keep && n == 0
  { s with
    un := { s.un with requests := [] }
    lnReq := []
    pwr := { s.pwr with toState := none }
    im := { s.im with netLoad := none, cycLoad := [], cfgLoad := none, cfgCommit := none, fwHeld := none }
    sv := { s.sv with reqs := [] }
    ce := { s.ce with swap := none }
    mt := { s.mt with
      measures := []
      readings := s.mt.readings.filter (fun r => stays r.mb)
      reads := [] }
    rp := { s.rp with capture := none, starting := none, ending := none }
    rtc := if keep then s.rtc else { s.rtc with change := none }
    rs := { s.rs with
      queue := s.rs.queue.filter (fun q => match q.who with | .mailbox n => stays n | .rsCmd => keep | _ => true)
      incs := s.rs.incs.filter (fun i => match i.why with | .calibration n => stays n | .reading n => stays n | .rsCmd => keep | _ => true) }
    mb := { s.mb with
      boxes := (indexed s.mb.boxes).map (fun p => if stays p.1 then p.2 else { p.2 with reply := none, dmaWait := false })
      bells := s.mb.bells.filter stays } }

/-- Every activity ends without completion: a staged key and working calibration entries are discarded (19 R479). -/
def endActivities (s : State) : State :=
  { s with
    ma := []
    ks := { s.ks with staged := none }
    mt := { s.mt with calMask := 0, calWorking := s.mt.calStored }
    rp := { s.rp with running := false, cycle := none, feeds := [] } }

/-- A frame of the module that has not started by an instant is withdrawn from the wire. -/
def Line.withdraw (nt : Nat) (l : Line) : Line :=
  { l with onBus := l.onBus.filter (fun f => decide (f.start ≤ nt)) }

/-- The line turns to the hardware safe state: it finishes the frame that it is transmitting, then sends SAFE_INJ of its record (09 R278). -/
def Line.toSafe (r : LineRec) (nt : Nat) (l : Line) : Line :=
  { l.withdraw nt with
    inj := if r.safeInj = 0xFF then [] else [{ entry := r.safeInj, tries := 0 }]
    retries := []
    txWait := none
    refDue := none
    joined := false
    safeSent := r.safeInj == 0xFF }

/-- The entry into the hardware safe state with its cause (09 R278, Table 9-9). In HOLD the power state stays HOLD. -/
def enterHwSafe (s : State) (cause : Nat) : State :=
  if s.ft.hwsafe then s
  else
    let s := { s with ft := { s.ft with hwsafe := true, hwCause := cause, hwNew := true, beat := none, entry := none, entryStep := 0, stack := [], queue := [], ovfLatch := none } }
    let s := match s.net.image with
      | some n => { s with ln := s.ln.map (fun (p : Nat × Line) => (p.1, p.2.toSafe (n.lineAt p.1) s.clk.nt)) }
      | none => s
    let s := endActivities (dropWork { s with pwr := { s.pwr with sysResetAt := none } } false)
    if s.pwr.pstate = 6 then s else setPstate s 7

/-- The cause that FLT_HWCAUSE keeps for a fault that the vent path acts on directly (09 R278). -/
def directCause (code : Nat) : Option Nat :=
  match code with
  | 0x0101 => some 1
  | 0x0102 => some 2
  | 0x0103 => some 3
  | 0x0105 => some 4
  | _ => none

/-- The hardware counts a raised fault (09 Table 9-9). -/
def countFault (s : State) (code cls : Nat) : State :=
  { s with ft := { s.ft with
      cnt := modifyNth s.ft.cnt (cls - 1) (fun c => wrap32 (c + 1))
      highest := Nat.max s.ft.highest cls
      lastCode := code
      lastCls := cls
      lastNt := s.clk.nt } }

/-- The class bit of FLT_PEND (09 Table 9-9). -/
def pendClass (s : State) (cls : Nat) : State :=
  if 2 ≤ cls then { s with ft := { s.ft with pend := setBit s.ft.pend (cls - 1) true } } else s

/-- The class that a code has: that of Tables 9-7 and 18-5 where they state one, FLT_CLASS of the rule for a vent rule, else the class raised (09 R275). -/
def faultClass (s : State) (code cls : Nat) : Nat :=
  if 0x0101 ≤ code ∧ code ≤ 0x0107 then 5
  else if [0x0110, 0x0120, 0x0150].contains code then 3
  else if code = 0x0121 then 4
  else if [0x0111, 0x0191, 0x01A0, 0x01A1, 0x01A2, 0x01A3, 0x01A4].contains code then 2
  else if 0x0400 ≤ code ∧ code ≤ 0x07FF then
    match s.net.image.bind (fun n => n.rules[code - 0x0400]?) with
    | some r => if r.actFlt then r.fltClass else cls
    | none => cls
  else cls

/-- A fault enters the handling or the queue of 16; one that finds the queue full is lost and counted, and the overflow latch is set (09 R276). -/
def enqueueFault (s : State) (f : FaultItem) : State :=
  match s.ft.stack with
  | [] => { s with ft := { s.ft with stack := [f] } }
  | h :: t =>
    if h.cls < f.cls then { s with ft := { s.ft with stack := f :: h :: t } }
    else if s.ft.queue.length < 16 then { s with ft := { s.ft with queue := s.ft.queue ++ [f] } }
    else
      match s.ft.ovfLatch with
      | some n => { s with ft := { s.ft with ovf := wrap32 (s.ft.ovf + 1), ovfLatch := some (n + 1) } }
      | none => countFault { s with ft := { s.ft with ovf := wrap32 (s.ft.ovf + 1), ovfLatch := some 1 } } 0x0150 3

/-- A fault is raised (09 R276 to R278): counted by the hardware; in the hardware safe state nothing more happens. One that leads there directly, or meets a SAFE entry, sets its bit of FLT_PEND at once, as no handling follows (R280). `nt`, `cyc` and `replay` are those of its record. -/
def raiseFaultAt (s : State) (code cls source : Nat) (words : List Word) (nt cyc : Nat) (replay : Bool) : State :=
  if cls = 0 then s
  else
    let s := countFault s code cls
    if s.ft.hwsafe then s
    else
      match directCause code with
      | some c => enterHwSafe (pendClass s cls) c
      | none =>
        if s.ft.entry.isSome then enterHwSafe (pendClass s cls) 6
        else
          let f : FaultItem := { code := code, cls := cls, words := words, source := source, nt := nt, mcc := cyc, replay := replay }
          let s := if cls = 4 && !s.ft.safe then { s with ft := { s.ft with entry := some s.clk.nt, entryStep := 1, safeCause := code } } else s
          enqueueFault s f

/-- A fault is raised now. -/
def raiseFault (s : State) (code cls source : Nat) (words : List Word) : State :=
  raiseFaultAt s code cls source words s.clk.nt (mcc s) false

/-- A word as two words of a record, low first. -/
def twoWords (x : Nat) : List Word := [BitVec.ofNat 32 x, BitVec.ofNat 32 (x / 2 ^ 32)]

/-- A number as a word. -/
def word (x : Nat) : Word := BitVec.ofNat 32 x

/-- The fault MEM_UNCORR with its requester and address (09 Table 9-7, 18 Table 18-5). -/
def memUncorr (s : State) (requester addr : Nat) : State :=
  let source := if requester = 0 then 1 else if requester ≤ 3 then 2 else if requester = 4 then 3 else 5
  raiseFault s 0x0110 3 source (word requester :: twoWords addr)

/-- A guarantee exception is noted for the cycle in progress (01 R43, Table 1-10). -/
def noteExc (s : State) (b : Nat) : State := { s with ce := { s.ce with exc := setBit s.ce.exc b true } }

/-- A guarantee exception is noted for the cycle that begins at the next boundary. -/
def noteExcNext (s : State) (b : Nat) : State := { s with ce := { s.ce with excNext := setBit s.ce.excNext b true } }

/-- The highest class among queued faults, the overflow latch counting as DEGRADE (09 R276). -/
def queueTop (s : State) : Nat :=
  let q := maxOf (s.ft.queue.map (fun f => f.cls))
  if s.ft.ovfLatch.isSome then Nat.max q 3 else q

/-- The next handling: the one suspended, else from the queue, highest class first and in order of raising within a class, the overflow latch at the head of DEGRADE (09 R276). -/
def nextHandling (s : State) : State :=
  match s.ft.stack with
  | _ :: _ => s
  | [] =>
    let top := queueTop s
    if top = 0 then s
    else
      match top == 3, s.ft.ovfLatch with
      | true, some n =>
        let f : FaultItem := { code := 0x0150, cls := 3, words := [word n], source := 0, nt := s.clk.nt, mcc := mcc s, replay := false }
        { s with ft := { s.ft with stack := [f], ovfLatch := none } }
      | _, _ =>
        match s.ft.queue.find? (fun f => f.cls == top) with
        | some f => { s with ft := { s.ft with stack := [f], queue := s.ft.queue.erase f } }
        | none => s

end Sys2Proof.Machine
end

