-- ==== Sys2Proof/Machine/Store.lean ====
section
/-! DEFINITION. The retained store's engine and counters: owner writes, the queue of page stores, page headers, increments (15_retained_store R390 to R405). -/
namespace Sys2Proof.Machine

/-- The owner code of a page (15 Table 15-1). -/
def ownerOf (p : Nat) : Nat :=
  if p = 0 then 1
  else if p ≤ 4 then 2
  else if p = 5 then 3
  else if p ≤ 9 then 4
  else if p = 10 then 5
  else if p = 11 then 9
  else if p ≤ 15 then 8
  else if p ≤ 47 then 6
  else 7

/-- Where a page begins in the working array. -/
def pageBase (p : Nat) : Nat := 8192 * p

/-- What the owner of a page has set of its header: FORMAT 1 of page 0 and of the host pages from the start (15 R400; notes/assumptions/120). -/
def headOf (s : State) (p : Nat) : PageMeta :=
  (lookup s.rs.head p).getD
    { fmt := if p = 0 ∨ (12 ≤ p ∧ p ≤ 15) then 1 else 0, len := if p = 0 then 0x120 else if 12 ≤ p ∧ p ≤ 15 then 8192 else 0, w0 := 0, w1 := 0, w2 := 0 }

/-- The CAUSE of a store (15 Table 15-2). -/
def StoreFor.cause : StoreFor → Nat
  | .owner => 1
  | .mailbox _ => 2
  | .powerFail => 3
  | .rsCmd => 4

/-- The order in which pending stores are served (15 R393). -/
def StoreFor.rank : StoreFor → Nat
  | .powerFail => 0
  | .owner => 1
  | .mailbox _ => 2
  | .rsCmd => 2

/-- Header bytes 0x00 to 0x3B (15 Table 15-2). -/
def headerBytes (page : Nat) (h : PageMeta) (gen nt tick cyc cause : Nat) : Bytes :=
  natLe 1 page ++ natLe 1 (ownerOf page) ++ natLe 1 h.fmt ++ natLe 1 0 ++ natLe 4 h.len ++ natLe 8 gen ++ natLe 8 nt ++
  natLe 8 tick ++ natLe 4 cyc ++ natLe 4 cause ++ natLe 4 h.w0 ++ natLe 4 h.w1 ++ natLe 4 h.w2 ++ natLe 8 0

/-- The shadow page that a store begun now writes (15 R391 to R393). -/
def pageImage (s : State) (page : Nat) (who : StoreFor) : Shadowed :=
  let h := headerBytes page (headOf s page) (s.rs.gen + 1) s.clk.nt s.rtc.tick (mcc s) who.cause
  { header := h ++ natLe 4 (crc32 (h ++ readSpan s.rs.work (pageBase page) 8192))
    data := moveSpan s.rs.work (pageBase page) 8192 0 }

/-- Whether a page is being stored. -/
def beingStored (s : State) (p : Nat) : Bool :=
  match s.rs.cur with
  | some c => c.page == p
  | none => false

/-- An outcome for a long command: it completes with it (12 R349, step 6). -/
def replyTo (s : State) (n : Nat) (r : Reply) : State := onBox s n (fun b => { b with reply := some r })

/-- An outcome with a status alone. -/
def Reply.of (status : Nat) : Reply := { status := status, res0 := 0, res1 := 0, res2 := 0, res3 := 0, page := [], body := none }

/-- The mask of pages below 32 and of those from 32 on, of a request of RS_STORE. -/
def storeMask (b : Mailbox) : Nat := b.arg0.toNat + 2 ^ 32 * b.arg1.toNat

/-- A store command ends: the mailbox's outcome, with MA05 over, or RS_CMDSTAT (13 Table 13-13, 15 R408). -/
def storeEnds (s : State) (who : StoreFor) (status : Nat) : State :=
  match who with
  | .mailbox n =>
    let b := box s n
    let r := if status = 0 then { Reply.of 0 with res0 := b.arg0.toNat, res1 := b.arg1.toNat } else Reply.of status
    replyTo s n r
  | .rsCmd =>
    if s.pwr.pstate = 6 then s
    else { s with rs := { s.rs with cmdBusy := false, cmdDone := true, cmdStatus := status } }
  | _ => s

/-- The module runs from the hold-up capacitor below its page limit, where no page store may begin (15 R396). -/
def belowPageLimit (s : State) : Bool := !s.pwr.vin && decide (s.pwr.vhold < 9000)

/-- The first pending store begins (15 R393, R395, R396): below 9.0 V a page of the power-fail store is not begun, nor any other after VIN fail; a command whose first page is due below 27.0 V ends with HOLD_LOW. -/
def beginStore (fuel : Nat) (s : State) : State :=
  match fuel, s.rs.queue with
  | 0, _ => s
  | _, [] => s
  | f + 1, q :: t =>
    match q.who with
    | .powerFail =>
      if s.pwr.vhold < 9000 then beginStore f { s with rs := { s.rs with queue := t.filter (fun x => x.who != .powerFail) } }
      else beginNow s q t
    | .owner => if belowPageLimit s then beginStore f { s with rs := { s.rs with queue := t } } else beginNow s q t
    | w =>
      if q.first && decide (s.pwr.vhold < 27000) then
        beginStore f (storeEnds { s with rs := { s.rs with queue := t.filter (fun x => x.who != w) } } w 0x800A)
      else beginNow s q t
where
  beginNow (s : State) (q : StoreReq) (t : List StoreReq) : State :=
    { s with rs := { s.rs with
        cur := some { page := q.page, who := q.who, image := pageImage s q.page q.who, since := s.clk.nt }
        queue := t
        gen := s.rs.gen + 1
        dirty := setBit s.rs.dirty q.page false } }

/-- The programming circuits take the next operation when they are free: an increment before any page (15 R393, R404). Nothing begins in the 10 ms before the reset of SYS_RESET (19 R475). -/
def kickStore (s : State) : State :=
  match s.rs.cur, s.rs.incCur, s.pwr.sysResetAt with
  | none, none, none =>
    match s.rs.incs with
    | i :: t => { s with rs := { s.rs with incCur := some { i with since := s.clk.nt }, incs := t } }
    | [] => if s.pwr.recalling then s else beginStore s.rs.queue.length s
  | _, _, _ => s

/-- Page stores are requested, in the order given (15 R393). -/
def requestStores (s : State) (pages : List Nat) (who : StoreFor) : State :=
  let reqs := (indexed pages).map (fun p => ({ page := p.2, who := who, first := p.1 == 0 } : StoreReq))
  kickStore { s with rs := { s.rs with queue := sortBy (fun q => q.who.rank) (s.rs.queue ++ reqs) } }

/-- An owner writes its page: the bytes, the header words it sets, and, where asked, a request to store it (15 R390, R394). -/
def applyOwner (s : State) (w : OwnerWrite) : State :=
  let s := { s with rs := { s.rs with
      work := writeSpan s.rs.work (pageBase w.page + w.off) w.bytes
      head := insertAt s.rs.head w.page w.head
      dirty := setBit s.rs.dirty w.page true } }
  if w.store then requestStores s [w.page] .owner else s

/-- An owner's write, which waits while its page is being stored (15 R394). -/
def ownerWrite (s : State) (w : OwnerWrite) : State :=
  if beingStored s w.page then { s with rs := { s.rs with waiting := s.rs.waiting ++ [w] } } else applyOwner s w

/-- The store in progress completes: the shadow page takes data and header, and the owner's waiting writes follow (15 R393, R394). -/
def completeStore (s : State) : State :=
  match s.rs.cur with
  | none => s
  | some c =>
    let s := advanceTo s (c.since + 25)
    let s := { s with rs := { s.rs with cur := none, shadow := insertAt s.rs.shadow c.page c.image } }
    let mine := s.rs.waiting.filter (fun w => w.page == c.page)
    let s := { s with rs := { s.rs with waiting := s.rs.waiting.filter (fun w => w.page != c.page) } }
    let s := mine.foldl applyOwner s
    let s := if s.rs.queue.any (fun q => q.who == c.who) then s else storeEnds s c.who 0
    kickStore s

/-- A page of the power-fail store is still to be stored or is being stored. -/
def failStores (s : State) : Bool :=
  (match s.rs.cur with | some c => c.who == .powerFail | none => false) || s.rs.queue.any (fun q => q.who == .powerFail)

/-! Page 0 (15 R400, Table 15-5). -/

/-- A word of page 0 changes, and the page is stored at once. -/
def setPage0 (s : State) (off n v : Nat) : State :=
  ownerWrite s { page := 0, off := off, bytes := natLe n v, head := { fmt := 1, len := 0x120, w0 := 0, w1 := 0, w2 := 0 }, store := true }

/-- A word of page 0. -/
def page0 (s : State) (off : Nat) : Nat := leNat (readBytes s.rs.work off 4)

/-! Counters (15 R402 to R405). -/

/-- Cell i of counter c. -/
def cellOf (s : State) (c i : Nat) : Cell := getD { value := 0, good := true } s.rs.cells (32 * c + i)

/-- The valid cells of a counter, as (index, value). -/
def goodCells (s : State) (c : Nat) : List (Nat × Nat) :=
  ((List.range 32).map (fun i => (i, cellOf s c i))).filterMap (fun p => if p.2.good then some (p.1, p.2.value) else none)

/-- A counter with no valid cell is failed (15 R404). -/
def ctrFailed (s : State) (c : Nat) : Bool := (goodCells s c).isEmpty

/-- The value of a counter: the highest of its valid cells, 0xFFFF_FFFF when failed (15 R403, R404). -/
def ctrValue (s : State) (c : Nat) : Nat := if ctrFailed s c then 0xFFFFFFFF else maxOf ((goodCells s c).map (fun p => p.2))

/-- The current cell: the lowest-numbered valid cell that holds the value (15 R403). -/
def ctrCell (s : State) (c : Nat) : Nat :=
  match (goodCells s c).find? (fun p => p.2 == ctrValue s c) with
  | some p => p.1
  | none => 0

/-- Whether an increment of the counter is refused (15 R404). -/
def ctrRefuses (s : State) (c : Nat) : Bool := ctrFailed s c || ctrValue s c == 0xFFFFFFFF

/-- An increment is requested; one that is refused raises COUNTER_FAILED (15 R404, 18 Table 18-5). In HOLD none is taken but those of step 1 (19 Table 19-6; notes/assumptions/51). -/
def requestInc (s : State) (c : Nat) (why : IncFor) : State :=
  if ctrRefuses s c then raiseFault s 0x01A1 2 7 [word c]
  else if s.pwr.pstate = 6 then s
  else kickStore { s with rs := { s.rs with incs := s.rs.incs ++ [{ counter := c, why := why, since := 0 }] } }

/-- The increment in progress programs the cell after the current one with the value plus 1 (15 R403). -/
def programCell (s : State) (c : Nat) : State :=
  let next := (ctrCell s c + 1) % 32
  { s with rs := { s.rs with cells := setD { value := 0, good := true } s.rs.cells (32 * c + next) { value := ctrValue s c + 1, good := true } } }

end Sys2Proof.Machine
end

