-- ==== Sys2Proof/Machine/Recorder.lean ====
section
/-! DEFINITION. The event recorder: offering a record under a code, modes, buckets, the ring and its cursor, the excerpt (18_event_recorder R443 to R459). -/
namespace Sys2Proof.Machine

/-- A point as GETP reads it (06 R185, 05 Table 5-2): TX and PROGRAM points from the output image, all others from the input image; an unconfigured point is NOT_CONFIGURED with value 0 (02 R64). -/
def pointEntry (s : State) (p : Nat) : Entry :=
  match s.net.image with
  | none => getD Entry.reset s.pt.input p
  | some n =>
    match (n.pointAt p).kind with
    | 0 => { value := 0, quality := 6, age := 0 }
    | 2 | 3 => getD Entry.reset s.pt.output p
    | _ => getD Entry.reset s.pt.input p

/-- The module codes of 18 Table 18-5. -/
def moduleCode (c : Nat) : Bool :=
  decide (0x0101 ≤ c ∧ c ≤ 0x0107) ||
  [0x0110, 0x0111, 0x0120, 0x0121, 0x0130, 0x0140, 0x0150, 0x0160, 0x0161, 0x0170, 0x0171, 0x0180, 0x0181, 0x0182,
    0x0190, 0x0191, 0x0192, 0x0193, 0x01A0, 0x01A1, 0x01A2, 0x01A3, 0x01A4, 0x01B0, 0x01B1].contains c

/-- The event-table entry of a code as the network image gives it (18 Table 18-4). -/
def rawEvent (s : State) (c : Nat) : EventEntry :=
  let none_ : EventEntry := { mode := 0, excerpt := false, notify := false, depth := 0, rint := 0, list := 0, span := 0 }
  match s.net.image with
  | some n => nth none_ n.events c
  | none => none_

/-- The entry in force: a module code with MODE NONE takes its Evtas default (18 R446). -/
def eventOf (s : State) (c cls : Nat) : EventEntry :=
  let e := rawEvent s c
  if e.mode = 0 && moduleCode c then { e with mode := 1, rint := 0, notify := false, excerpt := decide (2 ≤ cls) } else e

/-- A code is unconfigured when it is a reserved module code, or a vent or program code with MODE NONE (18 R446). -/
def codeConfigured (s : State) (c : Nat) : Bool :=
  if c < 0x0400 then moduleCode c else decide (c ≤ 0x0FFF) && (rawEvent s c).mode != 0

/-- The recorder's bucket of a code, full when it starts (18 R451). -/
def bucketOf (s : State) (c : Nat) (e : EventEntry) (nt : Nat) : Bucket :=
  (lookup s.ev.buckets c).getD { credit := 0, tokens := e.depth, supp := 0, last := nt }

/-- The refill step (18 R450): `elapsed` in µs. -/
def Bucket.refill (b : Bucket) (depth rint elapsed : Nat) : Bucket :=
  let credit := b.credit + elapsed
  let n := credit / (rint * 1000)
  let credit := credit - n * (rint * 1000)
  let tokens := Nat.min depth (b.tokens + n)
  { b with credit := if tokens = depth then 0 else credit, tokens := tokens }

/-- Byte 0x16 of a record (18 Table 18-1). -/
def recFlags (cls : Nat) (replay : Bool) (kind : Nat) (excerpt : Bool) : Nat := cls + 8 * b2n replay + 16 * kind + 64 * b2n excerpt

/-- The body of an EVENT record (18 Table 18-2). -/
def eventBody (supp : Nat) (words : List Word) : Bytes :=
  natLe 4 supp ++ (List.range 9).flatMap (fun i => natLe 4 (nth 0 words i).toNat)

/-- The images from which the points of a record are read: of a record of a replayed cycle, the input image of that cycle's record (01 R49, R50). -/
def recordImages (s : State) (replay : Bool) : State :=
  match replay, s.rp.cycle with
  | true, some r => { s with pt := { s.pt with input := r.entries } }
  | _, _ => s

/-- The body of a CONT record: the values and quality bytes of the list's points, read as GETP reads them (18 Table 18-2, R448). -/
def contBody (s : State) (list : Nat) : Bytes :=
  let pts := match s.net.image with | some n => nth [] n.snapLists list | none => []
  let ents := (List.range 8).map (fun i =>
    let p := nth 0xFFFFFFFF pts i
    if p = 0xFFFFFFFF then { value := 0, quality := 0, age := 0 } else pointEntry s p)
  ents.flatMap (fun e => natLe 4 e.value.toNat) ++ ents.flatMap (fun e => natLe 1 e.quality)

/-- A record, and a CONT record of a SNAPSHOT code, wait for their writing (18 R448, R452). -/
def pushRecord (s : State) (nt cyc code cls source : Nat) (replay : Bool) (supp : Nat) (words : List Word) : State :=
  let e := eventOf s code cls
  let ex := e.excerpt || code == 0x0170
  let r : Rec := { seq := 0, nt := nt, mcc := cyc, code := code, flags := recFlags cls replay 0 ex, source := source, body := eventBody supp words }
  let more := if e.mode = 2 then [{ r with flags := recFlags cls replay 1 ex, body := contBody (recordImages s replay) e.list }] else []
  { s with ev := { s.ev with waiting := s.ev.waiting ++ r :: more } }

/-- The bucket of a code as it stands before an offer at `nt`: refilled with the time since the previous offer (18 R451). -/
def refilled (s : State) (code : Nat) (e : EventEntry) (nt : Nat) : Bucket :=
  let b := bucketOf s code e nt
  if e.rint = 0 then { b with last := nt } else { b.refill e.depth e.rint (nt - b.last) with last := nt }

/-- A record of a code other than a program code is offered (18 R448, R450, R451). Records of class SAFE or HALT and GUARANTEE_EXCEPTION records are written whatever the bucket holds and take no token. -/
def offerRecord (s : State) (nt cyc code cls source : Nat) (replay : Bool) (words : List Word) : State :=
  if !codeConfigured s code then s
  else
    let e := eventOf s code cls
    let b := refilled s code e nt
    let free := e.rint == 0 || decide (4 ≤ cls) || code == 0x0170
    if !free && b.tokens == 0 then
      { s with ev := { s.ev with
          buckets := insertAt s.ev.buckets code { b with supp := satAdd 32 b.supp 1 }
          suppressed := setD 0 s.ev.suppressed code (satAdd 32 (getD 0 s.ev.suppressed code) 1) } }
    else
      let s := { s with ev := { s.ev with buckets := insertAt s.ev.buckets code { b with tokens := if free then b.tokens else b.tokens - 1, supp := 0 } } }
      pushRecord s nt cyc code cls source replay b.supp words

/-- A live record of the module: NT and cycle of now (18 R444). -/
def record (s : State) (code source : Nat) (words : List Word) : State := offerRecord s s.clk.nt (mcc s) code 0 source false words

/-- The MAINTENANCE record of an activity's start or end (19 R476, 18 Table 18-5). -/
def maRecord (s : State) (no : Nat) (fin : Bool) (status : Nat) : State := record s 0x01B0 0 [word no, word (b2n fin), word status]

/-- Activity `no` begins on an object. -/
def maStart (s : State) (no object : Nat) : State := maRecord { s with ma := s.ma ++ [{ no := no, object := object }] } no false 0

/-- Activity `no` on an object ends with a status. -/
def maEnd (s : State) (no object status : Nat) : State :=
  let a : Activity := { no := no, object := object }
  if s.ma.contains a then maRecord { s with ma := s.ma.erase a } no true status else s

/-! The ring (18 R452 to R456). -/

/-- The oldest sequence number in the ring (18 R452). -/
def Ev.oldest (e : Ev) : Nat := Nat.max e.firstSeq (e.new - 65536)

/-- The record of a sequence number, if the ring holds it. -/
def Ev.recordAt (e : Ev) (q : Nat) : Option Rec :=
  match lookup e.ring (q % 65536) with
  | some r => if r.seq = q then some r else none
  | none => none

/-- A record's 64 bytes (18 Table 18-1). -/
def Rec.bytes (r : Rec) : Bytes :=
  natLe 8 r.seq ++ natLe 8 r.nt ++ natLe 4 r.mcc ++ natLe 2 r.code ++ natLe 1 r.flags ++ natLe 1 r.source ++ slice r.body 0 40

/-- The cursor after a ring write: a record overwritten under it moves it to the new oldest (18 R456). -/
def Ev.pushCursor (e : Ev) : Ev :=
  if e.cursor < e.oldest then { e with cursor := e.oldest, ovw := true, lost := wrap32 (e.lost + (e.oldest - e.cursor)) } else e

/-- The cursor loaded with a value (18 R456). -/
def Ev.loadCursor (e : Ev) (c : Nat) : Ev :=
  if c < e.oldest then { e with cursor := e.oldest, ovw := true }
  else if e.new < c then { e with cursor := e.new }
  else { e with cursor := c }

/-- The page of an excerpt place (18 R459). -/
def excerptPage (place : Nat) : Nat := 48 + place / 128

/-- A record is copied into the excerpt; its page is stored when its last place has been written, or at once for a record of class SAFE or HALT (18 R459). -/
def toExcerpt (s : State) (r : Rec) : State :=
  let place := s.ev.index % 2048
  let page := excerptPage place
  let store := place % 128 == 127 || decide (4 ≤ r.flags % 8)
  let s := { s with ev := { s.ev with
      index := s.ev.index + 1
      dirtied := if store then eraseAt s.ev.dirtied page
                 else if bit s.rs.dirty page && (lookup s.ev.dirtied page).isSome then s.ev.dirtied else insertAt s.ev.dirtied page s.clk.nt } }
  ownerWrite s { page := page, off := 64 * (place % 128), bytes := r.bytes, head := { fmt := 1, len := 8192, w0 := 0, w1 := 0, w2 := 0 }, store := store }

/-- Whether an increment of counter 7 is pending or in progress. -/
def granting (s : State) : Bool :=
  (match s.rs.incCur with | some i => i.counter == 7 | none => false) || s.rs.incs.any (fun i => i.counter == 7)

/-- Whether the next record may be written: its number is granted (18 R452). -/
def granted (s : State) : Bool := s.ev.free || decide (s.ev.new < (ctrValue s 7 + 1) * 65536)

/-- Counter 7 is incremented when fewer than 8,192 granted numbers remain (18 R452). -/
def seekGrant (s : State) : State :=
  if !s.ev.free && decide ((ctrValue s 7 + 1) * 65536 - 8192 ≤ s.ev.new) && !granting s then requestInc s 7 .recorder else s

/-- A record is written to the ring under the next sequence number (18 R452, R456, R457, R459). -/
def writeRecord (s : State) (r : Rec) : State :=
  let r := { r with seq := s.ev.new }
  let notify := (eventOf s r.code (r.flags % 8)).notify
  let e := { s.ev with ring := insertAt s.ev.ring (s.ev.new % 65536) r, new := s.ev.new + 1, ntf := s.ev.ntf || notify }
  let s := { s with ev := e.pushCursor }
  let s := if bit r.flags 3 then { s with rp := { s.rp with records := s.rp.records ++ [r] } } else s
  let s := if bit r.flags 6 then toExcerpt s r else s
  seekGrant s

end Sys2Proof.Machine
end

