-- ==== Sys2Proof/Machine/Vent.lean ====
section
/-! DEFINITION. The vent path and the local inputs and outputs: rules, events, injections, fail-safe sets, DI filters and pulse counters, DO levels (09_vent_path_and_faults R259 to R273). -/
namespace Sys2Proof.Machine

/-- The vent path acts in every power state in which a network image is loaded, while CLK_F runs (09 R265). -/
def ventActs (s : State) : Bool := s.clk.running && s.net.image.isSome

/-- The payload length that a frame rule's field needs (09 R261). -/
def VentRule.needs (r : VentRule) : Nat := r.offset + widthBytes r.width

/-- The field of a frame rule, zero-extended (09 Table 9-1, 04 R121). -/
def VentRule.fieldOf (r : VentRule) (data : Bytes) : Nat :=
  if r.width = 0 then b2n (bit (leAt data r.offset 1) r.bitNo) else leAt data r.offset (widthBytes r.width)

/-- The field as the rule reads it: sign-extended to 32 bits where SIGNED is set (09 Table 9-1, 02 R61). -/
def VentRule.readField (r : VentRule) (data : Bytes) : Nat :=
  let w := if r.width = 0 then 1 else 8 * widthBytes r.width
  if r.signed then ofSigned 32 (toSigned w (r.fieldOf data)) else r.fieldOf data

/-- The comparison of 09 Table 9-3. -/
def VentRule.holds (r : VentRule) (data : Bytes) : Bool :=
  let f := r.readField data
  let lt := if r.signed then decide (toSigned 32 f < toSigned 32 r.k) else decide (f < r.k)
  let eq := f == r.k
  match r.op with
  | 0 => eq
  | 1 => !eq
  | 2 => lt
  | 3 => lt || eq
  | 4 => !(lt || eq)
  | 5 => !lt
  | 6 => f &&& r.k != 0
  | _ => f &&& r.k == r.k

/-- Whether a frame matches a frame rule (09 R261). -/
def VentRule.matchesFrame (r : VentRule) (line ident : Nat) (ide fdf : Bool) (e2e : Nat) (data : Bytes) : Bool :=
  (r.allLines || r.line == line) && r.ident == ident && r.ide == ide && r.fdf == fdf &&
  (!r.reqE2e || decide (e2e ≤ 1)) && (r.src != 1 || decide (r.needs ≤ data.length))

/-- What an event makes of a rule's ACTIVE: none leaves it unchanged (09 R262). -/
def VentRule.outcome (r : VentRule) (e : VentEv) : Option Bool :=
  match r.src, e with
  | 1, .frame line ident ide fdf e2e data _ =>
    if r.matchesFrame line ident ide fdf e2e data then
      if r.latch then (if r.holds data then some true else none) else some (r.holds data)
    else none
  | 2, .frame line ident ide fdf e2e data _ => if r.matchesFrame line ident ide fdf e2e data then some true else none
  | 3, .di _ _ raw filt _ => some (bit (if r.raw then raw else filt) r.di)
  | 4, .di rawWas filtWas raw filt _ =>
    let was := bit (if r.raw then rawWas else filtWas) r.di
    let is_ := bit (if r.raw then raw else filt) r.di
    if (bit r.edge 0 && !was && is_) || (bit r.edge 1 && was && !is_) then some true else none
  | _, _ => none

/-- DIO_DIN (09 Table 9-5). -/
def dioDin (s : State) : Nat := s.vn.diRaw + s.vn.diFilt * 65536

/-- The payload of a vent-rule record (18 R447). -/
def VentRule.words (r : VentRule) (e : VentEv) : List Word :=
  match e with
  | .frame line ident _ _ _ data _ =>
    [word line, word ident, word32At data 0, word32At data 4, word (if r.src = 1 then r.readField data else 0)]
  | .remote line _ => [word line]
  | .di _ _ raw filt _ => [word (raw + filt * 65536)]

/-- An injection is requested (09 R265, R267; 03 R101): counted in HOLD, dropped on a line that does not transmit, merged when its entry is queued already, else queued in ascending entry number. -/
def requestInjection (s : State) (entry : Nat) : State :=
  match s.net.image with
  | none => s
  | some n =>
    match n.injs[entry]? with
    | none => s
    | some j =>
      let l := lineOf s j.line
      if s.pwr.pstate = 6 then { s with vn := { s.vn with injDrop := wrap32 (s.vn.injDrop + 1) } }
      else if l.state != 1 && l.state != 2 then setLine s j.line { l with drop := wrap32 (l.drop + 1) }
      else if l.inj.any (fun x => x.entry == entry) then { s with vn := { s.vn with injDrop := wrap32 (s.vn.injDrop + 1) } }
      else
        let s := setLine s j.line { l with inj := insertBy (fun x => x.entry) { entry := entry, tries := 0 } l.inj }
        { s with vn := { s.vn with inj := wrap32 (s.vn.inj + 1) } }

/-- A rule becomes active: it is counted and may be captured, and its actions follow; in the hardware safe state it takes none (09 R262, R266 to R268, R278). -/
def ruleTrips (s : State) (i : Nat) (r : VentRule) (e : VentEv) : State :=
  let s := { s with vn := { s.vn with
      active := setBit s.vn.active i true
      acts := wrap32 (s.vn.acts + 1)
      first := if s.vn.first.isSome then s.vn.first else some i
      firstNt := if s.vn.first.isSome then s.vn.firstNt else s.clk.nt % 2 ^ 32 } }
  if s.ft.hwsafe then s
  else
    let s := if r.actFs then { s with vn := { s.vn with fs := setBit s.vn.fs r.fs true } } else s
    let s := if r.actInj then requestInjection s r.inj else s
    if r.actFlt then raiseFault s (0x0400 + i) r.fltClass 4 (r.words e) else s

/-- The event is evaluated by one rule (09 R262). -/
def evalRule (e : VentEv) (s : State) (i : Nat) (r : VentRule) : State :=
  match r.outcome e with
  | none => s
  | some true => if bit s.vn.active i then s else ruleTrips s i r e
  | some false => { s with vn := { s.vn with active := setBit s.vn.active i false } }

/-- All rules are evaluated on an event, in ascending rule number (09 R263). -/
def evalRules (s : State) (e : VentEv) (i : Nat) (rules : List VentRule) : State :=
  match rules with
  | [] => s
  | r :: t => evalRules (if r.src = 0 then s else evalRule e s i r) e (i + 1) t

/-- An event is offered to the pipeline (09 R263). -/
def offerEvent (s : State) (e : VentEv) : State :=
  if ventActs s then { s with vn := { s.vn with queue := s.vn.queue ++ [e] } } else s

/-- The present DI levels are offered as an event without an edge, so that DI_LEVEL rules equal their levels (09 R262; notes/assumptions/28). -/
def offerLevels (s : State) : State := offerEvent s (.di s.vn.diRaw s.vn.diFilt s.vn.diRaw s.vn.diFilt s.clk.nt)

/-- Fail-safe sets that active rules hold (09 R268). -/
def setsHeld (s : State) : Nat :=
  match s.net.image with
  | none => 0
  | some n => (indexed n.rules).foldl (fun acc p => if p.2.actFs && p.2.src != 0 && bit s.vn.active p.1 then setBit acc p.2.fs true else acc) 0

/-- Every fail-safe set is held active: by a SAFE fault in effect, and from step 2 of its entry on (09 R268, Table 9-8). -/
def allSetsHeld (s : State) : Bool := s.ft.safe || decide (2 ≤ s.ft.entryStep)

/-- The fail-safe sets at a boundary: those that rules hold, and all of them while a SAFE fault is in effect (09 R268, R276). -/
def settleSets (s : State) : State :=
  if s.ft.hwsafe then s
  else { s with vn := { s.vn with fs := if allSetsHeld s then 2 ^ 64 - 1 else setsHeld s } }

/-- Whether a fail-safe set that is active names a point (09 R268). -/
def heldSafe (s : State) (p : Nat) : Bool :=
  match s.net.image with
  | none => false
  | some n => (List.range 64).any (fun i => bit s.vn.fs i && (n.fsSet i).contains p)

/-! Releases (09 R262). -/

/-- ACTIVE of a latched rule returns to 0; other rules are unchanged. -/
def releaseRule (s : State) (i : Nat) : State :=
  match s.net.image with
  | none => s
  | some n =>
    match n.rules[i]? with
    | some r => if r.latch then { s with vn := { s.vn with active := setBit s.vn.active i false } } else s
    | none => s

/-- Every latched rule is released. -/
def releaseAll (s : State) : State := (List.range 1024).foldl releaseRule s

/-! Local I/O (09 R266, R269 to R271). -/

/-- The configuration of DO n. -/
def doCfg (s : State) (n : Nat) : DoCfg :=
  match s.net.image with
  | none => { inUse := false, safe := false, base := none }
  | some i => nth { inUse := false, safe := false, base := none } i.dos n

/-- The lowest active rule that drives DO n, and its level (09 R266). -/
def doRule (s : State) (n : Nat) : Option Bool :=
  match s.net.image with
  | none => none
  | some i =>
    ((indexed i.rules).find? (fun p => p.2.src != 0 && p.2.actDo && p.2.doNo == n && bit s.vn.active p.1)).map (fun p => p.2.doLevel)

/-- Outputs are held safe while the SAFE fault or the hardware safe state is in effect (09 R266, Table 9-8). -/
def outputsSafe (s : State) : Bool := allSetsHeld s || s.ft.hwsafe

/-- The level at DO n (09 R266). -/
def doLevel (s : State) (n : Nat) : Bool :=
  let c := doCfg s n
  if !c.inUse then false
  else if outputsSafe s then c.safe
  else (doRule s n).getD (bit s.vn.doBase n)

/-- DIO_DOUT (09 Table 9-5). -/
def dioDout (s : State) : Nat :=
  packBits ((List.range 16).map (doLevel s)) +
  65536 * packBits ((List.range 16).map (fun n => (doCfg s n).inUse && !outputsSafe s && (doRule s n).isSome))

/-- FILTER of DI n in µs; 0 with no network image. -/
def diFilter (s : State) (n : Nat) : Nat := match s.net.image with | some i => nth 0 i.diFilter n | none => 0

/-- The filtered level of DI n takes a level: a rising edge counts a pulse (09 R269, R271). -/
def setFiltered (s : State) (n : Nat) (v : Bool) : State :=
  if bit s.vn.diFilt n = v then s
  else { s with vn := { s.vn with
      diFilt := setBit s.vn.diFilt n v
      pcnt := if v then modifyNth s.vn.pcnt n (fun c => wrap32 (c + 1)) else s.vn.pcnt } }

/-- A change of the selected levels enters the pipeline as one event (09 R263). -/
def offerChange (was s : State) : State :=
  if was.vn.diRaw = s.vn.diRaw ∧ was.vn.diFilt = s.vn.diFilt then s
  else offerEvent s (.di was.vn.diRaw was.vn.diFilt s.vn.diRaw s.vn.diFilt s.clk.nt)

/-! Meanings. -/

/-- VENT_EVENT: the event at the head of the pipeline is taken, counted and evaluated (09 R263). -/
def execVentEvent (s : State) : Out :=
  match s.vn.queue, s.net.image with
  | e :: t, some n =>
    let s := { s with vn := { s.vn with queue := t, events := wrap32 (s.vn.events + 1) } }
    done (evalRules s e 0 n.rules)
  | _, _ => done s

/-- DI_CHANGE: the synchronised level of a DI changes; a FILTER of 0 passes it on (09 R269). -/
def execDiChange (input : Nat) (level : Bool) (at_ : Nat) (s : State) : Out :=
  if !s.clk.running || 16 ≤ input || bit s.vn.diRaw input = level then done s
  else
    let s := advanceTo s at_
    let t := { s with vn := { s.vn with diRaw := setBit s.vn.diRaw input level, diSince := setNth s.vn.diSince input s.clk.nt } }
    let t := if diFilter s input = 0 then setFiltered t input level else t
    done (offerChange s t)

/-- DI_FILTER_EXPIRY: the filtered level takes a synchronised level stable for FILTER µs (09 R269). -/
def execDiFilterExpiry (input : Nat) (s : State) : Out :=
  if !s.clk.running || 16 ≤ input || bit s.vn.diFilt input = bit s.vn.diRaw input then done s
  else
    let s := advanceTo s (nth 0 s.vn.diSince input + diFilter s input)
    done (offerChange s (setFiltered s input (bit s.vn.diRaw input)))

/-- VNT_RELEASE: a latched rule is released, or with ALL every one (09 R262, Table 9-5). -/
def execVntRelease (value : Word) (s : State) : Out :=
  whilePowered s (if bit value.toNat 31 then releaseAll s else releaseRule s (value.toNat % 1024))

/-- VNT_RELEASE with ALL: every latched rule is released (09 R262, Table 9-5). -/
def execVntReleaseAll (s : State) : Out := whilePowered s (releaseAll s)

/-- The value of VNT_FIRST (09 Table 9-5). -/
def vntFirst (s : State) : Nat := match s.vn.first with | some i => i + 2 ^ 31 | none => 0

/-- The host's read answers with one word. -/
def answer (s : State) (v : Nat) : State := { s with link := { s.link with rdata := [word v], refused := false } }

/-- The side effect of a read of VNT_FIRST: the register is cleared (09 Table 9-5). -/
def clearFirst (s : State) : State := { s with vn := { s.vn with first := none } }

/-- VNT_FIRST_READ: the first active rule is returned and the register cleared (09 R273). -/
def execVntFirstRead (s : State) : Out := whilePowered s (clearFirst (answer s (vntFirst s)))

end Sys2Proof.Machine
end

