-- ==== Sys2Proof/Machine/Points.lean ====
section
/-! DEFINITION. Units out of service, station states at boundaries, and the point images: policies, ranges, RX evaluation at the cut, status points, forces, the exchange (02_units_and_points R57 to R77, 04 Table 4-7). -/
namespace Sys2Proof.Machine

/-! Quality bytes (02 Table 2-13). -/

/-- The state of a quality byte. -/
def qState (q : Nat) : Nat := q % 8

/-- A quality byte of a state and its LIMIT and OVERRANGE flags. -/
def mkQuality (state : Nat) (limit overrange : Bool) : Nat := state + 8 * b2n limit + 16 * b2n overrange

/-- The LIMIT and OVERRANGE bits of a quality byte, in place. -/
def qFlags (q : Nat) : Nat := q &&& 0x18

/-- A quality byte with FORCED set or cleared. -/
def setForced (q : Nat) (f : Bool) : Nat := setBit q 5 f

/-- The age after a cut or boundary that enters no good value (02 R63). -/
def ageOn (a : Nat) : Nat := satAdd 16 a 1

/-- The entry of a forced point (02 Table 2-14 row 1, R69). The table gives state GOOD and age 0 for RX points; the model gives the forced points of the other kinds the same (DESIGN CHOICE, notes/assumptions/111). -/
def forcedEntry (v : Word) : Entry := { value := v, quality := 0x20, age := 0 }

/-- An unconfigured point (02 R64). -/
def Entry.none : Entry := { value := 0, quality := 6, age := 0 }

/-- A value after RANGE_MODE, with LIMIT and OVERRANGE (02 Table 2-11). A NaN lies outside every range and is never clamped (notes/assumptions/29). -/
def applyRange (p : PointRec) (e : ParamEntry) (v : Word) : Word × Bool × Bool :=
  if p.rangeMode = 0 || inRange p.typ e v then (v, false, false)
  else if p.rangeMode = 1 then (v, false, true)
  else if p.typ = 3 && isNan32 v then (v, false, true)
  else if leByType p.typ e.min v then (e.max, true, true)
  else (e.min, true, true)

/-- What a policy makes of the entry held, with a given age: HOLD_LAST keeps value and flags, the others write theirs (02 Table 2-10, R62). -/
def policyEntry (p : PointRec) (e : ParamEntry) (held : Entry) (age : Nat) : Entry :=
  match p.policy with
  | 0 => { value := held.value, quality := 1 + qFlags held.quality, age := age }
  | 1 => { value := e.subst, quality := 2, age := age }
  | _ => { value := e.failsafe, quality := 3, age := age }

/-! Units (02 R73 to R77). -/

/-- A unit's run-time fields in a table of them. -/
def runIn (m : NMap UnitRun) (u : Nat) : UnitRun := getD UnitRun.reset m u

/-- Unit u is effectively out of service. -/
def unitOut (s : State) (u : Nat) : Bool := (unitRun s u).out

/-- The line and address of a STATION unit (02 Table 2-3). -/
def UnitDesc.line (d : UnitDesc) : Nat := fld d.tspec 0 6
/-- The station address of a STATION unit (02 Table 2-3). -/
def UnitDesc.address (d : UnitDesc) : Nat := fld d.tspec 8 6

/-- OOS_INH of every unit in one ascending pass (02 R73). -/
def inheritPass (n : NetImage) (us : List Nat) (m : NMap UnitRun) : NMap UnitRun :=
  match us with
  | [] => m
  | u :: t =>
    let p := runIn m (n.unitAt u).parent
    inheritPass n t (setD UnitRun.reset m u { runIn m u with oosInh := p.oosOwn || p.oosInh })

/-- The own flags after the requests that settle at a boundary (02 R73, R74). -/
def ownFlags (m : NMap UnitRun) (rs : List UnitReq) : NMap UnitRun :=
  match rs with
  | [] => m
  | r :: t => ownFlags (setD UnitRun.reset m r.unit { runIn m r.unit with oosOwn := r.out }) t

/-- SVC_SINCE of the units whose effective state changed (02 R73). -/
def sinceOf (k : Nat) (was m : NMap UnitRun) (us : List Nat) : NMap UnitRun :=
  match us with
  | [] => m
  | u :: t =>
    let r := runIn m u
    sinceOf k was (if r.out = (runIn was u).out then m else setD UnitRun.reset m u { r with svcSince := k }) t

/-- The station state at a boundary, by the state of its line (04 Table 4-7). -/
def stationAtBoundary (r : UnitRun) (lineState : Nat) : UnitRun :=
  let off := lineState == 4 || lineState == 5
  if r.out then { r with station := 4, miss := 0, good := 0 }
  else if r.station = 4 then { r with station := if off then 3 else 2, miss := 0, good := 0 }
  else if off then (if r.station = 3 then r else { r with station := 3, miss := 0, good := 0 })
  else if r.station = 3 then { r with station := 2, miss := 0, good := 0 }
  else r

/-- The windows of a line that a station's address names, as entry numbers. -/
def windowsAt (n : NetImage) (line addr kind : Nat) : List Nat :=
  ((indexed (n.windowsOf line)).filter (fun p => p.2.kind == kind && p.2.address == addr)).map (fun p => p.1)

/-- The reference ALIVE and SYNC of a station's windows are cleared (16 R421). -/
def clearRefs (s : State) (n : NetImage) (line addr : Nat) : State :=
  onLine s line (fun l => { l with e2eRef := (windowsAt n line addr 2).foldl eraseAt l.e2eRef })

/-- The stations move at a boundary; one that enters ABSENT or leaves OUT_OF_SERVICE loses its references (04 Table 4-7, 16 R421). -/
def stationsMove (s : State) (n : NetImage) (us : List Nat) : State :=
  match us with
  | [] => s
  | u :: t =>
    let d := n.unitAt u
    let was := unitRun s u
    let r := if d.typ = 1 then stationAtBoundary was (lineOf s d.line).state else was
    let s := { s with un := { s.un with run := setD UnitRun.reset s.un.run u r } }
    let s := if r.station ≠ was.station ∧ (r.station = 2 ∨ was.station = 4) then clearRefs s n d.line d.address else s
    stationsMove s n t

/-- Forces released because their unit is out of service, those that were due included; each writes FORCE_RELEASED (02 R71). Two forces that wait on one point write a record each (DESIGN CHOICE, notes/assumptions/113). -/
def releaseForces (s : State) (n : NetImage) : State :=
  let gone := fun (p : Nat) => unitOut s (n.pointAt p).unit
  let due := (s.pt.forceReq.filter (fun r => r.value.isSome && gone r.point)).map (fun r => r.point)
  let held := (s.pt.forces.map (fun p => p.1)).filter gone
  let all := held ++ due.filter (fun p => !held.contains p)
  let s := { s with pt := { s.pt with
      forces := s.pt.forces.filter (fun p => !gone p.1)
      forceReq := s.pt.forceReq.filter (fun r => !(r.value.isSome && gone r.point)) } }
  all.foldl (fun s p => record s 0x0171 0 [word p]) s

/-- Forces and releases that were accepted take effect (02 R69). -/
def applyForces (m : NMap Word) (rs : List ForceReq) : NMap Word :=
  match rs with
  | [] => m
  | r :: t => applyForces (match r.value with | some v => insertAt m r.point v | none => eraseAt m r.point) t

/-- Unit service settles at boundary k, then forces (02 R71, R73). The replies to the requests are made by the caller. -/
def settleUnits (s : State) (n : NetImage) (k : Nat) : State :=
  let us := List.range n.units.length
  let was := s.un.run
  let m := sinceOf k was (inheritPass n (us.drop 1) (ownFlags was s.un.requests)) us
  let s := { s with un := { s.un with run := m, requests := [] } }
  let s := stationsMove s n us
  let s := releaseForces s n
  { s with pt := { s.pt with forces := applyForces s.pt.forces s.pt.forceReq, forceReq := [] } }

/-! RX points at the cut (02 R61, R65, R66). -/

/-- What the source window of an RX point holds at the cut. -/
inductive Arrival where
  | none
  | failed
  | good (raw : Word)
deriving DecidableEq, Repr

/-- A received field widened to the point's type (02 R61). -/
def widen (typ width bitNo : Nat) (data : Bytes) (off : Nat) : Word :=
  let w := if width = 0 then 1 else 8 * widthBytes width
  let x := if width = 0 then b2n (bit (leAt data off 1) bitNo) else leAt data off (widthBytes width)
  if typ = 1 ∨ typ = 4 then word (ofSigned 32 (toSigned w x)) else word x

/-- The arrival at an RX point's source window in a receive bank; a frame too short for the field counts as none (04 R120). -/
def arrival (n : NetImage) (bank : NMap Buf) (p : PointRec) : Arrival :=
  match n.windowOfPoint p with
  | Option.none => .none
  | some w =>
    match lookup bank w.buf with
    | Option.none => .none
    | some b =>
      if !b.valid || decide (dlcLen b.fdf b.dlc < p.srcOffset + widthBytes p.srcWidth) then .none
      else if 2 ≤ b.e2e then .failed
      else .good (widen p.typ p.srcWidth p.srcBit b.data p.srcOffset)

/-- The station that a point's source window names. -/
def sourceStation (n : NetImage) (p : PointRec) : Option Nat :=
  match n.windowOfPoint p with
  | Option.none => Option.none
  | some w => n.stationAt p.srcLine w.address

/-- Rows 3 to 8 of 02 Table 2-14. -/
def trackStep (p : PointRec) (e : ParamEntry) (gone : Bool) (a : Arrival) (t : Track) : Track :=
  let age := ageOn t.entry.age
  let late := decide (p.ageLimit < age)
  if gone then { t with entry := policyEntry p e t.entry age }
  else
    match a with
    | .good raw =>
      if p.typ = 3 && isNan32 raw then
        let x := if late then policyEntry p e t.entry age
                 else { value := t.entry.value, quality := (if t.everGood then 1 else 7) + qFlags t.entry.quality, age := age }
        { t with entry := { x with quality := setBit x.quality 4 true } }
      else
        let r := applyRange p e raw
        { entry := { value := r.1, quality := mkQuality 0 r.2.1 r.2.2, age := 0 }, everGood := true }
    | .failed =>
      { t with entry := if late then policyEntry p e t.entry age else { value := t.entry.value, quality := 5 + qFlags t.entry.quality, age := age } }
    | .none =>
      { t with entry := if late then policyEntry p e t.entry age
                        else { value := t.entry.value, quality := (if t.everGood then 1 else 7) + qFlags t.entry.quality, age := age } }

/-- The track of a point. -/
def trackOf (s : State) (p : Nat) : Track := (lookup s.pt.track p).getD { entry := Entry.reset, everGood := false }

/-- The tracked entry of an RX point after the cut (02 R66): the frames of a station out of service count as none. -/
def rxTrack (s : State) (n : NetImage) (p : Nat) : Track :=
  let r := n.pointAt p
  let st := match sourceStation n r with | some u => unitRun s u | Option.none => UnitRun.reset
  let gone := st.station == 2 || st.station == 3
  let a := if st.out then .none else arrival n (lineOf s r.srcLine).prev r
  trackStep r (n.paramOf r) (!st.out && gone) a (trackOf s p)

/-- The input-image entry of an RX point after the cut, by its tracked entry (02 Table 2-14 rows 1 and 2). In row 2 the policy starts from the value and age that the input image shows, also where a force stood there, and not from the tracked entry (DESIGN CHOICE, notes/assumptions/112). -/
def rxEntry (s : State) (n : NetImage) (p : Nat) (t : Track) : Entry :=
  let r := n.pointAt p
  let held := getD Entry.reset s.pt.input p
  let out := unitOut s r.unit || (match sourceStation n r with | some u => unitOut s u | Option.none => false)
  match lookup s.pt.forces p with
  | some v => forcedEntry v
  | Option.none =>
    if out then
      let x := policyEntry r (n.paramOf r) held (ageOn held.age)
      { x with quality := 4 + qFlags x.quality }
    else t.entry

/-- Points of a kind, in ascending ID. -/
def pointsOf (n : NetImage) (kind : Nat) : List Nat :=
  (List.range n.points.length).filter (fun p => (n.pointAt p).kind == kind)

/-- The cut of the RX points (02 R65). -/
def cutRx (s : State) (n : NetImage) (ps : List Nat) : State :=
  match ps with
  | [] => s
  | p :: t =>
    let x := rxTrack s n p
    let e := rxEntry s n p x
    cutRx { s with pt := { s.pt with track := insertAt s.pt.track p x, input := setD Entry.reset s.pt.input p e } } n t

/-! Status points (02 R58). -/

/-- Units of a subtree, the unit itself included. -/
def subtree (n : NetImage) (u : Nat) : List Nat :=
  (List.range ((n.unitAt u).subtreeEnd + 1 - u)).map (fun i => u + i)

/-- The value of status point `role` of unit u (02 Table 2-6). -/
def statusValue (s : State) (n : NetImage) (u role : Nat) : Nat :=
  let us := subtree n u
  let st := us.filter (fun v => (n.unitAt v).typ == 1)
  match role with
  | 0 => (st.filter (fun v => (unitRun s v).station == 0)).length
  | 1 => (st.filter (fun v => let x := (unitRun s v).station; x == 1 || x == 2 || x == 3)).length
  | 2 => (us.filter (unitOut s)).length
  | _ =>
    sumOf (us.map (fun v =>
      let d := n.unitAt v
      ((List.range d.pointCount).filter (fun i =>
        let p := d.firstPoint + i
        (n.pointAt p).kind == 1 &&
          (let q := qState (getD Entry.reset s.pt.input p).quality
           q != 0 && q != 4))).length))

/-- The status points at the cut, after the RX points (02 R58). -/
def cutStatus (s : State) (n : NetImage) (ps : List Nat) : State :=
  match ps with
  | [] => s
  | p :: t =>
    let r := n.pointAt p
    let e : Entry := { value := word (statusValue s n r.unit (fld r.source 0 2)), quality := if unitOut s r.unit then 4 else 0, age := 0 }
    cutStatus { s with pt := { s.pt with input := setD Entry.reset s.pt.input p e } } n t

/-- A point other than RX takes a value, quality and age at the cut: a force stands before it (02 R67, R69). -/
def putInput (s : State) (p : Nat) (v : Word) (quality : Nat) : State :=
  let held := getD Entry.reset s.pt.input p
  let e : Entry := match lookup s.pt.forces p with
    | some f => forcedEntry f
    | Option.none => { value := v, quality := quality, age := if qState quality = 0 then 0 else ageOn held.age }
  { s with pt := { s.pt with input := setD Entry.reset s.pt.input p e } }

/-! The exchange (01 R36, R37; 02 R67, R69). -/

/-- An entry of the working image as it enters the output image: RANGE_MODE for TX points, forces, the FORCED bit (02 R67, R69). -/
def exchanged (s : State) (n : NetImage) (p : Nat) : Entry :=
  let r := n.pointAt p
  match lookup s.pt.forces p with
  | some v => forcedEntry v
  | Option.none =>
    let e := getD Entry.reset s.pt.working p
    let e := { e with quality := setForced e.quality false }
    if r.kind = 2 then
      let x := applyRange r (n.paramOf r) e.value
      { e with value := x.1, quality := setBit (setBit e.quality 3 (bit e.quality 3 || x.2.1)) 4 (bit e.quality 4 || x.2.2) }
    else e

/-- The images exchange roles: every TX and PROGRAM point of the working image enters the output image, and the working image takes the new output image, with the age each point has if the program does not write it (01 R34 steps 3 and 6). -/
def exchange (s : State) (n : NetImage) : State :=
  let ps := pointsOf n 2 ++ pointsOf n 3
  let out := ps.foldl (fun m p => setD Entry.reset m p (exchanged s n p)) s.pt.output
  let wrk := ps.foldl (fun m p => let e := getD Entry.reset out p; setD Entry.reset m p { e with age := ageOn e.age }) s.pt.working
  { s with pt := { s.pt with output := out, working := wrk } }

/-- An exchange that is withheld: the output image stays, ages advance, and the working image keeps what was written (01 R37; notes/assumptions/30). -/
def withhold (s : State) (n : NetImage) : State :=
  let ps := pointsOf n 2 ++ pointsOf n 3
  let out := ps.foldl (fun m p => let e := getD Entry.reset m p; setD Entry.reset m p (if bit e.quality 5 then e else { e with age := ageOn e.age })) s.pt.output
  let wrk := ps.foldl (fun m p => let e := getD Entry.reset m p; setD Entry.reset m p { e with age := if e.age = 0 then 0 else ageOn e.age }) s.pt.working
  { s with pt := { s.pt with output := out, working := wrk } }

/-- A SOLVER point enters the input image: its tracked entry, or its force (02 R67, R69; notes/assumptions/45). -/
def putSolver (s : State) (p : Nat) (e : Entry) : State :=
  { s with pt := { s.pt with
      track := insertAt s.pt.track p { trackOf s p with entry := e }
      input := setD Entry.reset s.pt.input p (match lookup s.pt.forces p with | some v => forcedEntry v | Option.none => e) } }

/-- SOLVER points at the cut: the age increases (02 R67). -/
def cutSolver (s : State) (n : NetImage) : State :=
  (pointsOf n 5).foldl (fun s p => let t := (trackOf s p).entry; putSolver s p { t with age := ageOn t.age }) s

/-- A forced SOLVER point stands in the output image; once released, its tracked entry stands there (02 R69; notes/assumptions/45). -/
def forceSolver (s : State) (n : NetImage) : State :=
  (pointsOf n 5).foldl (fun s p =>
    let was := getD Entry.reset s.pt.output p
    let e := match lookup s.pt.forces p with
      | some v => forcedEntry v
      | Option.none => if bit was.quality 5 then (trackOf s p).entry else was
    { s with pt := { s.pt with output := setD Entry.reset s.pt.output p e } }) s

/-- The DO base values after an exchange (09 R270). -/
def doBases (s : State) : Nat :=
  packBits ((List.range 16).map (fun i =>
    match (doCfg s i).base with
    | some p => (getD Entry.reset s.pt.output p).value.getLsbD 0
    | Option.none => false))

/-! Image load (02 R64). -/

/-- The images at network image load: every configured point at SUBST, INITIAL, age 0 (02 R64). The working image holds the age a point has when the program does not write it. -/
def loadPoints (n : NetImage) : Points :=
  let ps := (List.range n.points.length).filter (fun p => (n.pointAt p).kind != 0)
  let e := fun (p : Nat) => ({ value := (n.paramOf (n.pointAt p)).subst, quality := 7, age := 0 } : Entry)
  let img := ps.foldl (fun (m : NMap Entry) p => setD Entry.reset m p (e p)) []
  let outs := ps.filter (fun p => (n.pointAt p).kind == 2 || (n.pointAt p).kind == 3)
  { input := img, output := img
    working := outs.foldl (fun (m : NMap Entry) p => setD Entry.reset m p { e p with age := 1 }) []
    track := ps.filterMap (fun p => if (n.pointAt p).kind = 1 ∨ (n.pointAt p).kind = 5 then some (p, { entry := e p, everGood := false }) else Option.none)
    forces := [], forceReq := [] }

/-- The units at network image load: in service, stations ABSENT (02 Table 2-2, 04 Table 4-7). -/
def loadUnits : Units := { run := [], atBoundary := [], requests := [] }

end Sys2Proof.Machine
end

