-- ==== Sys2Proof/Machine/Handling.lean ====
section
/-! DEFINITION. The handling of faults by class, the SAFE entry and its exit, the watchdogs, and what raises faults directly (09_vent_path_and_faults R274 to R280, 01 R23). -/
namespace Sys2Proof.Machine

/-- The SOURCE of a fault's record (18 Table 18-1). -/
def sourceOf (code : Nat) : Nat :=
  if 0x0400 ≤ code ∧ code ≤ 0x07FF then 4
  else
    match code with
    | 0x0105 => 4
    | 0x0110 | 0x0120 | 0x0121 => 1
    | 0x0130 => 3
    | 0x0140 => 2
    | 0x0160 | 0x0161 => 8
    | 0x0191 => 5
    | 0x01A0 | 0x01A1 | 0x01A2 | 0x01A3 => 7
    | _ => 0

/-- Records that wait are written while numbers are granted (18 R452). -/
def flushRecords (fuel : Nat) (s : State) : State :=
  match fuel, s.ev.waiting with
  | 0, _ => s
  | _, [] => s
  | f + 1, r :: t =>
    if s.ev.started && granted s then flushRecords f (writeRecord { s with ev := { s.ev with waiting := t } } r) else s

/-- Step 2 of the SAFE entry: every fail-safe set is active, and the DOs are at their safe levels; then step 3: FAULT_N and SAFE (09 Table 9-8). -/
def safeEntryStep (s : State) : State :=
  if s.ft.entryStep = 1 then { s with vn := { s.vn with fs := 2 ^ 64 - 1 }, ft := { s.ft with entryStep := 2 } }
  else { s with ft := { s.ft with safe := true, entryStep := 3 } }

/-- The last part of step 4 of the SAFE entry: SAFE_ENTRY is cleared (09 Table 9-8). -/
def safeEntryEnds (s : State) : State := { s with ft := { s.ft with entry := none, entryStep := 0 } }

/-- The handling in progress is a SAFE entry with a step still to come before its fault is recorded. -/
def entryGoesOn (s : State) (f : FaultItem) : Bool := f.cls == 4 && s.ft.entry.isSome && decide (s.ft.entryStep < 3)

/-- The handling of a fault by its class (09 Table 9-6, R276, R278). -/
def handleFault (s : State) (f : FaultItem) : State :=
  let s := offerRecord s f.nt f.mcc f.code f.cls f.source f.replay f.words
  let s := pendClass s f.cls
  if f.cls = 5 then enterHwSafe (flushRecords s.ev.waiting.length s) (if f.code = 0x0106 then 5 else 8)
  else if f.cls = 4 && s.ft.entry.isSome then safeEntryEnds s
  else s

/-- The handling at the head is complete, and the next one follows (09 R276). -/
def handledHead (s : State) : State := nextHandling { s with ft := { s.ft with stack := s.ft.stack.drop 1 } }

/-! Meanings. -/

/-- FAULT_RAISED: a fault is raised with its code, its class and its payload (09 R275, R276). -/
def execFaultRaised (code cls : Nat) (words : List Word) (s : State) : Out :=
  if s.clk.running then done (raiseFault s code (faultClass s code cls) (sourceOf code) words) else done s

/-- FAULT_HANDLING: the handling in progress makes one step of the SAFE entry, or is completed (09 R276, Table 9-8). -/
def execFaultHandling (s : State) : Out :=
  match s.ft.stack with
  | [] => done s
  | f :: _ => done (if entryGoesOn s f then safeEntryStep s else handledHead (handleFault s f))

/-- SAFE_ENTRY_WATCHDOG: an entry that stands for 100 µs ends in the hardware safe state, fault SAFE_ENTRY (09 R277). -/
def execSafeEntryWatchdog (s : State) : Out :=
  match s.ft.entry with
  | none => done s
  | some t => done (enterHwSafe (pendClass (countFault (advanceTo s (t + 100)) 0x0107 5) 5) 7)

/-- CLOCK_LOSS: the reference clock or the lock of the PLL is lost, a HALT fault that the vent path acts on directly (01 R23, 09 Table 9-7). -/
def execClockLoss (pll : Bool) (s : State) : Out :=
  if pll then
    let t := { s with clk := { s.clk with pllOk := false } }
    done (if s.clk.running && s.clk.pllOk then raiseFault t 0x0102 5 0 [] else t)
  else
    let t := { s with clk := { s.clk with refOk := false } }
    done (if s.clk.running && s.clk.refOk then raiseFault t 0x0101 5 0 [] else t)

/-- LOCKSTEP_MISMATCH: the two supervisor cores differ, a HALT fault that the vent path acts on directly (09 Table 9-7). -/
def execLockstepMismatch (s : State) : Out := done (if s.clk.running then raiseFault s 0x0103 5 0 [] else s)

/-- Single-bit errors corrected on reads are counted, in the central store, the bulk memory and the tile memories: how many there were is free; values are unaffected (01 R28, R29; notes/assumptions/103). -/
def countCorrected (s : State) : State :=
  let found := fun (i : Nat) => (Config.freeWord (s.free + i)).toNat
  { s with
    ft := { s.ft with eccCentral := s.ft.eccCentral + found 0, eccBulk := s.ft.eccBulk + found 1 }
    sv := { s.sv with singleBit := wrap32 (s.sv.singleBit + found 2) }
    free := s.free + 3 }

/-- SCRUB_PASS: the scrubber reads every word of the central store and corrects single-bit errors; what the module has corrected since the last pass is counted (01 R28, R29). -/
def execScrubPass (s : State) : Out := if s.clk.running then done (countCorrected s) else done s

/-- Whether the power state has heartbeats of its own: START from READY on, TEST and RECOVERY (09 R278). -/
def beats (s : State) : Bool := s.clk.running && !s.ft.hwsafe && (s.pwr.pstate == 4 || s.pwr.pstate == 5 || (s.pwr.pstate == 2 && s.pwr.ready))

/-- HEARTBEAT: outside RUN the heartbeat is written 1,000 ms after the one before (09 R278). -/
def execHeartbeat (s : State) : Out :=
  if !beats s then done s
  else
    let s := match s.ft.beat with
      | some b => advanceTo s (b + 1000000)
      | none => s
    done { s with ft := { s.ft with beat := some s.clk.nt } }

/-- SUP_WDOG: a heartbeat missing for 2 × L in RUN, or for 2,000 ms in START, TEST and RECOVERY, is a HALT fault (09 R278). -/
def execSupWdog (s : State) : Out :=
  match s.ft.beat with
  | none => done s
  | some b =>
    if beats s then done (raiseFault (advanceTo s (b + 2000000)) 0x0106 5 0 [])
    else if inRun s && !s.ft.hwsafe then done (raiseFault (advanceTo s (b + 2 * cycleLen s)) 0x0106 5 0 [])
    else done s

/-- A write of SAFE_EXIT requests the exit and clears EXIT_REFUSED (09 R276, Table 9-9). -/
def requestExit (s : State) : State := { s with ft := { s.ft with safeExit := true, exitRefused := false } }

/-- SAFE_EXIT: the exit from the SAFE fault is requested (09 R276). -/
def execSafeExit (s : State) : Out := whilePowered s (requestExit s)

/-- A rule with ACT_FLT and FLT_CLASS SAFE is active (09 R276). -/
def ruleCause (s : State) : Bool :=
  match s.net.image with
  | none => false
  | some n => (indexed n.rules).any (fun p => p.2.src != 0 && p.2.actFlt && p.2.fltClass == 4 && bit s.vn.active p.1)

/-- A task that R145 stopped has not completed an execution since (09 R276). -/
def stoppedCause (s : State) : Bool := s.ce.fast.stopped || s.ce.network.stopped || s.ce.slow.stopped

/-- A cause of a SAFE fault is present (09 R276). -/
def safeCausePresent (s : State) : Bool := ruleCause s || stoppedCause s

/-- The instants at which an exit is decided: a boundary, or a heartbeat where there are no boundaries (09 R276). -/
def exitInstant (s : State) : Bool := (cycling s && s.clk.nt == cycleStart s) || (beats s && s.ft.beat == some s.clk.nt)

/-- SAFE_EXIT_DECISION: the exit is made or refused, with a SAFE_EXIT record; without a SAFE fault the request is cleared (09 R276). -/
def execSafeExitDecision (s : State) : Out :=
  if !s.ft.safeExit || s.ft.entry.isSome || s.ft.hwsafe || !exitInstant s then done s
  else
    let s := { s with ft := { s.ft with safeExit := false } }
    if !s.ft.safe then done s
    else if safeCausePresent s then done (record { s with ft := { s.ft with exitRefused := true } } 0x01B1 0 [1])
    else done (record (settleSets { s with ft := { s.ft with safe := false } }) 0x01B1 0 [0])

end Sys2Proof.Machine
end

