-- ==== Sys2Proof/Machine/Operands.lean ====
section
/-! DEFINITION. The operands of block instances: variables, constants and instance outputs, the point images and unit states as programs read them, the instance state in the variable area (05_cycle_engine R137 to R144, Tables 5-2 and 5-11; 06_block_library R162 to R167, R185). -/
namespace Sys2Proof.Machine

/-- A signal: a value and its quality byte (06 R167). -/
structure Sig where
  value : Word
  quality : Nat
deriving DecidableEq, Repr

/-! The variable area, in words. -/

/-- A word of a variable area. -/
def areaWord (m : NMap Word) (w : Nat) : Word := getD 0 m w

/-- A word of a variable area is written. -/
def setArea (m : NMap Word) (w : Nat) (v : Word) : NMap Word := setD 0 m w v

/-- Words of a variable area in ascending order. -/
def areaWords (m : NMap Word) (w n : Nat) : List Word := (List.range n).map (fun i => areaWord m (w + i))

/-- Words are written in ascending order. -/
def setWords (m : NMap Word) (w : Nat) (vs : List Word) : NMap Word :=
  match vs with
  | [] => m
  | v :: t => setWords (setArea m w v) (w + 1) t

/-- A slot's area as its initial data fills it (05 R152). -/
def initArea (p : ProgImage) : NMap Word := setWords [] 0 (bytesToWords p.initData)

/-- The program slot of a letter: 0 for A, 1 for B. -/
def progSlot (s : State) (i : Nat) : ProgSlot := if i = 0 then s.ce.slotA else s.ce.slotB

/-- A program slot is replaced. -/
def setProgSlot (s : State) (i : Nat) (x : ProgSlot) : State :=
  { s with ce := if i = 0 then { s.ce with slotA := x } else { s.ce with slotB := x } }

/-- The area of the active program is replaced. -/
def setActiveArea (s : State) (a : NMap Word) : State := setProgSlot s s.ce.active { progSlot s s.ce.active with area := a }

/-! Where the parts of an instance's state lie (06 R166). -/

/-- The number of outputs of an instance. -/
def Inst.outputs (i : Inst) : Nat := ((blockShape i.block).map (fun x => x.outputs)).getD 0

/-- Words of block-specific state. -/
def Inst.specWords (i : Inst) : Nat := ((blockShape i.block).map (fun x => x.specific / 4)).getD 0

/-- The word of output slot o. -/
def Inst.slotWord (i : Inst) (o : Nat) : Nat := i.stateOfs / 4 + 2 * o

/-- The word of FLAGS. -/
def Inst.flagWord (i : Inst) : Nat := i.slotWord i.outputs

/-- The first word of the block-specific state. -/
def Inst.specWord (i : Inst) : Nat := i.flagWord + 2

/-- An output slot (06 Table 6-3). -/
def slotSig (m : NMap Word) (i : Inst) (o : Nat) : Sig :=
  { value := areaWord m (i.slotWord o), quality := (areaWord m (i.slotWord o + 1)).toNat % 256 }

/-! Inputs. -/

/-- The source of an input: an element of a variable by its word, a constant, or an output (05 Table 5-11). -/
def inputSig (p : ProgImage) (m : NMap Word) (e : Exec) (task : Nat) (ref : Word) : Sig :=
  let x := ref.toNat
  let ix := x % 2 ^ 30
  match x / 2 ^ 30 with
  | 0 =>
    let own := match p.varAt ix with | some v => v.owner == task | none => true
    { value := if own then areaWord m ix else (lookup e.snap ix).getD 0, quality := 0 }
  | 1 => { value := nth 0 p.args ix, quality := 0 }
  | _ => slotSig m (p.instAt (ix % 2 ^ 17)) (fld ix 17 4)

/-- The declared type of an input's source; a constant without one is FP32 (06 R164). -/
def inputType (n : NetImage) (p : ProgImage) (ref : Word) : SigType :=
  let x := ref.toNat
  let ix := x % 2 ^ 30
  match x / 2 ^ 30 with
  | 0 => match p.varAt ix with | some v => v.sigType | none => tFp
  | 1 => tFp
  | _ =>
    let src := p.instAt (ix % 2 ^ 17)
    nth tFp (outputTypes src.block src.types (instPointType n src)) (fld ix 17 4)

/-- The snapshot that a task takes of the published copies of the other tasks' exports, by the words of their working copies (05 R138). -/
def takeSnap (p : ProgImage) (m : NMap Word) (task : Nat) : NMap Word :=
  (p.vars.filter (fun v => v.exported && v.owner != task)).foldl (fun acc v =>
    (List.range v.length).foldl (fun acc i => insertAt acc (v.offset / 4 + i) (areaWord m (v.offset / 4 + v.length + i))) acc) []

/-- The exports of a task are published: working copies are copied to published copies (05 R138). -/
def publishArea (p : ProgImage) (m : NMap Word) (task : Nat) : NMap Word :=
  (p.vars.filter (fun v => v.exported && v.owner == task)).foldl (fun m v =>
    setWords m (v.offset / 4 + v.length) (areaWords m (v.offset / 4) v.length)) m

/-! Points and units as programs read them. -/

/-- The input image that programs read: in REPLAY that of the record (01 R49). -/
def progInput (s : State) : NMap Entry :=
  match s.rp.cycle with
  | some r => r.entries
  | none => s.pt.input

/-- The unit states of the boundary: in REPLAY those of the record (01 R49). -/
def progUnits (s : State) : NMap UnitRun :=
  match s.rp.cycle with
  | some r => r.units
  | none => s.un.atBoundary

/-- A point as GETP and QUAL read it in an execution (06 R185, 05 Table 5-2, R144). -/
def pointRead (s : State) (n : NetImage) (e : Exec) (p : Nat) : Entry :=
  let input := match e.view with | some v => v.input | none => progInput s
  let output := match e.view with | some v => v.output | none => s.pt.output
  match (n.pointAt p).kind with
  | 0 => Entry.none
  | 2 | 3 => getD Entry.reset output p
  | _ => getD Entry.reset input p

/-- The states of a unit as UNITSTAT reads them in an execution (06 R184, 05 R144). -/
def readUnitRun (s : State) (e : Exec) (u : Nat) : UnitRun :=
  runIn (match e.view with | some v => v.units | none => progUnits s) u

/-- STATION_STATE; it reads 0 for other types (02 Table 2-2). -/
def stationState (n : NetImage) (r : UnitRun) (u : Nat) : Nat := if (n.unitAt u).typ = 1 then r.station else 0

end Sys2Proof.Machine
end

