-- ==== Sys2Proof/Machine/Flags.lean ====
section
/-! DEFINITION. Quality: the rank of states and the quality of block outputs, usable signals, and the LIMIT and OVERRANGE flags that saturation and binary32 results set (06_block_library R168 to R170; 02_units_and_points Table 2-13). -/
namespace Sys2Proof.Machine

/-- The rank of a quality state (06 Table 6-4). -/
def rankOf (state : Nat) : Nat :=
  match state with
  | 0 => 0
  | 1 => 1
  | 2 => 2
  | 5 => 3
  | 7 => 4
  | 3 => 5
  | 4 => 6
  | _ => 7

/-- The states in order of rank. -/
def rankedStates : List Nat := [0, 1, 2, 5, 7, 3, 4, 6]

/-- The highest-ranked state of some quality bytes; GOOD of none. -/
def worstState (qs : List Nat) : Nat := nth 0 rankedStates (maxOf (qs.map (fun q => rankOf (qState q))))

/-- The rule W of R168 over some inputs: highest-ranked state, LIMIT, OVERRANGE and FORCED by OR, and the flags that the block sets itself. -/
def joinQuality (qs : List Nat) (limit overrange : Bool) : Nat :=
  let or := fun (i : Nat) => qs.any (fun q => bit q i)
  worstState qs + 8 * b2n (or 3 || limit) + 16 * b2n (or 4 || overrange) + 32 * b2n (or 5)

/-- A signal is usable: GOOD, STALE or SUBSTITUTED, and no NaN of binary32 (06 R169). -/
def usableSig (fp : Bool) (x : Sig) : Bool := decide (qState x.quality ≤ 2) && !(fp && isNan32 x.value)

/-- A point's entry is usable (06 R169). -/
def usableEntry (fp : Bool) (e : Entry) : Bool := usableSig fp { value := e.value, quality := e.quality }

/-- An output of an integer type or of BOOL. -/
def outWord (qs : List Nat) (v : Word) (limit overrange : Bool) : Sig := { value := v, quality := joinQuality qs limit overrange }

/-- An output of binary32: OVERRANGE where it is a NaN or an infinity (06 R168). -/
def outFloat (qs : List Nat) (v : Word) (limit overrange : Bool) : Sig := { value := v, quality := joinQuality qs limit (overrange || fspecial v) }

/-- An output of BOOL. -/
def outBool (qs : List Nat) (b : Bool) : Sig := outWord qs (word (b2n b)) false false

/-- The limits of an integer type (06 R170). -/
def typeLimits (typ : Nat) : Int × Int :=
  match typ with
  | 0 => (0, 1)
  | 2 => (0, 2 ^ 32 - 1)
  | _ => (-(2 ^ 31), 2 ^ 31 - 1)

/-- The number that a word of an integer type stands for; FIX32 by its raw value. -/
def intOf (typ : Nat) (v : Word) : Int :=
  match typ with
  | 0 => b2n (v.getLsbD 0)
  | 2 => v.toNat
  | _ => toSigned 32 v.toNat

/-- A number saturated to an integer type, and whether it was (06 R170). -/
def satWord (typ : Nat) (x : Int) : Word × Bool :=
  let l := typeLimits typ
  let y := clampInt l.1 l.2 x
  (word (ofSigned 32 y), y != x)

/-- A fraction times a power of two, rounded half to even. -/
def roundFrac (num : Int) (den : Nat) (e : Int) : Int :=
  let n := num.natAbs
  let r := if 0 ≤ e then roundDiv (n * 2 ^ e.toNat) den else roundDiv n (den * 2 ^ (-e).toNat)
  if num < 0 then -(r : Int) else (r : Int)

end Sys2Proof.Machine
end

