-- ==== Sys2Proof/Machine/Mailbox.lean ====
section
/-! DEFINITION. The mailboxes: doorbells, the common checks, acceptance and completion, responses by pages or by DMA; the maintenance activities and their compatibility (12_host_link_and_mailboxes R347 to R355, 13_command_reference R360 to R367, 19 R476 to R478). -/
namespace Sys2Proof.Machine

/-! Statuses (13 Table 13-1). -/

/-- OK. -/
def stOk : Nat := 0x0000
/-- ACCEPTED. -/
def stAccepted : Nat := 0x0001
/-- NOT_READY. -/
def stNotReady : Nat := 0x8001
/-- UNKNOWN_COMMAND. -/
def stUnknown : Nat := 0x8002
/-- BAD_PARAMETER. -/
def stBadParameter : Nat := 0x8003
/-- CONFLICT. -/
def stConflict : Nat := 0x8004
/-- BUSY. -/
def stBusy : Nat := 0x8005
/-- NOT_PERMITTED. -/
def stNotPermitted : Nat := 0x8006
/-- AUTH_FAILED. -/
def stAuthFailed : Nat := 0x8007
/-- BAD_IMAGE. -/
def stBadImage : Nat := 0x8008
/-- BAD_DATE. -/
def stBadDate : Nat := 0x8009
/-- HOLD_LOW. -/
def stHoldLow : Nat := 0x800A
/-- NO_SPACE. -/
def stNoSpace : Nat := 0x800B
/-- KEY_BAD. -/
def stKeyBad : Nat := 0x800C
/-- OVERWRITTEN. -/
def stOverwritten : Nat := 0x800D
/-- DEFERRED_LIMIT. -/
def stDeferredLimit : Nat := 0x800E
/-- ABORTED. -/
def stAborted : Nat := 0x800F

/-! The command tables (13 Tables 13-2 to 13-16). -/

/-- The Mb mark of a command. `split` is the mark of the image commands: mailbox 0 outside RUN, 1–15 in RUN. `tests` is that of the metering and heat group: mailbox 0 only in TEST and RECOVERY, any in RUN. -/
inductive MbMark where
  | zero
  | all
  | numbered
  | split
  | tests
deriving DecidableEq, Repr

/-- The Kind mark of a command; `upload` is S/D, upload, and `longUpload` is L, upload. -/
inductive CmdKind where
  | short
  | long
  | bulk
  | upload
  | longUpload
deriving DecidableEq, Repr

/-- A row of a command table: code, mark, power states, kind, and the argument words that it names, bit n for ARGn. -/
structure CmdRule where
  code : Nat
  mark : MbMark
  states : List Nat
  kind : CmdKind
  args : Nat
deriving DecidableEq, Repr

/-- START, RUN, TEST and RECOVERY. -/
def allStates : List Nat := [2, 3, 4, 5]
/-- RUN, TEST and RECOVERY. -/
def upStates : List Nat := [3, 4, 5]

/-- System, image, unit, point, line and cycle engine commands (13 Tables 13-3 to 13-9). -/
def rulesA : List CmdRule :=
  [⟨0x0101, .all, allStates, .short, 0⟩, ⟨0x0102, .zero, upStates, .long, 1⟩, ⟨0x0103, .zero, allStates, .short, 1⟩,
   ⟨0x0110, .all, allStates, .short, 1⟩, ⟨0x0111, .numbered, [3], .short, 3⟩, ⟨0x0112, .numbered, [3], .long, 0⟩,
   ⟨0x0113, .numbered, [3], .short, 0⟩, ⟨0x0201, .split, allStates, .upload, 15⟩, ⟨0x0202, .split, upStates, .long, 7⟩,
   ⟨0x0203, .all, allStates, .short, 1⟩, ⟨0x0210, .split, upStates, .long, 0⟩, ⟨0x0301, .all, upStates, .bulk, 11⟩,
   ⟨0x0302, .numbered, [3], .long, 3⟩, ⟨0x0303, .all, upStates, .bulk, 15⟩, ⟨0x0304, .all, upStates, .bulk, 11⟩,
   ⟨0x0310, .numbered, [3], .short, 3⟩, ⟨0x0311, .numbered, [3], .short, 1⟩, ⟨0x0312, .all, [3], .bulk, 8⟩,
   ⟨0x0401, .numbered, [3], .long, 3⟩, ⟨0x0402, .all, upStates, .bulk, 15⟩, ⟨0x0403, .all, upStates, .short, 1⟩,
   ⟨0x0501, .all, upStates, .short, 0⟩, ⟨0x0502, .numbered, [3], .long, 0⟩, ⟨0x0503, .all, [3], .short, 0⟩,
   ⟨0x0504, .all, [3], .short, 7⟩]

/-- Solver, metering and heat commands (13 Tables 13-10 and 13-11, 10 Table 10-11, 11 Table 11-6). -/
def rulesB : List CmdRule :=
  [⟨0x0601, .all, upStates, .short, 0⟩, ⟨0x0602, .all, upStates, .short, 0⟩, ⟨0x0603, .all, [3], .bulk, 9⟩,
   ⟨0x0604, .all, [3], .short, 1⟩, ⟨0x0605, .all, upStates, .short, 1⟩, ⟨0x0606, .numbered, [3], .long, 1⟩,
   ⟨0x0701, .tests, upStates, .short, 1⟩, ⟨0x0702, .tests, [3], .long, 1⟩, ⟨0x0703, .tests, upStates, .short, 0⟩,
   ⟨0x0704, .tests, upStates, .short, 0⟩, ⟨0x0705, .tests, [3], .short, 0⟩, ⟨0x0710, .tests, [3], .short, 1⟩,
   ⟨0x0711, .tests, [3], .short, 7⟩, ⟨0x0712, .tests, [3], .long, 3⟩, ⟨0x0713, .tests, [3], .long, 0⟩,
   ⟨0x0714, .tests, [3], .short, 0⟩, ⟨0x0720, .tests, upStates, .bulk, 8⟩, ⟨0x0721, .tests, upStates, .short, 0⟩,
   ⟨0x0741, .tests, upStates, .short, 1⟩, ⟨0x0742, .tests, [3], .long, 1⟩, ⟨0x0743, .tests, upStates, .short, 0⟩,
   ⟨0x0744, .tests, [3], .short, 0⟩]

/-- Time, store, key, recorder, maintenance and replay commands (13 Tables 13-12 to 13-16). -/
def rulesC : List CmdRule :=
  [⟨0x0801, .all, allStates, .short, 0⟩, ⟨0x0802, .zero, allStates, .short, 3⟩, ⟨0x0803, .zero, allStates, .short, 3⟩,
   ⟨0x0804, .all, allStates, .short, 7⟩, ⟨0x0805, .zero, allStates, .short, 1⟩, ⟨0x0901, .all, upStates, .long, 3⟩,
   ⟨0x0902, .all, allStates, .short, 0⟩, ⟨0x0903, .all, allStates, .short, 1⟩, ⟨0x0A01, .zero, upStates, .short, 0⟩,
   ⟨0x0A02, .zero, [3], .short, 1⟩, ⟨0x0A03, .zero, [3], .short, 3⟩, ⟨0x0A04, .zero, [3], .long, 1⟩,
   ⟨0x0A05, .zero, [3], .short, 1⟩, ⟨0x0A06, .all, upStates, .long, 15⟩, ⟨0x0A07, .all, upStates, .short, 1⟩,
   ⟨0x0B01, .all, allStates, .bulk, 15⟩, ⟨0x0B02, .all, allStates, .bulk, 8⟩, ⟨0x0B03, .all, allStates, .short, 1⟩,
   ⟨0x0C01, .all, upStates, .short, 0⟩, ⟨0x0C02, .numbered, [3], .long, 0⟩, ⟨0x0C03, .all, [3], .bulk, 8⟩,
   ⟨0x0C04, .numbered, [3], .longUpload, 7⟩, ⟨0x0C05, .numbered, [3], .upload, 6⟩, ⟨0x0C06, .all, [3], .bulk, 11⟩,
   ⟨0x0C07, .numbered, [3], .long, 0⟩]

/-- The row of a command code. -/
def ruleOf (code : Nat) : Option CmdRule := (rulesA ++ rulesB ++ rulesC).find? (fun r => r.code == code)

/-! Fields of a mailbox (12 Table 12-11). -/

/-- CODE. -/
def Mailbox.code (b : Mailbox) : Nat := b.cmd.toNat % 65536
/-- TAG. -/
def Mailbox.tag (b : Mailbox) : Nat := b.cmd.toNat / 65536
/-- DMA EN. -/
def Mailbox.dmaEn (b : Mailbox) : Bool := bit b.dmaCtl.toNat 0
/-- SG. -/
def Mailbox.sg (b : Mailbox) : Bool := bit b.dmaCtl.toNat 1
/-- List entries of a scatter list. -/
def Mailbox.sgCount (b : Mailbox) : Nat := bits b.dmaCtl.toNat 16 13
/-- MB_DMA_ADDR. -/
def Mailbox.dmaAddr (b : Mailbox) : Nat := b.dmaLo.toNat + 2 ^ 32 * b.dmaHi.toNat
/-- In POSTED, EXEC or ACCEPTED. -/
def Mailbox.inFlight (b : Mailbox) : Bool := b.state == .posted || b.state == .exec || b.state == .accepted
/-- STATE of MB_STAT (12 Table 12-12). -/
def MbState.code : MbState → Nat
  | .idle => 0
  | .posted => 1
  | .exec => 2
  | .accepted => 3
  | .done => 4
/-- The request payload. -/
def Mailbox.request (b : Mailbox) : Bytes := readSpan b.page 0 b.reqLen.toNat

/-! Completion (12 Table 12-13). -/

/-- Step 5a: the mailbox enters DONE with its results (12 R349, R350, R354). -/
def finish (s : State) (n : Nat) (r : Reply) : State :=
  let s := onBox s n (fun b => { b with
    state := .done, status := r.status, rtag := b.cmd
    rspLen := r.page.length, page := writeSpan b.page 0 r.page
    res0 := r.res0 % 2 ^ 32, res1 := r.res1 % 2 ^ 32, res2 := r.res2 % 2 ^ 32, res3 := r.res3 % 2 ^ 32
    time := Nat.min (s.clk.nt - b.bellNt) (2 ^ 32 - 1)
    reply := none, dmaWait := false })
  setIrq { s with glb := { s.glb with cpl := s.glb.cpl ++ [(n, (box s n).tag)] } } n

/-- Step 5b: the mailbox enters ACCEPTED (12 R349). -/
def accept (s : State) (n : Nat) : State := onBox s n (fun b => { b with state := .accepted, status := stAccepted, rtag := b.cmd })

/-- A command is refused with a status. -/
def refuse (s : State) (n status : Nat) : State := finish s n (Reply.of status)

/-- OK with no result. -/
def Reply.ok : Reply := Reply.of stOk

/-- A power state that serves the mailbox (12 R351, Table 12-14). -/
def serves (s : State) (n : Nat) : Bool :=
  s.clk.running && (inRun s || (n == 0 && (s.pwr.pstate == 4 || s.pwr.pstate == 5 || (s.pwr.pstate == 2 && s.pwr.ready))))

/-- Whether the command of a mailbox stands in EXEC with a code, in a power state that serves the mailbox (12 R351). -/
def executes (s : State) (n code : Nat) : Bool :=
  let b := box s n
  b.state == .exec && b.code == code && serves s n

/-- A command in EXEC has made its checks and waits for its instant: a tick end or a tick edge (10 R309, 14 R382). -/
def waitsInExec (s : State) (n : Nat) : Bool :=
  s.mt.reads.any (fun r => r.1 == n) || (match s.rtc.change with | some c => c.mb == n | none => false)

/-- A mailbox has been taken, and its command has not made its own checks yet. -/
def checking (s : State) : Bool :=
  (indexed s.mb.boxes).any (fun p => p.2.state == .exec && serves s p.1 && !waitsInExec s p.1)

/-- The argument words in order. -/
def Mailbox.args (b : Mailbox) : List Word := [b.arg0, b.arg1, b.arg2, b.arg3]

/-- Every argument word that the command does not name is 0 (13 R362). -/
def Mailbox.unnamedZero (b : Mailbox) (args : Nat) : Bool := (indexed b.args).all (fun p => bit args p.1 || p.2 == 0)

/-- The command of a mailbox is carried out: first the check of R362, then its own. -/
def runCommand (s : State) (n code : Nat) (k : Mailbox → State) : Out :=
  if !executes s n code then done s
  else if !(box s n).unnamedZero ((ruleOf code).map (fun r => r.args) |>.getD 15) then done (refuse s n stBadParameter)
  else done (k (box s n))

/-- A response that can exceed one page: by DMA, or a piece by the offset in ARG3 (13 R364). -/
def deliver (s : State) (n : Nat) (r : Reply) (total : Bytes) (gen : Nat) : State :=
  let b := box s n
  if b.dmaEn then
    if b.arg3 ≠ 0 then refuse s n stBadParameter
    else onBox (accept s n) n (fun b => { b with reply := some { r with res2 := gen, body := some total }, dmaWait := true, dmaSince := s.clk.nt })
  else
    let off := b.arg3.toNat
    if off % 4096 ≠ 0 ∨ (off ≠ 0 ∧ total.length ≤ off) then refuse s n stBadParameter
    else finish s n { r with page := (total.drop off).take 4096, res2 := gen, res3 := total.length }

/-! Activities (19 R476 to R478). -/

/-- 19 Table 19-9, row by requested activity, column by running one: 0 —, 1 C, 2 S, 3 B. -/
def compatTable : List (List Nat) :=
  [[3, 0, 1, 0, 0, 0, 0, 0, 0, 0, 1],
   [0, 2, 1, 0, 0, 0, 0, 0, 2, 0, 1],
   [1, 1, 1, 1, 0, 1, 0, 1, 1, 0, 1],
   [0, 0, 1, 1, 0, 0, 0, 0, 0, 1, 1],
   [0, 0, 0, 0, 0, 0, 0, 0, 0, 0, 0],
   [0, 0, 1, 0, 0, 3, 1, 0, 0, 0, 1],
   [0, 0, 0, 0, 0, 1, 1, 0, 0, 0, 1],
   [0, 0, 1, 0, 0, 0, 0, 0, 0, 0, 1],
   [0, 2, 1, 0, 0, 0, 0, 0, 0, 0, 1],
   [0, 0, 0, 1, 0, 0, 0, 0, 0, 1, 1],
   [1, 1, 1, 1, 0, 1, 1, 1, 1, 1, 1]]

/-- The unit has the slot's bit in its SCOPE_MASK, in the network image in force (19 R478). -/
def inScope (s : State) (unit slot : Nat) : Bool :=
  match s.net.image with
  | some n => bit (n.unitAt unit).scopeMask slot
  | none => false

/-- The condition of an S entry (19 R478). -/
def samePlace (s : State) (no object : Nat) (a : Activity) : Bool :=
  if no = 2 ∧ a.no = 2 then object == a.object
  else if no = 2 then inScope s a.object object
  else inScope s object a.object

/-- A request for an activity on an object collides with one that runs (19 R477). -/
def collides (s : State) (no object : Nat) : Bool :=
  s.ma.any (fun a =>
    match nth 0 (nth [] compatTable (no - 1)) (a.no - 1) with
    | 1 => true
    | 2 => samePlace s no object a
    | _ => false)

/-- The activity that ends when a command completes (19 Table 19-8). -/
def activityOf (code : Nat) : Option Nat :=
  match code with
  | 0x0112 => some 4
  | 0x0210 => some 7
  | 0x0502 => some 1
  | 0x0713 => some 10
  | 0x0901 => some 5
  | _ => none

/-- A REPLAY request ends before its data have begun one: MA11, which has run from its acceptance, ends, and so does a RPL_END that waits (13 R367; notes/assumptions/53). -/
def abandonStart (s : State) (status : Nat) : State :=
  let s := maEnd s 11 0 status
  match s.rp.ending with
  | some m => replyTo { s with rp := { s.rp with ending := none } } m Reply.ok
  | none => s

/-! Meanings. -/

/-- GO is set: the mailbox is posted, and its unread completion entry removed (12 Table 12-13 step 3); GO of a mailbox in flight is set already (00 R16). -/
def ringBell (s : State) (n : Nat) : State :=
  if (box s n).inFlight then s
  else
    let s := onBox s n (fun b => { b with state := .posted, bellNt := s.clk.nt })
    { s with
      glb := { s.glb with cpl := s.glb.cpl.filter (fun e => e.1 != n) }
      mb := { s.mb with bells := s.mb.bells ++ [n] } }

/-- MB_DOORBELL: a write of 1 to GO posts the mailbox (12 Table 12-13, step 3); GO of a mailbox in flight is set already. -/
def execMbDoorbell (mb at_ : Nat) (s : State) : Out :=
  if !s.clk.running || 16 ≤ mb || (box s mb).inFlight then done s else done (ringBell (advanceTo s at_) mb)

/-- Check 1 of R352: by power state, by the command's marks (12 R351, 13 R363), and by the ordering code for the metering codes (10 R310). -/
def checkServed (s : State) (n code : Nat) (r : Option CmdRule) : Nat :=
  let p := s.pwr.pstate
  if p = 6 ∨ (p ≠ 3 ∧ n ≠ 0) then stNotReady
  else if !s.part.m40 && decide (0x0700 ≤ code ∧ code ≤ 0x073F) then stNotPermitted
  else
    match r with
    | none => stOk
    | some r =>
      let mark := match r.mark with
        | .zero => n == 0
        | .all => true
        | .numbered => n != 0
        | .split => if p = 3 then n != 0 else n == 0
        | .tests => true
      if mark && r.states.contains p then stOk else stNotPermitted

/-- Whether a command of a row with these DMA fields is long (12 R349). -/
def CmdRule.isLong (r : CmdRule) (b : Mailbox) : Bool := r.kind == .long || r.kind == .longUpload || b.dmaEn

/-- Check 4 of R352: lengths and DMA fields (12 R352, R356; notes/assumptions/34). -/
def dmaFieldsOk (s : State) (r : CmdRule) (b : Mailbox) : Bool :=
  decide (b.reqLen.toNat ≤ 4096) &&
  (!b.dmaEn ||
    (!s.pwr.linkSpi && r.kind != .short && r.kind != .long &&
      b.dmaLen.toNat % 4 == 0 && decide (b.dmaLen.toNat ≤ 0x10000000) &&
      (if b.sg then decide (1 ≤ b.sgCount ∧ b.sgCount ≤ 4096) else b.dmaAddr % 4 == 0)))

/-- Commands in ACCEPTED. -/
def acceptedCount (s : State) : Nat := (s.mb.boxes.filter (fun b => b.state == .accepted)).length

/-- The checks of R352, in their order: the status that applies first, or OK. -/
def commonChecks (s : State) (n : Nat) (b : Mailbox) : Nat :=
  let r := ruleOf b.code
  let c := checkServed s n b.code r
  if c ≠ stOk then c
  else
    match r with
    | none => stUnknown
    | some r =>
      if (indexed s.mb.boxes).any (fun p => p.1 != n && p.2.inFlight && p.2.tag == b.tag) then stBadParameter
      else if !dmaFieldsOk s r b then stBadParameter
      else if r.isLong b && decide (15 ≤ acceptedCount s) then stBusy
      else stOk

/-- A mailbox may be taken: from READY on, not in HALT (12 R351). -/
def takes (s : State) : Bool :=
  s.clk.running && ((s.pwr.pstate == 2 && s.pwr.ready) || (decide (3 ≤ s.pwr.pstate) && s.pwr.pstate != 7))

/-- The mailboxes in the order in which they were last taken, with one taken now (12 R353). -/
def takenNow (s : State) (n : Nat) : List Nat := s.mb.order.filter (fun m => m != n) ++ [n]

/-- MAILBOX_TAKE: the oldest doorbell is taken, and the common checks made; a command that passes them stands in EXEC for its own row, which makes its checks before the next mailbox is taken (12 R351 to R353; notes/assumptions/122). -/
def execMailboxTake (at_ : Nat) (s : State) : Out :=
  match s.mb.bells with
  | [] => done s
  | n :: t =>
    if !takes s || checking s then done s
    else
      let s := advanceTo s at_
      let s := onBox { s with mb := { s.mb with bells := t, order := takenNow s n } } n (fun b => { b with state := .exec, dmaErr := 0, dmaDone := 0, dmaNeed := 0, reply := none, dmaWait := false })
      let c := commonChecks s n (box s n)
      done (if c = stOk then s else refuse s n c)

end Sys2Proof.Machine
end

