-- ==== Sys2Proof/Machine/Retained.lean ====
section
/-! DEFINITION. The retained store as commands, registers and recall see it (15_retained_store R395 to R408, 13 Table 13-13). -/
namespace Sys2Proof.Machine

/-- The pages that a mask names, ascending. -/
def pagesOf (mask : Nat) : List Nat := (List.range 64).filter (fun p => bit mask p)

/-! The recall (15 R392, R398, R399). -/

/-- The recall result of a page: 0 valid, 1 CRC or field check failed, 2 never stored (15 Table 15-2, R398). -/
def pageResult (p : Nat) (x : Option Shadowed) : Nat :=
  match x with
  | none => 2
  | some x =>
    let h := x.header.take 60
    if leAt x.header 60 4 = crc32 (h ++ readSpan x.data 0 8192) ∧ leAt h 0 1 = p ∧ leAt h 1 1 = ownerOf p ∧ leAt h 2 1 ≠ 0 then 0 else 1

/-- What the header of a stored page tells its owner. -/
def headOfStored (x : Shadowed) : PageMeta :=
  { fmt := leAt x.header 2 1, len := leAt x.header 4 4, w0 := leAt x.header 0x28 4, w1 := leAt x.header 0x2C 4, w2 := leAt x.header 0x30 4 }

/-- A valid page is recalled into the working array. -/
def recallPage (s : State) (p : Nat) : State :=
  let x := lookup s.rs.shadow p
  let r := pageResult p x
  let s := { s with rs := { s.rs with found := insertAt s.rs.found p r } }
  match x, r with
  | some x, 0 =>
    { s with rs := { s.rs with
        work := pasteSpan s.rs.work (pageBase p) 8192 (moveSpan x.data 0 8192 (pageBase p))
        head := insertAt s.rs.head p (headOfStored x)
        valid := setBit s.rs.valid p true
        gen := Nat.max s.rs.gen (leAt x.header 8 8) } }
  | _, _ => s

/-- The trim code that page 0 holds by default (15 Table 15-5). -/
def page0Default (s : State) : State :=
  if bit s.rs.valid 0 then s else { s with rs := { s.rs with work := writeSpan s.rs.work 4 (natLe 4 0xFFFFFFFF) } }

/-- Every page is recalled; each invalid page is a WARN fault, and counter 2 counts the start (15 R398, R399, Table 15-6). -/
def recallAll (s : State) : State :=
  let s := { s with
    rs := { s.rs with work := [], head := [], dirty := 0, valid := 0, found := [], gen := 0 }
    pwr := { s.pwr with recalling := false } }
  let s := page0Default ((List.range 64).foldl recallPage s)
  let bad := (List.range 64).filter (fun p => getD 2 s.rs.found p == 1)
  let s := bad.foldl (fun s p => raiseFault s 0x01A0 2 7 [word p, 1]) s
  requestInc s 2 .plain

/-- RECALL_COMPLETE: the recall ends 3,200 µs after the release of the internal reset (15 R398, 19 Table 19-5). -/
def execRecallComplete (s : State) : Out :=
  if s.clk.running && s.pwr.recalling && s.pwr.pstate == 2 then done (recallAll (advanceTo s 3200)) else done s

/-! Registers (15 Tables 15-8 to 15-10). -/

/-- RS_STAT (15 Table 15-9). -/
def rsStat (s : State) : Nat :=
  let pf := (match s.rs.cur with | some c => c.who == .powerFail | none => false) || s.rs.queue.any (fun q => q.who == .powerFail)
  b2n s.pwr.recalling + 2 * b2n s.rs.cur.isSome + 4 * b2n pf + 8 * b2n (decide (27000 ≤ s.rs.vhold)) + 16 * b2n s.rs.incCur.isSome +
  32 * b2n (s.rs.found.any (fun p => p.2 == 1)) + 256 * (match s.rs.cur with | some c => c.page | none => 0)

/-- RS_CMDSTAT (15 Table 15-10). -/
def rsCmdStat (s : State) : Nat := b2n s.rs.cmdBusy + 2 * b2n s.rs.cmdDone + 16 * s.rs.cmdOp + 65536 * s.rs.cmdStatus

/-- The operation of RS_CMD ends with a status (15 R408). -/
def endRsCmd (s : State) (status : Nat) : State := { s with rs := { s.rs with cmdBusy := false, cmdDone := true, cmdStatus := status } }

/-- MA05 of an RS_CMD store ends when the store has ended (19 Table 19-8). -/
def afterRsCmd (was s : State) : State :=
  if was.rs.cmdBusy && !s.rs.cmdBusy && s.rs.cmdOp == 1 then maEnd s 5 1 s.rs.cmdStatus else s

/-- RS_CMD is served: after recall, in RUN, TEST and RECOVERY (15 R408). -/
def rsCmdReady (s : State) : Bool := !s.pwr.recalling && decide (3 ≤ s.pwr.pstate ∧ s.pwr.pstate ≤ 5)

/-- The operation of RS_CMD begins. -/
def beginRsCmd (s : State) (op : Nat) : State := { s with rs := { s.rs with cmdBusy := true, cmdOp := op } }

/-- STORE of RS_CMD: the checks of R408, then the store as MA05. -/
def rsCmdStore (s : State) (pages : List Nat) : State :=
  let s := beginRsCmd s 1
  if !rsCmdReady s then endRsCmd s stNotReady
  else if pages = [] then endRsCmd s stBadParameter
  else if collides s 5 1 then endRsCmd s stConflict
  else if pages.any (beingStored s) then endRsCmd s stBusy
  else
    let s := maStart s 5 1
    afterRsCmd s (requestStores s pages .rsCmd)

/-- CTR_INC of RS_CMD: the checks of R408, then the increment. -/
def rsCmdInc (s : State) (c : Nat) : State :=
  let s := beginRsCmd s 2
  if !rsCmdReady s then endRsCmd s stNotReady
  else if c < 128 then endRsCmd s stBadParameter
  else if ctrRefuses s c then endRsCmd (requestInc s c .rsCmd) stNotPermitted
  else requestInc s c .rsCmd

/-- A write of RS_CMD (15 R408). -/
def writeRsCmd (s : State) (value : Word) : State :=
  let op := bits value.toNat 0 4
  if s.rs.cmdBusy || decide (3 ≤ op) then { s with rs := { s.rs with errCmd := satAdd 16 s.rs.errCmd 1 } }
  else if op = 1 then rsCmdStore s ((List.range 4).filterMap (fun i => if bit value.toNat (8 + i) then some (12 + i) else none))
  else if op = 2 then rsCmdInc s (bits value.toNat 16 8)
  else endRsCmd (beginRsCmd s 0) (if rsCmdReady s then stOk else stNotReady)

/-- WORD increments modulo 2,048 (15 R407). -/
def nextWord (s : State) : State := { s with rs := { s.rs with word := (s.rs.word + 1) % 2048 } }

/-- The word that RS_WDATA shows; 0 during recall (15 R398, R407). -/
def windowWord (s : State) : Nat :=
  if s.pwr.recalling then 0 else leNat (readBytes s.rs.work (pageBase s.rs.page + 4 * s.rs.word) 4)

/-- A write of RS_WDATA: into a host page that is not being stored; any other is discarded and counted (15 R407). -/
def writeWindow (s : State) (value : Word) : State :=
  let p := s.rs.page
  let s :=
    if decide (12 ≤ p ∧ p ≤ 15) && !beingStored s p && !s.pwr.recalling then
      { s with rs := { s.rs with work := writeBytes s.rs.work (pageBase p + 4 * s.rs.word) (natLe 4 value.toNat), dirty := setBit s.rs.dirty p true } }
    else { s with rs := { s.rs with errWin := satAdd 16 s.rs.errWin 1 } }
  nextWord s

/-! Meanings. -/

/-- RS_STORE: the named pages are stored in ascending order (13 Table 13-13, 15 R395, R398). -/
def execRsStore (mb : Nat) (s : State) : Out :=
  runCommand s mb 0x0901 (fun b =>
    let pages := pagesOf (storeMask b)
    if s.pwr.recalling then refuse s mb stNotReady
    else if pages = [] then refuse s mb stBadParameter
    else if collides s 5 0 then refuse s mb stConflict
    else if pages.any (beingStored s) then refuse s mb stBusy
    else requestStores (maStart (accept s mb) 5 0) pages (.mailbox mb))

/-- A header of the response of RS_INFO: as stored, with the recall result of the page (15 Table 15-2). -/
def infoHeader (s : State) (p : Nat) : Bytes :=
  let h := match lookup s.rs.shadow p with | some x => slice x.header 0 64 | none => List.replicate 64 0
  h.take 3 ++ natLe 1 (getD 2 s.rs.found p) ++ h.drop 4

/-- RS_INFO: the 64 page headers (13 Table 13-13). -/
def execRsInfo (mb : Nat) (s : State) : Out :=
  runCommand s mb 0x0902 (fun _ =>
    if s.pwr.recalling then refuse s mb stNotReady
    else finish s mb { Reply.ok with page := (List.range 64).flatMap (infoHeader s) })

/-- CTR_READ: the value of a counter (13 Table 13-13). -/
def execCtrRead (mb : Nat) (s : State) : Out :=
  runCommand s mb 0x0903 (fun b =>
    if s.pwr.recalling then refuse s mb stNotReady
    else if 256 ≤ b.arg0.toNat then refuse s mb stBadParameter
    else finish s mb { Reply.ok with res0 := ctrValue s b.arg0.toNat })

/-- RS_CMD_STORE: a write of RS_CMD with OP STORE (15 R408). -/
def execRsCmdStore (value : Word) (s : State) : Out := whilePowered s (writeRsCmd s value)

/-- RS_CMD_CTR_INC: a write of RS_CMD with OP CTR_INC (15 R408). -/
def execRsCmdCtrInc (value : Word) (s : State) : Out := whilePowered s (writeRsCmd s value)

/-- RS_WDATA_READ: the window word is returned and WORD advances (15 R407). -/
def execRsWdataRead (s : State) : Out := whilePowered s (nextWord (answer s (windowWord s)))

/-- RS_WDATA_WRITE: a host page word is written and WORD advances (15 R407). -/
def execRsWdataWrite (value : Word) (s : State) : Out := whilePowered s (writeWindow s value)

/-- VHOLD_MEASURE: VHOLD is measured into RS_VHOLD (15 Table 15-8). -/
def execVholdMeasure (millivolts : Nat) (s : State) : Out :=
  if s.clk.running then
    done { s with pwr := { s.pwr with vhold := millivolts }, rs := { s.rs with vhold := millivolts % 65536 } }
  else done s

end Sys2Proof.Machine
end

