-- ==== Sys2Proof/Machine/Clock.lean ====
section
/-! DEFINITION. The real-time clock: calendar, shadows, time changes, trim, alarm, oscillator (14_time_base_and_calendar R373 to R389). -/
namespace Sys2Proof.Machine

/-! The calendar (14 R387, R388; 06 R189). -/

/-- A leap year. -/
def leap (y : Nat) : Bool := y % 4 == 0 && (y % 100 != 0 || y % 400 == 0)

/-- Days of a year. -/
def yearDays (y : Nat) : Nat := if leap y then 366 else 365

/-- The lengths of the months of a year. -/
def monthLengths (y : Nat) : List Nat := [31, if leap y then 29 else 28, 31, 30, 31, 30, 31, 31, 30, 31, 30, 31]

/-- Days from 2000-01-01 to the first day of a year. -/
def daysToYear (y : Nat) : Nat := sumOf ((List.range (y - 2000)).map (fun i => yearDays (2000 + i)))

/-- Seconds of a date and time (14 R387). -/
def secondsOf (y mo d h mi s : Nat) : Nat :=
  let days := daysToYear y + sumOf ((monthLengths y).take (mo - 1)) + (d - 1)
  ((days * 24 + h) * 60 + mi) * 60 + s

/-- The year in which a day lies, and the day within it. -/
def yearOfDay (fuel y d : Nat) : Nat × Nat :=
  match fuel with
  | 0 => (y, d)
  | f + 1 => if d < yearDays y then (y, d) else yearOfDay f (y + 1) (d - yearDays y)

/-- The month in which a day of a year lies, and the day of the month. -/
def monthOfDay (l : List Nat) (m d : Nat) : Nat × Nat :=
  match l with
  | [] => (m, d + 1)
  | n :: t => if d < n then (m, d + 1) else monthOfDay t (m + 1) (d - n)

/-- The date of a day since 2000-01-01: year, month, day. -/
def dateOf (days : Nat) : Nat × Nat × Nat :=
  let y := yearOfDay 300 2000 days
  let m := monthOfDay (monthLengths y.1) 1 y.2
  (y.1, m.1, m.2)

/-- The weekday of a day, 1 for Monday (14 R387). -/
def weekday (days : Nat) : Nat := (days + 5) % 7 + 1

/-- The second shown for a count: the last of the range while BEYOND is set (14 R389). -/
def shownSecond (tick : Nat) (beyond : Bool) : Nat := if beyond then 8583494399 else tick / 32768

/-- The DATE word of a second (13 group 0x08xx). -/
def dateWord (s : Nat) : Nat :=
  let d := dateOf (s / 86400)
  d.1 * 65536 + d.2.1 * 256 + d.2.2

/-- The TIME word of a second. -/
def timeWord (s : Nat) : Nat := s / 3600 % 24 * 65536 + s / 60 % 60 * 256 + s % 60

/-- The seconds that packed words name, if R388 accepts them. -/
def packedSecond (date time : Word) : Option Nat :=
  let y := bits date.toNat 16 16
  let mo := bits date.toNat 8 8
  let d := bits date.toNat 0 8
  let h := bits time.toNat 16 8
  let mi := bits time.toNat 8 8
  let s := bits time.toNat 0 8
  if decide (2000 ≤ y ∧ y ≤ 2271) && decide (1 ≤ mo ∧ mo ≤ 12) && decide (1 ≤ d ∧ d ≤ nth 0 (monthLengths y) (mo - 1)) &&
      decide (h ≤ 23) && decide (mi ≤ 59) && decide (s ≤ 59) then some (secondsOf y mo d h mi s)
  else none

/-- The time is valid (14 R389). -/
def timeValid (s : State) : Bool := s.rtc.valid && !s.rtc.beyond

/-! Registers (14 Tables 14-1 and 14-2). -/

/-- RTC_STAT. -/
def rtcStat (r : Rtc) : Nat :=
  b2n r.valid + 2 * b2n r.armed + 4 * b2n r.alm + 8 * b2n r.almLate + 16 * b2n r.pwrLoss + 32 * b2n r.oscFail +
  64 * b2n r.batLow + 128 * b2n r.beyond + 2 ^ 24 * r.frz

/-- The live registers of the block in order of offset (14 Table 14-1). -/
def rtcLive (s : State) : List Word :=
  let r := s.rtc
  [word (rtcStat r), word r.trim, word r.alarm, word (r.alarm / 2 ^ 32), word s.clk.nt, word (s.clk.nt / 2 ^ 32),
   word r.tick, word (r.tick / 2 ^ 32 + 2 ^ 24 * r.frz)]

/-- The shadows, while the block is frozen: for 65,536 CLK_F cycles, 262 whole µs (14 R379). -/
def frozenShadow (s : State) : Option Shadow :=
  match s.rtc.shadow with
  | some x => if s.clk.nt ≤ x.nt + 262 then some x else none
  | none => none

/-- A read freezes a free block (14 R379, R380). -/
def freezeRtc (s : State) : State :=
  match frozenShadow s with
  | some _ => s
  | none =>
    let s := { s with rtc := { s.rtc with frz := (s.rtc.frz + 1) % 256 } }
    { s with rtc := { s.rtc with shadow := some { regs := rtcLive s, nt := s.clk.nt } } }

/-- The shadow word at an offset of the block. -/
def shadowWord (s : State) (off : Nat) : Nat :=
  match s.rtc.shadow with
  | some x => (nth 0 x.regs (off / 4)).toNat
  | none => 0

/-- The shadows are released. -/
def releaseRtc (s : State) : State := { s with rtc := { s.rtc with shadow := none } }

/-- A read at an offset of the block: the word, and the state after it. A reserved offset reads 0 and has no effect (14 Table 14-1). -/
def readRtc (s : State) (off : Nat) : Nat × State :=
  if 0x20 ≤ off then (0, s)
  else
    let s := freezeRtc s
    (shadowWord s off, if off = 0x1C then releaseRtc s else s)

/-- A write to the block releases the shadows; RTC_STAT clears ALM and PWRLOSS by W1C (14 R378, R379). -/
def writeRtc (s : State) (off : Nat) (value : Word) : State :=
  let s := releaseRtc s
  if off ≠ 0 then s
  else
    let v := value.toNat
    let t := { s with rtc := { s.rtc with alm := s.rtc.alm && !bit v 2, pwrLoss := s.rtc.pwrLoss && !bit v 4 } }
    if bit v 2 && s.rtc.alm then resendGroup t 3 else t

/-! The alarm (14 R386). -/

/-- An event of the RTC is recorded; one that comes while the recorder does not run waits for the next start (14 R375, R386; notes/assumptions/125). -/
def tellRtc (s : State) (code : Nat) (words : List Word) : State :=
  if s.clk.running then record s code 6 words else { s with rtc := { s.rtc with told := s.rtc.told ++ [(code, words)] } }

/-- The events that waited are recorded. -/
def recordTold (s : State) : State :=
  s.rtc.told.foldl (fun (s : State) (e : Nat × List Word) => record s e.1 6 e.2) { s with rtc := { s.rtc with told := [] } }

/-- The armed alarm fires: `late` where the count exceeds the alarm tick count. -/
def fireAlarm (s : State) (late : Bool) : State :=
  let a := s.rtc.alarm
  tellRtc { s with rtc := { s.rtc with alm := true, almLate := late, armed := false, lateArm := false } } 0x0181 (twoWords a ++ [word (b2n late)])

/-- Time passes until the count has reached a tick: NT with it where the clocks run. -/
def runToTick (s : State) (t : Nat) : State :=
  if t ≤ s.rtc.tick then s
  else if s.clk.running then advanceTo s (s.clk.nt + s.rtc.until_ t)
  else { s with rtc := { s.rtc.newTrim.count (t - s.rtc.tick) with acc := 0 } }

/-- `n` edges pass while the module has no clock: an armed alarm that they reach fires (14 R374, R386). -/
def passTicks (s : State) (n : Nat) : State :=
  if s.rtc.oscFail || !rtcPowered s || n = 0 then s
  else
    let a := s.rtc.alarm
    let c := s.rtc.tick
    let s := { s with rtc := s.rtc.newTrim.count n }
    if s.rtc.armed && (s.rtc.lateArm || decide (c < a ∧ a ≤ c + n)) then fireAlarm s s.rtc.lateArm else s

/-- The change of a tick edge is recorded with the count before and after (14 R383). -/
def tellChange (s : State) (before : Nat) (x : Option TimeChange) : State :=
  match x with
  | some x => tellRtc s 0x0180 (twoWords before ++ twoWords s.rtc.tick ++ [word (b2n x.adjust)])
  | none => s

/-- A command whose change has been made completes (14 R382). -/
def endChange (s : State) (before : Nat) (fired : Bool) (x : Option TimeChange) : State :=
  match x with
  | some x =>
    if (box s x.mb).state != .exec then s
    else if x.adjust then finish s x.mb { Reply.ok with res0 := b2n fired }
    else finish s x.mb { Reply.ok with res0 := before % 2 ^ 32, res1 := before / 2 ^ 32 }
  | none => s

/-- One tick edge with all that happens at it: the count or the change that waits, its record, the alarm, and the end of the command that waited (14 R373, R382, R383, R386). -/
def tickEdge (s : State) : State :=
  let c := s.rtc.tick
  let x := s.rtc.change
  let s := tellChange { s with rtc := s.rtc.edge } c x
  let fires := s.rtc.armed && decide (s.rtc.alarm ≤ s.rtc.tick)
  let late := decide (s.rtc.alarm < s.rtc.tick)
  let s := if fires then fireAlarm s late else { s with rtc := { s.rtc with lateArm := false } }
  endChange s c (fires && late) x

/-! Meanings. -/

/-- TIME_GET: date, time, validity and tick count (13 Table 13-12, 14 R389). -/
def execTimeGet (mb : Nat) (s : State) : Out :=
  runCommand s mb 0x0801 (fun _ =>
    let x := shownSecond s.rtc.tick s.rtc.beyond
    finish s mb { Reply.ok with
      res0 := dateWord x, res1 := timeWord x, res2 := b2n (timeValid s), res3 := s.rtc.tick % 32768
      page := natLe 8 s.rtc.tick ++ natLe 8 s.clk.nt })

/-- TIME_SET: the change waits for the next tick edge (14 R382, Table 14-3). -/
def execTimeSet (mb : Nat) (s : State) : Out :=
  if s.rtc.change.isSome then done s
  else
    runCommand s mb 0x0802 (fun b =>
      if bits b.arg1.toNat 24 8 ≠ 0 then refuse s mb stBadParameter
      else
        match packedSecond b.arg0 b.arg1 with
        | none => refuse s mb stBadDate
        | some x => { s with rtc := { s.rtc with change := some { adjust := false, value := (x * 32768 : Nat), mb := mb } } })

/-- TIME_ADJUST: the step waits for the next tick edge (14 R382, Table 14-3). -/
def execTimeAdjust (mb : Nat) (s : State) : Out :=
  if s.rtc.change.isSome then done s
  else
    runCommand s mb 0x0803 (fun b =>
      let step := toSigned 64 (b.arg0.toNat + 2 ^ 32 * b.arg1.toNat)
      let c : Int := (s.rtc.tick + 1 : Nat) + step
      if step < -(2 ^ 47 : Nat) ∨ (2 ^ 47 : Nat) < step then refuse s mb stBadParameter
      else if c < 0 ∨ (calendarEnd : Nat) ≤ c then refuse s mb stBadDate
      else { s with rtc := { s.rtc with change := some { adjust := true, value := step, mb := mb } } })

/-- TIME_CHANGE_APPLY: at the first tick edge the count changes in one step, the change is recorded, an alarm may fire, and the command completes (14 R382, R383, R386). -/
def execTimeChangeApply (s : State) : Out :=
  if s.rtc.change.isNone || s.rtc.oscFail || !s.clk.running || !rtcPowered s then done s
  else
    let r := s.rtc
    let s := advanceTo s (s.clk.nt + r.toEdge)
    done (tickEdge { s with rtc := { r with acc := s.rtc.acc } })

/-- ALARM_SET: arms or disarms the alarm (14 R385, Table 14-3). -/
def execAlarmSet (mb : Nat) (s : State) : Out :=
  runCommand s mb 0x0804 (fun b =>
    if bits b.arg1.toNat 24 8 ≠ 0 ∨ 1 < b.arg2.toNat then refuse s mb stBadParameter
    else if b.arg2 = 0 then finish { s with rtc := { s.rtc with armed := false, lateArm := false } } mb Reply.ok
    else
      match packedSecond b.arg0 b.arg1 with
      | none => refuse s mb stBadDate
      | some x =>
        let a := x * 32768
        finish { s with rtc := { s.rtc with alarm := a, armed := true, lateArm := decide (a ≤ s.rtc.tick) } } mb Reply.ok)

/-- TIME_TRIM: the code applies from the next tick edge and is stored (14 R376). -/
def execTimeTrim (mb : Nat) (s : State) : Out :=
  runCommand s mb 0x0805 (fun b =>
    if 63 < b.arg0.toNat then refuse s mb stBadParameter
    else
      let was := s.rtc.trimNew.getD s.rtc.trim
      let s := { s with rtc := { s.rtc with trimNew := some b.arg0.toNat } }
      finish (setPage0 s 4 4 b.arg0.toNat) mb { Reply.ok with res0 := was })

/-- ALARM_FIRE: an armed alarm fires when the count reaches the alarm tick count, or at the next tick edge where it was passed when armed; at an edge with a change that waits, TIME_CHANGE_APPLY fires it (14 R386). -/
def execAlarmFire (s : State) : Out :=
  if !s.rtc.armed || s.rtc.oscFail || !rtcPowered s || s.rtc.change.isSome then done s
  else if s.rtc.lateArm then done (fireAlarm (runToTick s (s.rtc.tick + 1)) true)
  else done (fireAlarm (runToTick s s.rtc.alarm) false)

/-- BEYOND_REACHED: the count reaches the end of the calendar range (14 R389). -/
def execBeyondReached (s : State) : Out :=
  if s.rtc.beyond || s.rtc.oscFail || !rtcPowered s then done s
  else
    let s := runToTick s calendarEnd
    done { s with rtc := { s.rtc with beyond := true } }

/-- The oscillator has stopped: its last edge lies where the count stands, and 1 ms after it the stop is detected (14 R375). -/
def oscStopped (s : State) : State :=
  if s.clk.running then advanceHeld s (s.clk.nt + 1000 - s.rtc.acc / tickRate s.rtc.trim) else s

/-- OSC_STOP: no edge comes for 1 ms; the count holds, and the stop is recorded (14 R375). -/
def execOscStop (s : State) : Out :=
  if s.rtc.oscFail || !rtcPowered s then done s
  else
    let s := oscStopped s
    done (tellRtc { s with rtc := { s.rtc with oscFail := true, valid := false, acc := 0 } } 0x0182 [0])

/-- OSC_RESTART: the first edge clears OSCFAIL, and is an edge like any other; the restart is recorded (14 R373, R375, R376, R382, R386). -/
def execOscRestart (s : State) : Out :=
  if !s.rtc.oscFail || !rtcPowered s then done s
  else done (tickEdge (tellRtc { s with rtc := { s.rtc with oscFail := false, acc := 0 } } 0x0182 [1]))

/-- BATLOW_CHECK: VBAT is measured at a start, and 3,600 s after the measurement before in RUN (14 Table 14-2). -/
def execBatlowCheck (millivolts : Nat) (s : State) : Out :=
  if !s.clk.running || !(s.pwr.pstate == 2 || inRun s) then done s
  else
    let s := if inRun s then advanceTo s (s.pwr.batCheckAt + 3600000000) else s
    done { s with rtc := { s.rtc with batLow := decide (millivolts < 2500) }, pwr := { s.pwr with batCheckAt := s.clk.nt } }

/-- A host read at an offset of the RTC block answers its word. -/
def hostReadRtc (s : State) (off : Nat) : State :=
  let r := readRtc s off
  answer r.2 r.1

/-- RTC_REGISTER_READ: the block is frozen if free, and the shadow returned (14 R379). -/
def execRtcRegisterRead (offset : Nat) (s : State) : Out := if s.clk.running then done (hostReadRtc s (4 * (offset / 4))) else done s

/-- RTC_TICK_HI_READ: as any read of the block, and the shadows are released (14 R379). -/
def execRtcTickHiRead (s : State) : Out := if s.clk.running then done (hostReadRtc s 0x1C) else done s

/-- RTC_BLOCK_WRITE: the shadows are released; ALM and PWRLOSS clear by W1C (14 R378, R379). -/
def execRtcBlockWrite (offset : Nat) (value : Word) (s : State) : Out :=
  if s.clk.running then done (writeRtc s (4 * (offset / 4)) value) else done s

/-- RTC_SHADOW_TIMEOUT: the shadows are released 65,536 CLK_F cycles after the freeze (14 R379). -/
def execRtcShadowTimeout (s : State) : Out :=
  match s.rtc.shadow with
  | some x => if s.clk.running then done (releaseRtc (advanceTo s (x.nt + 262))) else done s
  | none => done s

end Sys2Proof.Machine
end

