-- ==== Sys2Proof/Machine/Crypto.lean ====
section
/-! DEFINITION. The cryptographic functions that the key store names: SHA-256, HMAC-SHA-256, the derivation of 17_key_store R427, AES-256, AES-256 CMAC, AES-256-GCM, and ECDSA and ECDH on P-256 with the deterministic nonce of RFC 6979 (17 R426 to R440). -/
namespace Sys2Proof.Machine

/-! SHA-256. -/

/-- The round constants of SHA-256. -/
def shaK : List Word :=
  [0x428a2f98, 0x71374491, 0xb5c0fbcf, 0xe9b5dba5, 0x3956c25b, 0x59f111f1, 0x923f82a4, 0xab1c5ed5] ++
  [0xd807aa98, 0x12835b01, 0x243185be, 0x550c7dc3, 0x72be5d74, 0x80deb1fe, 0x9bdc06a7, 0xc19bf174] ++
  [0xe49b69c1, 0xefbe4786, 0x0fc19dc6, 0x240ca1cc, 0x2de92c6f, 0x4a7484aa, 0x5cb0a9dc, 0x76f988da] ++
  [0x983e5152, 0xa831c66d, 0xb00327c8, 0xbf597fc7, 0xc6e00bf3, 0xd5a79147, 0x06ca6351, 0x14292967] ++
  [0x27b70a85, 0x2e1b2138, 0x4d2c6dfc, 0x53380d13, 0x650a7354, 0x766a0abb, 0x81c2c92e, 0x92722c85] ++
  [0xa2bfe8a1, 0xa81a664b, 0xc24b8b70, 0xc76c51a3, 0xd192e819, 0xd6990624, 0xf40e3585, 0x106aa070] ++
  [0x19a4c116, 0x1e376c08, 0x2748774c, 0x34b0bcb5, 0x391c0cb3, 0x4ed8aa4a, 0x5b9cca4f, 0x682e6ff3] ++
  [0x748f82ee, 0x78a5636f, 0x84c87814, 0x8cc70208, 0x90befffa, 0xa4506ceb, 0xbef9a3f7, 0xc67178f2]

/-- The initial hash value of SHA-256. -/
def shaInit : List Word :=
  [0x6a09e667, 0xbb67ae85, 0x3c6ef372, 0xa54ff53a, 0x510e527f, 0x9b05688c, 0x1f83d9ab, 0x5be0cd19]

/-- Extend the message schedule by `n` words; the schedule is held newest first. -/
def shaExtend (n : Nat) (w : List Word) : List Word :=
  match n with
  | 0 => w
  | n + 1 =>
    let w2 := nth 0 w 1
    let w15 := nth 0 w 14
    let s0 := w15.rotateRight 7 ^^^ w15.rotateRight 18 ^^^ (w15 >>> 3)
    let s1 := w2.rotateRight 17 ^^^ w2.rotateRight 19 ^^^ (w2 >>> 10)
    shaExtend n ((s1 + nth 0 w 6 + s0 + nth 0 w 15) :: w)

/-- One round of SHA-256 on the eight working words. -/
def shaRound (st : List Word) (kw : Word × Word) : List Word :=
  match st with
  | [a, b, c, d, e, f, g, h] =>
    let s1 := e.rotateRight 6 ^^^ e.rotateRight 11 ^^^ e.rotateRight 25
    let ch := (e &&& f) ^^^ (~~~e &&& g)
    let t1 := h + s1 + ch + kw.1 + kw.2
    let s0 := a.rotateRight 2 ^^^ a.rotateRight 13 ^^^ a.rotateRight 22
    let maj := (a &&& b) ^^^ (a &&& c) ^^^ (b &&& c)
    [t1 + (s0 + maj), a, b, c, d + t1, e, f, g]
  | l => l

/-- The big-endian words of a 64-byte block. -/
def blockWords (b : Bytes) : List Word := (List.range 16).map (fun i => BitVec.ofNat 32 (beNat (slice b (4 * i) 4)))

/-- The compression function of SHA-256. -/
def shaBlock (h : List Word) (b : Bytes) : List Word :=
  let w := (shaExtend 48 (blockWords b).reverse).reverse
  (h.zip ((shaK.zip w).foldl shaRound h)).map (fun p => p.1 + p.2)

/-- Hash the blocks of a padded message. -/
def shaBlocks (n : Nat) (h : List Word) (b : Bytes) : List Word :=
  match n with
  | 0 => h
  | n + 1 => shaBlocks n (shaBlock h (b.take 64)) (b.drop 64)

/-- SHA-256 of a byte string. -/
def sha256 (m : Bytes) : Bytes :=
  let z := (119 - m.length % 64) % 64
  let p := m ++ [0x80] ++ List.replicate z 0 ++ natBe 8 (8 * m.length)
  (shaBlocks (p.length / 64) shaInit p).flatMap (fun w => natBe 4 w.toNat)

/-- HMAC-SHA-256. -/
def hmac (key m : Bytes) : Bytes :=
  let k := if 64 < key.length then sha256 key else key
  let k := k ++ List.replicate (64 - k.length) 0
  sha256 (k.map (fun b => b ^^^ 0x5c) ++ sha256 (k.map (fun b => b ^^^ 0x36) ++ m))

/-- The derivation of R427 for a given context: one iteration of the counter mode, a 256-bit output. -/
def deriveKey (parent label context : Bytes) : Bytes :=
  hmac parent (natBe 4 1 ++ label ++ [0] ++ context ++ natBe 4 0x100)

/-! AES-256. -/

/-- Multiply by x in GF(2^8). -/
def xtime (a : Byte) : Byte := (a <<< 1) ^^^ (if a.getLsbD 7 then 0x1b else 0)

/-- Multiplication in GF(2^8), from the bits of the second factor. -/
def gfMul8 (n : Nat) (a b : Byte) : Byte :=
  match n with
  | 0 => 0
  | n + 1 => (if b.getLsbD 0 then a else 0) ^^^ gfMul8 n (xtime a) (b >>> 1)

/-- The inverse in GF(2^8), the power 254; 0 for 0. -/
def gfInv8 (a : Byte) : Byte :=
  let m := gfMul8 8
  let a2 := m a a
  let a4 := m a2 a2
  let a8 := m a4 a4
  let a16 := m a8 a8
  let a32 := m a16 a16
  let a64 := m a32 a32
  let a128 := m a64 a64
  m a128 (m a64 (m a32 (m a16 (m a8 (m a4 a2)))))

/-- The substitution box of AES. -/
def aesSub (a : Byte) : Byte :=
  let x := gfInv8 a
  x ^^^ x.rotateLeft 1 ^^^ x.rotateLeft 2 ^^^ x.rotateLeft 3 ^^^ x.rotateLeft 4 ^^^ 0x63

/-- XOR of two byte strings, as long as the shorter. -/
def xorBytes (a b : Bytes) : Bytes := a.zipWith (· ^^^ ·) b

/-- Extend the AES-256 key schedule from word `i` by `n` words; the schedule is held newest first. -/
def aesExpand (n i : Nat) (rc : Byte) (w : List Bytes) : List Bytes :=
  match n with
  | 0 => w
  | n + 1 =>
    let prev := nth [] w 0
    let back := nth [] w 7
    if i % 8 = 0 then
      let r := (prev.drop 1 ++ prev.take 1).map aesSub
      aesExpand n (i + 1) (xtime rc) (xorBytes back (xorBytes r [rc, 0, 0, 0]) :: w)
    else if i % 8 = 4 then aesExpand n (i + 1) rc (xorBytes back (prev.map aesSub) :: w)
    else aesExpand n (i + 1) rc (xorBytes back prev :: w)

/-- The 15 round keys of AES-256. -/
def aesKeys (key : Bytes) : List Bytes :=
  let w := (List.range 8).map (fun i => slice key (4 * i) 4)
  let all := (aesExpand 52 8 1 w.reverse).reverse
  (List.range 15).map (fun i => ((all.drop (4 * i)).take 4).flatten)

/-- ShiftRows on a 16-byte state in column order. -/
def aesShift (s : Bytes) : Bytes := (List.range 16).map (fun i => nth 0 s ((i + 4 * (i % 4)) % 16))

/-- MixColumns on one column. -/
def aesMixCol (c : Bytes) : Bytes :=
  (List.range 4).map (fun i =>
    let a := fun j => nth 0 c ((i + j) % 4)
    xtime (a 0) ^^^ (xtime (a 1) ^^^ a 1) ^^^ a 2 ^^^ a 3)

/-- MixColumns. -/
def aesMix (s : Bytes) : Bytes := (List.range 4).flatMap (fun i => aesMixCol (slice s (4 * i) 4))

/-- The inner rounds and the last round of AES. -/
def aesRounds (ks : List Bytes) (s : Bytes) : Bytes :=
  match ks with
  | [] => s
  | [k] => xorBytes (aesShift (s.map aesSub)) k
  | k :: t => aesRounds t (xorBytes (aesMix (aesShift (s.map aesSub))) k)

/-- AES-256 encryption of one block. -/
def aesBlock (key block : Bytes) : Bytes :=
  match aesKeys key with
  | [] => block
  | k :: t => aesRounds t (xorBytes block k)

/-- Twice a 128-bit block in the field of CMAC. -/
def cmacDouble (x : Nat) : Nat := (2 * x) % 2 ^ 128 ^^^ (if x.testBit 127 then 0x87 else 0)

/-- The chain of CMAC over whole blocks. -/
def cmacChain (n : Nat) (key c m : Bytes) : Bytes :=
  match n with
  | 0 => c
  | n + 1 => cmacChain n key (aesBlock key (xorBytes c (m.take 16))) (m.drop 16)

/-- AES-256 CMAC. -/
def cmac (key m : Bytes) : Bytes :=
  let l := beNat (aesBlock key (List.replicate 16 0))
  let n := if m.length = 0 then 1 else (m.length + 15) / 16
  let last := m.drop (16 * (n - 1))
  let k1 := cmacDouble l
  let final := if last.length = 16 then xorBytes last (natBe 16 k1)
    else xorBytes (last ++ [0x80] ++ List.replicate (15 - last.length) 0) (natBe 16 (cmacDouble k1))
  aesBlock key (xorBytes (cmacChain (n - 1) key (List.replicate 16 0) m) final)

/-! AES-256-GCM. -/

/-- Multiplication in the field of GCM, from the high bit of the first factor down. -/
def ghashMul (n : Nat) (x v : Nat) : Nat :=
  match n with
  | 0 => 0
  | n + 1 => (if x.testBit n then v else 0) ^^^ ghashMul n x (v >>> 1 ^^^ (if v.testBit 0 then 0xe1 <<< 120 else 0))

/-- GHASH over whole blocks. -/
def ghash (n : Nat) (h y : Nat) (m : Bytes) : Nat :=
  match n with
  | 0 => y
  | n + 1 => ghash n h (ghashMul 128 (y ^^^ beNat (slice m 0 16)) h) (m.drop 16)

/-- A string filled with zeros to a whole number of blocks. -/
def padBlock (m : Bytes) : Bytes := m ++ List.replicate ((16 - m.length % 16) % 16) 0

/-- Counter mode from counter value `c` of a 12-byte IV. -/
def gcmCtr (n : Nat) (key iv : Bytes) (c : Nat) (m : Bytes) : Bytes :=
  match n with
  | 0 => []
  | n + 1 => xorBytes (m.take 16) (aesBlock key (iv ++ natBe 4 c)) ++ gcmCtr n key iv (c + 1) (m.drop 16)

/-- The tag of GCM over the additional data and the ciphertext. -/
def gcmTag (key iv aad c : Bytes) : Bytes :=
  let h := beNat (aesBlock key (List.replicate 16 0))
  let d := padBlock aad ++ padBlock c ++ natBe 8 (8 * aad.length) ++ natBe 8 (8 * c.length)
  xorBytes (natBe 16 (ghash (d.length / 16) h 0 d)) (aesBlock key (iv ++ natBe 4 1))

/-- AES-256-GCM decryption; none when the tag fails. -/
def gcmDecrypt (key iv aad c tag : Bytes) : Option Bytes :=
  if gcmTag key iv aad c = tag then some (gcmCtr ((c.length + 15) / 16) key iv 2 c) else none

/-! P-256. -/

/-- The field prime of P-256. -/
def p256P : Nat := 0xffffffff00000001000000000000000000000000ffffffffffffffffffffffff
/-- The order of P-256. -/
def p256N : Nat := 0xffffffff00000000ffffffffffffffffbce6faada7179e84f3b9cac2fc632551
/-- The coefficient b of P-256; a is p − 3. -/
def p256B : Nat := 0x5ac635d8aa3a93e7b3ebbd55769886bc651d06b0cc53b0f63bce3c3e27d2604b
/-- The base point of P-256. -/
def p256G : Nat × Nat :=
  (0x6b17d1f2e12c4247f8bce6e563a440f277037d812deb33a0f4a13945d898c296,
   0x4fe342e2fe1a7f9b8ee7eb4a7c0f9e162bce33576b315ececbb6406837bf51f5)

/-- `b ^ e mod m`, over the `n` low bits of `e` from the highest. -/
def powMod (n : Nat) (b e m : Nat) : Nat :=
  (List.range n).foldl (fun r i => let r := r * r % m; if e.testBit (n - 1 - i) then r * b % m else r) 1

/-- The inverse modulo a prime of at most 256 bits. -/
def invMod (a m : Nat) : Nat := powMod 256 a (m - 2) m

/-- Addition of points; none is the point at infinity. -/
def ecAdd (x y : Option (Nat × Nat)) : Option (Nat × Nat) :=
  match x, y with
  | none, q => q
  | p, none => p
  | some (x1, y1), some (x2, y2) =>
    if x1 = x2 ∧ (y1 + y2) % p256P = 0 then none
    else
      let num := if x1 = x2 then (3 * x1 * x1 + (p256P - 3)) % p256P else (y2 + p256P - y1) % p256P
      let den := if x1 = x2 then (2 * y1) % p256P else (x2 + p256P - x1) % p256P
      let l := num * invMod den p256P % p256P
      let x3 := (l * l + 2 * p256P - x1 - x2) % p256P
      some (x3, (l * (x1 + p256P - x3) + p256P - y1) % p256P)

/-- Scalar multiplication over the 256 bits of `k`. -/
def ecMul (k : Nat) (p : Option (Nat × Nat)) : Option (Nat × Nat) :=
  (List.range 256).foldl (fun r i => let r := ecAdd r r; if k.testBit (255 - i) then ecAdd r p else r) none

/-- A point lies on the curve. -/
def onCurve (p : Nat × Nat) : Bool :=
  decide (p.1 < p256P ∧ p.2 < p256P) && (p.2 * p.2) % p256P == (p.1 * p.1 * p.1 + (p256P - 3) * p.1 + p256B) % p256P

/-- The private key of a derived key (R427). -/
def privateKey (k : Bytes) : Nat := beNat k % (p256N - 1) + 1

/-- The public key x ‖ y, big-endian (R434). -/
def publicKey (d : Nat) : Bytes :=
  match ecMul d (some p256G) with
  | none => List.replicate 64 0
  | some p => natBe 32 p.1 ++ natBe 32 p.2

/-- KEY_ID: bytes 0 to 3 of the SHA-256 of the public key (R434). -/
def keyId (pub : Bytes) : Bytes := (sha256 pub).take 4

/-- The candidate nonces of RFC 6979 with HMAC-SHA-256, at most `n`: the first that lies in [1, order − 1]. -/
def rfcNonce (n : Nat) (k v : Bytes) : Nat :=
  match n with
  | 0 => 1
  | n + 1 =>
    let v := hmac k v
    let c := beNat v
    if 1 ≤ c ∧ c < p256N then c
    else
      let k := hmac k (v ++ [0])
      rfcNonce n k (hmac k v)

/-- The first nonce of RFC 6979 for a private key and a digest. -/
def nonce (d : Nat) (digest : Bytes) : Nat :=
  let x := natBe 32 d ++ natBe 32 (beNat digest % p256N)
  let v0 := List.replicate 32 (1 : Byte)
  let k0 := List.replicate 32 (0 : Byte)
  let k1 := hmac k0 (v0 ++ [0] ++ x)
  let v1 := hmac k1 v0
  let k2 := hmac k1 (v1 ++ [1] ++ x)
  rfcNonce 64 k2 (hmac k2 v1)

/-- ECDSA P-256 over a SHA-256 digest: r ‖ s, big-endian (R434). -/
def ecdsaSign (d : Nat) (digest : Bytes) : Bytes :=
  let k := nonce d digest
  let r := ((ecMul k (some p256G)).map (fun p => p.1 % p256N)).getD 0
  let s := invMod k p256N * (beNat digest + r * d) % p256N
  natBe 32 r ++ natBe 32 s

/-- ECDSA verification under a public key x ‖ y. -/
def ecdsaVerify (pub digest sig : Bytes) : Bool :=
  let q := (beNat (slice pub 0 32), beNat (slice pub 32 32))
  let r := beNat (slice sig 0 32)
  let s := beNat (slice sig 32 32)
  if onCurve q && decide (1 ≤ r ∧ r < p256N ∧ 1 ≤ s ∧ s < p256N) then
    let w := invMod s p256N
    match ecAdd (ecMul (beNat digest * w % p256N) (some p256G)) (ecMul (r * w % p256N) (some q)) with
    | none => false
    | some p => p.1 % p256N == r
  else false

/-- ASCII bytes of a label. -/
def ascii (s : String) : Bytes := s.toList.map (fun c => BitVec.ofNat 8 c.toNat)

end Sys2Proof.Machine
end

