-- ==== Sys2Proof/Machine/Keys.lean ====
section
/-! DEFINITION. The key store: derived keys, imported slots and their replacement, images and MACs, attestation (17_key_store R423 to R441). -/
namespace Sys2Proof.Machine

/-- Key functions are enabled (17 R424, R425). -/
def keysOn (s : State) : Bool := !s.ks.keydis

/-- Measurement n. -/
def bmOf (s : State) (n : Nat) : Bytes := nth [] s.ks.bm n

/-- The private key of METER_SIGN, bound to BM0 and BM1 (17 Table 17-2, R427). -/
def meterSignKey (s : State) : Nat := privateKey (deriveKey Config.rootSecret (ascii "qg64/meter-sign") (bmOf s 0 ++ bmOf s 1))

/-- The private key of ATTEST (17 Table 17-2). -/
def attestKey : Nat := privateKey (deriveKey Config.rootSecret (ascii "qg64/attest") [])

/-- The private key of IMPORT (17 Table 17-2). -/
def importKey : Nat := privateKey (deriveKey Config.rootSecret (ascii "qg64/import") [])

/-- A slot is BAD. -/
def slotBad (s : State) (n : Nat) : Bool := s.ks.bad.contains n

/-- STATE of a slot: 0 EMPTY, 1 VALID, 2 BAD (17 Table 17-3). -/
def slotState (s : State) (n : Nat) : Nat :=
  if slotBad s n then 2 else if n < 3 then 1 else if (lookup s.ks.slots n).isSome then 1 else 0

/-- The kind that the slot map gives a slot (17 Table 17-2). -/
def slotKind (n : Nat) : Nat :=
  if n ≤ 1 then 1 else if n = 2 then 2 else if n < 8 then 0 else if n = 8 then 3 else if n = 9 then 4 else 5

/-- The key check value of a key (17 R438). -/
def checkValue (key : Bytes) : Nat := leNat ((hmac key (ascii "qg64/kcv")).take 3)

/-- The key check value of a VALID imported slot, else 0. -/
def slotCheck (s : State) (n : Nat) : Nat :=
  match slotKey s n with
  | some k => checkValue k
  | none => 0
where
  slotKey (s : State) (n : Nat) : Option Bytes := if slotBad s n then none else (lookup s.ks.slots n).map (fun k => k.cur.key)

/-- The label of a derived slot. -/
def slotLabel (n : Nat) : Bytes :=
  match n with
  | 0 => ascii "qg64/meter-sign"
  | 1 => ascii "qg64/attest"
  | 2 => ascii "qg64/import"
  | _ => []

/-- The KEY_ID of a derived ECDSA slot. -/
def derivedId (s : State) (n : Nat) : Bytes := keyId (publicKey (if n = 0 then meterSignKey s else attestKey))

/-- An entry of KEY_INFO (17 Table 17-3). The parent of a slot that is not derived, and the KEY_ID of a derived slot that is BAD, are not stated: free (notes/assumptions/35). -/
def slotEntry (s : State) (n : Nat) : Bytes :=
  let st := slotState s n
  let derived := decide (n < 3)
  let kind := if st = 0 then 0 else slotKind n
  let staged := match s.ks.staged with | some k => if k.slot = n then 1 + b2n k.verified else 0 | none => 0
  let parent := if derived then 0xFF else (Config.freeWord (s.free + n)).toNat
  let gen := match lookup s.ks.slots n with | some k => k.cur.gen | none => 0
  let id := if n < 2 then (if st = 1 then leNat (derivedId s n) else (Config.freeWord (s.free + 64 + n)).toNat) else if derived then 0 else slotCheck s n
  natLe 1 st ++ natLe 1 kind ++ natLe 1 (b2n derived) ++ natLe 1 (if n = 0 then 0x83 else 0) ++ natLe 1 parent ++
  natLe 1 (slotLabel n).length ++ natLe 2 gen ++ natLe 4 id ++ natLe 1 staged ++
  natLe 1 (if st = 2 then 1 else if st = 0 then 2 else 0) ++ [0, 0]

/-! Images (17 R425, R432; 02 R80; 01 R46). -/

/-- The key of IMAGE_MAC: none while KS08 is BAD, zeros while it is EMPTY (17 R432). -/
def imageMacKey (s : State) : Option Bytes :=
  if slotBad s 8 then none
  else match lookup s.ks.slots 8 with
    | some k => some k.cur.key
    | none => some (List.replicate 32 0)

/-- IMAGE_MAC verifies: over the image with the 32 bytes at `off` taken as 0; not checked while key functions are disabled (17 R425, R432). -/
def imageMacOk (s : State) (bs : Bytes) (off : Nat) : Bool :=
  if !keysOn s then true
  else match imageMacKey s with
    | none => false
    | some k => hmac k (bs.take off ++ List.replicate 32 0 ++ bs.drop (off + 32)) == slice bs off 32

/-- The image is an envelope by its magic number (17 Table 17-4). -/
def isEnvelope (bs : Bytes) : Bool := leAt bs 0 4 == 0x4E454751

/-- The plain image of an envelope, none where it gives AUTH_FAILED: key functions disabled, KS09 EMPTY or BAD, or a tag that fails; an image that is no envelope stands as it is (17 R425, R432). -/
def openImage (s : State) (bs : Bytes) : Option Bytes :=
  if !isEnvelope bs then some bs
  else if !keysOn s || slotBad s 9 then none
  else match lookup s.ks.slots 9 with
    | none => none
    | some k => gcmDecrypt k.cur.key (slice bs 0x10 12) (bs.take 32) (bs.drop 64) (slice bs 0x20 16)

/-- The header of an envelope of a kind keeps the rules of 17 Table 17-4; an image that is no envelope has none to keep. -/
def envelopeOk (kind limit : Nat) (bs : Bytes) : Bool :=
  !isEnvelope bs ||
    (leAt bs 4 2 == 1 && leAt bs 6 2 == kind && decide (leAt bs 8 4 ≤ limit) && leAt bs 0xC 4 == 0 && leAt bs 0x1C 4 == 0 &&
      leAt bs 0x30 16 == 0 && bs.length == 64 + leAt bs 8 4)

/-- The image-set digest (01 R46). -/
def imageSetDigest (s : State) : Bytes :=
  let net := match s.net.image with | some n => n.header | none => []
  let prog := match activeProg s with | some p => p.header | none => []
  let solves := s.sv.slots.flatMap (fun x => match x.img with | some p => p.header | none => [])
  let conf := match s.pa.conf with | some c => c.header | none => []
  sha256 (net ++ prog ++ solves ++ conf)

/-! Replacing a key (17 R436 to R439). -/

/-- A line in use names the slot as LINE_KEY. -/
def lineNames (s : State) (slot : Nat) : Bool :=
  match s.net.image with
  | some n => (List.range 64).any (fun l => n.lineUsed l && (n.lineAt l).lineKey == slot)
  | none => false

/-- The fields of a wrapped key are in their rules (17 Table 17-5, R437). -/
def wrappedOk (slot : Nat) (p : Bytes) : Bool :=
  decide (8 ≤ slot ∧ slot ≤ 63) && leAt p 0 2 == 1 && leAt p 2 1 == slot && leAt p 3 1 == slotKind slot && leAt p 4 4 == 0 && leAt p 0x84 12 == 0

/-- The unwrapped key, none where Q is not on the curve or the tag fails (17 R436). -/
def unwrapKey (s : State) (slot : Nat) (p : Bytes) : Option Bytes :=
  let q := (beNat (slice p 8 32), beNat (slice p 0x28 32))
  if !onCurve q then none
  else match ecMul importKey (some q) with
    | none => none
    | some z =>
      let w := deriveKey (natBe 32 z.1) (ascii "qg64/wrap") (natLe 8 s.part.serial ++ natLe 1 slot ++ slice p 8 32)
      gcmDecrypt w (slice p 0x48 12) (p.take 0x48) (slice p 0x54 32) (slice p 0x74 16)

/-- The staged key enters its slot: the copy that was not in force is written, with the generation plus 1 (17 R439). -/
def installKey (s : State) (slot : Nat) : State :=
  match s.ks.staged with
  | none => s
  | some k =>
    let was := lookup s.ks.slots slot
    let gen := match was with | some w => (w.cur.gen + 1) % 65536 | none => 1
    let x : KeySlot := { cur := { gen := gen, key := k.key }, other := if slotBad s slot then none else was.map (fun w => w.cur) }
    { s with ks := { s.ks with slots := insertAt s.ks.slots slot x, bad := s.ks.bad.filter (fun b => b != slot), staged := none, commit := none } }

/-- Old line keys are accepted up to their last cycle (17 R439). -/
def dropOldKeys (s : State) (k : Nat) : State := { s with ks := { s.ks with old := s.ks.old.filter (fun o => decide (k ≤ o.last)) } }

/-- The write of a commit has completed: after 100 µs at the latest, before that as a free bit says (17 R439; notes/assumptions/36). -/
def commitWritten (s : State) (c : KeyCommit) : Bool := decide (c.since + 100 ≤ s.clk.nt) || bit (freeWord s).toNat 0

/-- At boundary k a commit of a line's slot that has been written, of the mailboxes meant, takes effect: the old key is accepted in cycles k and k + 1 (17 R439). -/
def commitAtBoundary (s : State) (k : Nat) (mine : Nat → Bool) : State :=
  match s.ks.commit.filter (fun c => mine c.mb) with
  | none => s
  | some c =>
    if !lineNames s c.slot then s
    else if !commitWritten s c then drew s
    else
      let old := match lookup s.ks.slots c.slot with
        | some w => if slotBad s c.slot then [] else [{ slot := c.slot, key := w.cur.key, last := k + 1 }]
        | none => []
      let s := installKey { s with ks := { s.ks with old := s.ks.old ++ old } } c.slot
      replyTo s c.mb Reply.ok

/-- The commit whose command completes now: one that no line names takes effect here (17 R439). -/
def commitCompletes (s : State) (slot status : Nat) : State :=
  let s := match s.ks.commit with
    | some _ => installKey s slot
    | none => s
  maEnd s 6 slot status

/-- A commit that a reset or a loss of power meets: with its copy where that has been written, else without (17 R439; notes/assumptions/36). -/
def commitCutOff (s : State) : State :=
  match s.ks.commit with
  | none => s
  | some c => if commitWritten s c then drew (installKey s c.slot) else drew { s with ks := { s.ks with commit := none } }

/-! Meanings. -/

/-- KEY_INFO: the 64 slot entries (13 Table 13-14, 17 R431). -/
def execKeyInfo (mb : Nat) (s : State) : Out :=
  runCommand s mb 0x0A01 (fun _ =>
    let page := (List.range 64).flatMap (slotEntry s)
    finish { s with free := s.free + 66 } mb { Reply.ok with page := page, res0 := b2n (keysOn s) })

/-- KEY_STAGE: the wrapped key is unwrapped and staged, and MA06 begins (17 R436, R437). -/
def execKeyStage (mb : Nat) (s : State) : Out :=
  runCommand s mb 0x0A02 (fun b =>
    let slot := b.arg0.toNat
    let p := b.request
    if !keysOn s then refuse s mb stNotPermitted
    else if b.reqLen ≠ 144 ∨ !wrappedOk slot p then refuse s mb stBadParameter
    else if s.ks.staged.isSome then refuse s mb stBusy
    else if collides s 6 slot then refuse s mb stConflict
    else if slotBad s 2 then refuse s mb stKeyBad
    else match unwrapKey s slot p with
      | none => refuse s mb stAuthFailed
      | some k => maStart (finish { s with ks := { s.ks with staged := some { slot := slot, key := k, verified := false } } } mb Reply.ok) 6 slot)

/-- KEY_VERIFY: the staged key is checked against its check value (17 R438). -/
def execKeyVerify (mb : Nat) (s : State) : Out :=
  runCommand s mb 0x0A03 (fun b =>
    match s.ks.staged with
    | none => refuse s mb stNotPermitted
    | some k =>
      if !keysOn s || k.slot != b.arg0.toNat then refuse s mb stNotPermitted
      else if checkValue k.key = b.arg1.toNat % 2 ^ 24 then
        finish { s with ks := { s.ks with staged := some { k with verified := true } } } mb Reply.ok
      else refuse s mb stAuthFailed)

/-- KEY_COMMIT: the staged and verified key is written; it takes effect with the completion, or at a boundary where a line names the slot (17 R439). -/
def execKeyCommit (mb : Nat) (s : State) : Out :=
  runCommand s mb 0x0A04 (fun b =>
    match s.ks.staged with
    | none => refuse s mb stNotPermitted
    | some k =>
      if !keysOn s || k.slot != b.arg0.toNat || !k.verified then refuse s mb stNotPermitted
      else
        let s := accept { s with ks := { s.ks with commit := some { slot := k.slot, mb := mb, since := s.clk.nt } } } mb
        if lineNames s k.slot then s else replyTo s mb Reply.ok)

/-- KEY_DISCARD: the staged key is dropped, and MA06 ends (17 R437). -/
def execKeyDiscard (mb : Nat) (s : State) : Out :=
  runCommand s mb 0x0A05 (fun b =>
    match s.ks.staged with
    | none => refuse s mb stNotPermitted
    | some k =>
      if !keysOn s || k.slot != b.arg0.toNat then refuse s mb stNotPermitted
      else maEnd (finish { s with ks := { s.ks with staged := none } } mb Reply.ok) 6 k.slot stOk)

/-- Free bytes, from `n` free words (notes/assumptions/10). -/
def freeBytes (s : State) (n : Nat) : Bytes := (List.range n).flatMap (fun i => natLe 4 (Config.freeWord (s.free + i)).toNat)

/-- KEY_ID and public key of METER_SIGN; the key of a BAD slot is not stated (17 Table 17-7; notes/assumptions/35). -/
def meterPublic (s : State) : Bytes :=
  if slotBad s 0 then freeBytes s 17
  else
    let p := publicKey (meterSignKey s)
    keyId p ++ p

/-- Statement bytes 0x000 to 0x16F (17 Table 17-7). -/
def statement (s : State) (b : Mailbox) : Bytes :=
  natLe 2 1 ++ natLe 2 0 ++ natLe 4 0x00030002 ++ natLe 8 s.part.serial ++ wordsLe b.args ++ natLe 8 s.clk.nt ++ natLe 8 s.rtc.tick ++
  natLe 4 (mcc s) ++ natLe 4 (b2n (timeValid s) + 2 * b2n (slotState s 8 == 0)) ++ s.ks.bm.flatMap id ++ imageSetDigest s ++
  derivedId s 1 ++ meterPublic s ++ (List.range 64).flatMap (fun n => natLe 1 (slotState s n)) ++ natLe 4 (slotCheck s 8) ++
  natLe 4 (slotCheck s 9) ++ natLe 8 0

/-- ATTEST: the signed statement, then the factory certificate (17 R440). -/
def execAttest (mb : Nat) (s : State) : Out :=
  runCommand s mb 0x0A06 (fun b =>
    if !keysOn s then refuse s mb stNotPermitted
    else if slotBad s 1 then refuse s mb stKeyBad
    else
      let st := statement s b
      let page := st ++ ecdsaSign attestKey (sha256 st) ++ natLe 4 Config.certificate.length ++ Config.certificate
      replyTo (accept { s with free := s.free + 17 } mb) mb { Reply.ok with page := page })

/-- KEY_PUBLIC: the KEY_ID and public key of METER_SIGN or ATTEST (17 R434). -/
def execKeyPublic (mb : Nat) (s : State) : Out :=
  runCommand s mb 0x0A07 (fun b =>
    let n := b.arg0.toNat
    if !keysOn s then refuse s mb stNotPermitted
    else if 2 ≤ n then refuse s mb stBadParameter
    else if slotBad s n then refuse s mb stKeyBad
    else
      let p := publicKey (if n = 0 then meterSignKey s else attestKey)
      finish s mb { Reply.ok with page := keyId p ++ p })

/-- The fault of a slot found BAD: DEGRADE where a line names it, else WARN (17 Table 17-8). -/
def keyFault (s : State) (n : Nat) : State := raiseFault s 0x0160 (if lineNames s n then 3 else 2) 8 [word n]

/-- A slot is found BAD. -/
def slotFails (s : State) (n : Nat) : State :=
  keyFault { s with ks := { s.ks with bad := if slotBad s n then s.ks.bad else s.ks.bad ++ [n] } } n

/-- The check of a slot's record finds copies that are not valid: bit 0 the copy in force, bit 1 the other. The valid copy with the higher generation is in force; with none left the slot is BAD. An EMPTY slot has no record to fail (17 R429, R441). -/
def recordCheck (s : State) (x : Nat × Nat) : State :=
  if slotState s x.1 = 0 then s
  else match lookup s.ks.slots x.1 with
    | none => if x.2 % 4 = 3 then slotFails s x.1 else s
    | some k =>
      let other := if bit x.2 1 then none else k.other
      let k := if bit x.2 0 then other.map (fun c => ({ cur := c, other := none } : KeySlot)) else some { k with other := other }
      match k with
      | some k => { s with ks := { s.ks with slots := insertAt s.ks.slots x.1 k } }
      | none => slotFails s x.1

/-- The records that a check found with copies that are not valid (17 R429, R441). -/
def foundBad (s : State) (bad : List (Nat × Nat)) : State := bad.foldl recordCheck s

/-- KEY_SLOT_CHECK: in RUN every slot is checked again 3,600 s after the check before (17 R429, R441). -/
def execKeySlotCheck (bad : List (Nat × Nat)) (s : State) : Out :=
  if !inRun s || s.ft.hwsafe then done s
  else
    let s := advanceTo s (s.pwr.slotCheckAt + 3600000000)
    done (foundBad { s with pwr := { s.pwr with slotCheckAt := s.clk.nt } } bad)

end Sys2Proof.Machine
end

