-- ==== Sys2Proof/Machine/Cycle.lean ====
section
/-! DEFINITION. The cycle engine: releases, publications, overruns, barriers, the run of one block instance, the program swap and its commands (05_cycle_engine R129 to R161). -/
namespace Sys2Proof.Machine

/-! Tasks: 0 FAST, 1 NETWORK, 2 SLOW (05 Table 5-9). -/

/-- The number of a task class. -/
def taskNo (t : TaskClass) : Nat :=
  match t with
  | .fast => 0
  | .network => 1
  | .slow => 2

/-- What is kept of a task. -/
def taskRun (s : State) (t : Nat) : TaskRun := if t = 0 then s.ce.fast else if t = 1 then s.ce.network else s.ce.slow

/-- What is kept of a task changes. -/
def onTask (s : State) (t : Nat) (f : TaskRun → TaskRun) : State :=
  { s with ce :=
      if t = 0 then { s.ce with fast := f s.ce.fast }
      else if t = 1 then { s.ce with network := f s.ce.network }
      else { s.ce with slow := f s.ce.slow } }

/-- The cores of a task's mask (05 Table 5-7). -/
def ProgImage.cores (p : ProgImage) (t : Nat) : List Nat := (List.range 4).filter (fun c => bit (p.taskAt t).mask c)

/-! The cycle of the releases: in REPLAY that of the record (01 R49). -/

/-- Tasks are released: RUN past T0, and in REPLAY only on a record. -/
def releases (s : State) : Bool := cycling s && !s.ft.hwsafe && (!s.rp.running || s.rp.cycle.isSome)

/-- The count of the cycle whose releases are due. -/
def relCycle (s : State) : Nat := match s.rp.cycle with | some r => r.cycle | none => mcc s

/-- Tk of that cycle, as start NTs count from it. -/
def relStart (s : State) : Nat := match s.rp.cycle with | some r => r.start | none => cycleStart s

/-- The SLOW task is due in the cycle (05 R131). -/
def slowDue (s : State) (p : ProgImage) : Bool := p.present 2 && relCycle s % p.slowFactor == 0

/-- The number of FAST releases of a cycle (05 Table 5-1). -/
def fastReleases (s : State) (p : ProgImage) : Nat := if p.present 0 then cycleLen s / p.fastPeriod else 0

/-- The period of a task in µs; 0 where it is absent (05 Table 5-4). -/
def periodOf (s : State) (p : ProgImage) (t : Nat) : Nat :=
  if !p.present t then 0 else if t = 0 then p.fastPeriod else if t = 1 then cycleLen s else p.slowFactor * cycleLen s

/-! Overruns (05 R142, R143). -/

/-- Overruns among the last 100 release instants. -/
def TaskStat.recent (x : TaskStat) : Nat := (x.hist.filter id).length

/-- A release instant passes, skipped or not. -/
def TaskStat.instant (x : TaskStat) (skip : Bool) : TaskStat :=
  { x with hist := (skip :: x.hist).take 100, overruns := if skip then wrap32 (x.overruns + 1) else x.overruns }

/-- A SLOW boundary whose release is skipped leaves no snapshot of DP operands: the one before stays in place (08 R218). -/
def dropSnapshots (s : State) (t : Nat) : State :=
  if t ≠ 2 then s
  else { s with sv := { s.sv with slots := s.sv.slots.map (fun (x : SolveSlot) =>
      if (x.img.map (fun p => p.cls)) = some 2 then { x with snaps := x.snaps.filter (fun y => y.cycle != relCycle s) } else x) } }

/-- A release is skipped: an overrun, and a DEGRADE fault each time the count rises to 3. -/
def skipRelease (s : State) (t : Nat) : State :=
  let was := (taskRun s t).stat.recent
  let s := onTask (dropSnapshots s t) t (fun r => { r with
    stat := r.stat.instant true
    exec := r.exec.map (fun e => { e with skipped := e.skipped + 1, missed := true }) })
  let is_ := (taskRun s t).stat.recent
  if was < 3 ∧ 3 ≤ is_ then raiseFault s 0x0120 3 1 [word t, word is_] else s

/-! Completion and publication. -/

/-- An execution completes (05 Table 5-4, R148). -/
def completeTask (s : State) (t : Nat) (e : Exec) : State :=
  let time := Nat.min (2 ^ 32 - 1) (s.clk.nt - e.release)
  onTask s t (fun r => { r with
    exec := none, prevOk := true, stopped := false
    stat := { r.stat with
      last := time
      max := Nat.max r.stat.max time
      slack := if e.missed || decide (e.deadline < s.clk.nt) then r.stat.slack else Nat.min r.stat.slack (e.deadline - s.clk.nt) } })

/-- An execution whose lists are done completes. -/
def settleTask (s : State) (t : Nat) : State :=
  match (taskRun s t).exec, activeProg s with
  | some e, some p => if (p.cores t).all (fun c => !coreBusyIn p t e c) then completeTask s t e else s
  | _, _ => s

/-- The exports of a task are published, if its previous execution has completed (05 R138). -/
def publishTask (s : State) (t : Nat) : State :=
  let r := taskRun s t
  match activeProg s with
  | none => s
  | some p =>
    if r.exec.isNone && r.prevStart.isSome && r.prevOk && p.present t then
      let s := setActiveArea s (publishArea p (activeSlot s).area t)
      if t = 2 then onTask s 2 (fun r => { r with late := false }) else s
    else s

/-- At Tk + 250 µs all publications come before any release (05 R138). -/
def publishDue (s : State) (t : Nat) : State :=
  if s.ce.pubNt = some t then s
  else
    let s := publishTask (publishTask s 0) 1
    let s := match activeProg s with | some p => if slowDue s p then publishTask s 2 else s | none => s
    { s with ce := { s.ce with pubNt := some t } }

/-- A release instant of a task: an execution starts, or the release is skipped (05 R129, R140, R142, R145). -/
def releaseTask (s : State) (p : ProgImage) (t offset deadline : Nat) : State :=
  let r := taskRun s t
  let skip := r.exec.isSome || (t == 1 && r.late)
  let s := onTask s t (fun r => { r with nextRel := r.nextRel + 1, late := if t = 1 then false else r.late })
  if skip then skipRelease s t
  else
    let start := relStart s + offset
    let e : Exec :=
      { start := start, cycle := relCycle s, release := s.clk.nt, deadline := deadline
        dt := match r.prevStart with | some x => start - x | none => 0
        pos := [0, 0, 0, 0], snap := takeSnap p (activeSlot s).area t
        di := match s.rp.cycle with | some x => nth 0 x.dis r.nextRel | none => s.vn.diFilt
        skipped := 0, missed := false, tick := s.ce.latchTick, valid := s.ce.latchValid, beyond := s.ce.latchBeyond
        pubs := s.sv.slots.map (fun x => x.pub), view := none }
    let s := onTask s t (fun r => { r with
      exec := some e, prevStart := some start
      stat := { r.stat.instant false with started := wrap32 (r.stat.started + 1) } })
    settleTask s t

/-- A swap that has taken place completes at Tk + 250 µs (05 Table 5-14, step 6). -/
def swapCompletes (s : State) : State :=
  match s.ce.swap with
  | some x => if x.started then replyTo { s with ce := { s.ce with swap := none } } x.mb { Reply.ok with res0 := x.deferrals } else s
  | none => s

/-! The run of one instance. -/

/-- The entry that a core would execute next of a task. -/
def nextEntry (s : State) (p : ProgImage) (t c : Nat) : Option (Exec × ListEntry) :=
  match (taskRun s t).exec with
  | none => none
  | some e =>
    match (p.coreList t c)[nth 0 e.pos c]? with
    | some x => some (e, x)
    | none => none

/-- An entry is an instance that may start: none does once 8 releases have been skipped (05 R145). -/
def readyInst (x : Option (Exec × ListEntry)) : Option (Exec × Nat) :=
  match x with
  | some (e, .inst i) => if e.skipped < 8 then some (e, i) else none
  | _ => none

/-- What a core executes next: the ready task of highest priority, its execution and the instance (05 R133, R134). -/
def nextInst (s : State) (p : ProgImage) (c : Nat) : Option (Nat × Exec × Nat) :=
  match readyInst (nextEntry s p 0 c) with
  | some (e, i) => some (0, e, i)
  | none =>
    match readyInst (nextEntry s p 1 c) with
    | some (e, i) => some (1, e, i)
    | none =>
      match readyInst (nextEntry s p 2 c) with
      | some (e, i) => some (2, e, i)
      | none => none

/-- What a block sees in one execution. `s` is the state as its core reads it. -/
structure Ctx where
  s : State
  net : NetImage
  prog : ProgImage
  exec : Exec
  task : Nat
  index : Nat
  inst : Inst
  ins : List Sig
  prev : List Sig
  spec : List Word
  first : Bool
  dt : Nat
  trig : Bool

/-- What a block makes of it: outputs, block-specific state, whether it held its first execution (06 R171), and the last TRIG. -/
structure BlkOut where
  outs : List Sig
  spec : List Word
  held : Bool
  trig : Bool

/-- Outputs alone. -/
def BlkOut.of (outs : List Sig) : BlkOut := { outs := outs, spec := [], held := false, trig := false }

/-- Input i. -/
def Ctx.input (c : Ctx) (i : Nat) : Sig := nth { value := 0, quality := 0 } c.ins i

/-- Parameter i. -/
def Ctx.param (c : Ctx) (i : Nat) : Word := nth 0 c.inst.params i

/-- TYPE word i. -/
def Ctx.typeWord (c : Ctx) (i : Nat) : Nat := (nth 0 c.inst.types i).toNat

/-- The value that output slot i holds from the previous execution. -/
def Ctx.held (c : Ctx) (i : Nat) : Word := (nth { value := 0, quality := 0 } c.prev i).value

/-- A point-image entry whose word is poisoned (05 R146). -/
def Entry.zero : Entry := { value := 0, quality := 0, age := 0 }

/-- The run-time fields of a unit with word `w` of its descriptor read as 0 (05 R146, 02 Table 2-2). -/
def UnitRun.zeroWord (r : UnitRun) (w : Nat) : UnitRun :=
  match w with
  | 0 => { r with oosOwn := false, oosInh := false }
  | 2 => { r with svcSince := 0 }
  | 3 => { r with station := 0 }
  | _ => r

/-- A unit of a table of run-time fields read with a word of its descriptor as 0. -/
def zeroUnit (m : NMap UnitRun) (u w : Nat) : NMap UnitRun := setD UnitRun.reset m u ((runIn m u).zeroWord w)

/-- The core reads the live images, areas and unit states with the poisoned 64-bit word taken as 0; in REPLAY those of the record (05 R146, 01 R49; notes/assumptions/33). -/
def poisonRead (s : State) (addr : Nat) : State :=
  match Config.placeOf addr with
  | .input p => { s with
      pt := { s.pt with input := setD Entry.reset s.pt.input p Entry.zero }
      rp := { s.rp with cycle := s.rp.cycle.map (fun (r : FeedRec) => { r with entries := setD Entry.reset r.entries p Entry.zero }) } }
  | .output p => { s with pt := { s.pt with output := setD Entry.reset s.pt.output p Entry.zero } }
  | .unit u =>
    let w := addr / 8 % 4
    let s := { s with
      un := { s.un with atBoundary := zeroUnit s.un.atBoundary u w }
      rp := { s.rp with cycle := s.rp.cycle.map (fun (r : FeedRec) => { r with units := zeroUnit r.units u w }) } }
    match w, s.net.image with
    | 0, some n => { s with net := { s.net with image := some { n with units := modifyNth n.units u (fun d => { d with typ := 0 }) } } }
    | _, _ => s
  | .area q => setActiveArea s (setArea (setArea (activeSlot s).area (2 * q) 0) (2 * q + 1) 0)
  | _ => s

/-- An execution reads the images, unit states and published copies that it holds of its own with the poisoned word taken as 0 (05 R146, R138, Table 5-2). -/
def poisonExec (p : ProgImage) (e : Exec) (addr : Nat) : Exec :=
  match Config.placeOf addr with
  | .input x => { e with view := e.view.map (fun v => { v with input := setD Entry.reset v.input x Entry.zero }) }
  | .output x => { e with view := e.view.map (fun v => { v with output := setD Entry.reset v.output x Entry.zero }) }
  | .unit u => { e with view := e.view.map (fun v => { v with units := zeroUnit v.units u (addr / 8 % 4) }) }
  | .area q => { e with snap := e.snap.map (fun x =>
      match p.varAt x.1 with
      | some v => if (x.1 + v.length) / 2 = q then (x.1, 0) else x
      | none => x) }
  | _ => e

/-- The poisoned word that a core's next read meets. -/
def poisonOf (s : State) (core : Nat) : Option (Nat × Nat) := s.ce.poison.find? (fun x => x.1 == core)

/-- What an instance of the active program sees. -/
def ctxOf (s : State) (n : NetImage) (p : ProgImage) (core task : Nat) (e : Exec) (idx : Nat) : Ctx :=
  let i := p.instAt idx
  let e := match poisonOf s core with | some x => poisonExec p e x.2 | none => e
  let s := match poisonOf s core with | some x => poisonRead s x.2 | none => s
  let m := (activeSlot s).area
  let r := (lookup s.ce.inst idx).getD { carried := none, last := 0, trig := false }
  let first := !(areaWord m i.flagWord).getLsbD 0
  { s := s, net := n, prog := p, exec := e, task := task, index := idx, inst := i
    ins := (i.inputs.take (inputsRead i)).map (inputSig p m e task)
    prev := (List.range i.outputs).map (slotSig m i)
    spec := areaWords m i.specWord i.specWords
    first := first
    dt := if first then 0 else match r.carried with | some x => e.start - x | none => e.dt
    trig := r.trig }

/-- An output as it is stored: REPLAY while REPLAY runs, FAILSAFE after a poisoned read (06 R168, 05 R146). -/
def storedSig (s : State) (poisoned : Bool) (x : Sig) : Sig :=
  let q := if poisoned then x.quality / 8 * 8 + 3 else x.quality
  { x with quality := setBit (q % 128) 6 s.rp.running }

/-- Output slots and bound elements are written (06 R165, R166). -/
def storeOuts (m : NMap Word) (i : Inst) (o : Nat) (outs : List Sig) : NMap Word :=
  match outs with
  | [] => m
  | x :: t =>
    let m := setWords m (i.slotWord o) [x.value, word x.quality]
    let m := match bindingElem (nth 0xFFFFFFFF i.outs o) with | some w => setArea m w x.value | none => m
    storeOuts m i (o + 1) t

/-- The execution of an instance ends: its state and outputs are written, and its core goes on to the next entry (05 R132, 06 R165, R171). -/
def endInst (s : State) (c : Ctx) (core : Nat) (o : BlkOut) : State :=
  let i := c.inst
  let bad := (poisonOf s core).isSome
  let m := (activeSlot s).area
  let m := if i.block = 0 then m
    else
      let m := storeOuts m i 0 (o.outs.map (storedSig s bad))
      let m := if o.held then m else setArea m i.flagWord 1
      setWords m i.specWord (if o.held then c.spec else o.spec)
  let s := setActiveArea s m
  let s := { s with ce := { s.ce with
      inst := insertAt s.ce.inst c.index { carried := none, last := c.exec.start, trig := o.trig }
      poison := match poisonOf s core with | some x => s.ce.poison.erase x | none => s.ce.poison } }
  let s := onTask s c.task (fun r => { r with exec := r.exec.map (fun e => { e with pos := setNth e.pos core (nth 0 e.pos core + 1) }) })
  settleTask s c.task

/-- An instance of a block runs on a core, with an effect beyond its own state. -/
def runEffect (s : State) (core code : Nat) (f : Ctx → BlkOut) (g : Ctx → BlkOut → State → State) : Out :=
  match s.net.image, activeProg s with
  | some n, some p =>
    if 4 ≤ core || !cycling s || s.ft.hwsafe then done s
    else
      match nextInst s p core with
      | none => done s
      | some (t, e, i) =>
        if (p.instAt i).block ≠ code then done s
        else
          let c := ctxOf s n p core t e i
          let o := f c
          done (endInst (g c o s) c core o)
  | _, _ => done s

/-- An instance of a block runs on a core. -/
def runBlock (s : State) (core code : Nat) (f : Ctx → BlkOut) : Out := runEffect s core code f (fun _ _ s => s)

/-! The status record (05 R148). -/

/-- Statistics of a task (05 Table 5-4). -/
def statBytes (s : State) (p : Option ProgImage) (t : Nat) : Bytes :=
  let x := (taskRun s t).stat
  let per := match p with | some p => Nat.min (2 ^ 32 - 1) (periodOf s p t) | none => 0
  natLe 4 per ++ natLe 4 x.started ++ natLe 4 x.overruns ++ natLe 2 x.recent ++ natLe 2 0 ++ natLe 4 x.last ++ natLe 4 x.max ++
  natLe 4 (Nat.min x.slack (2 ^ 32 - 1)) ++ natLe 4 0

/-- The record (05 Table 5-3). -/
def ceRecord (s : State) : Bytes :=
  let p := activeProg s
  natLe 4 (mcc s) ++ natLe 1 s.ce.active ++ natLe 1 (b2n s.ce.swap.isSome) ++
  natLe 2 (match s.ce.swap with | some x => x.deferrals | none => 0) ++
  natLe 4 (match p with | some p => p.programId | none => 0) ++ natLe 4 (match p with | some p => p.version | none => 0) ++
  statBytes s p 0 ++ statBytes s p 1 ++ statBytes s p 2 ++
  s.ce.idle.flatMap (fun x => natLe 4 x.last) ++ s.ce.idle.flatMap (fun x => natLe 4 x.min)

/-- Idle counts of a cycle that closes (05 R147). -/
def Idle.close (x : Idle) : Idle := { running := 0, last := wrap32 x.running, min := Nat.min x.min (wrap32 x.running) }

/-! The swap (05 R155 to R160). -/

/-- A conversion of an element (05 Table 5-13), none where the swap is refused. `sig` is TYPE and SCALE. -/
def convertCarried (old new : SigType) (v : Word) : Option Word :=
  if old = new then some v
  else if typOf old = 0 then
    match typOf new with
    | 1 | 2 => some v
    | 4 => if -30 ≤ scaleOf new ∧ scaleOf new ≤ 0 then some (if v.getLsbD 0 then word (2 ^ (-scaleOf new).toNat) else 0) else none
    | _ => none
  else none

/-- The variable of the old program that a RETAIN variable is carried from (05 R156). -/
def carriedVar (old : ProgImage) (v : VarRec) : Option VarRec :=
  if v.retain then old.vars.find? (fun w => w.ident == v.ident && w.retain) else none

/-- A variable may be carried (05 Table 5-13). -/
def varCarries (w v : VarRec) : Bool := decide (w.length ≤ v.length) && (convertCarried w.sigType v.sigType 0).isSome

/-- The instance of the old program that an instance is carried from, by its index (05 R156). -/
def carriedInst (old : ProgImage) (i : Inst) : Option Nat :=
  ((indexed old.insts).find? (fun q => q.2.ident == i.ident && q.2.block == i.block)).map (fun q => q.1)

/-- The types of an instance's outputs. -/
def instTypes (n : NetImage) (i : Inst) : List SigType := outputTypes i.block i.types (instPointType n i)

/-- An instance's state may be carried: each of its output slots converts (05 Table 5-13). -/
def instCarries (n : NetImage) (a b : Inst) : Bool :=
  ((instTypes n a).zip (instTypes n b)).all (fun q => (convertCarried q.1 q.2 0).isSome)

/-- The first identifier that Table 5-13 refuses: with 0 for a VAR_ID, 1 for an INSTANCE_ID (05 Table 5-12, row 5). -/
def refusedCarry (n : NetImage) (old new : ProgImage) : Option (Nat × Nat) :=
  match new.vars.find? (fun v => match carriedVar old v with | some w => !varCarries w v | none => false) with
  | some v => some (v.ident, 0)
  | none =>
    match new.insts.find? (fun i => match carriedInst old i with | some j => !instCarries n (old.instAt j) i | none => false) with
    | some i => some (i.ident, 1)
    | none => none

/-- A variable is carried from one area into another, published copy with it. -/
def carryVar (from_ : NMap Word) (m : NMap Word) (w v : VarRec) : NMap Word :=
  let conv := fun x => (convertCarried w.sigType v.sigType x).getD x
  let m := setWords m (v.offset / 4) ((areaWords from_ (w.offset / 4) w.length).map conv)
  if w.exported && v.exported then setWords m (v.offset / 4 + v.length) ((areaWords from_ (w.offset / 4 + w.length) w.length).map conv)
  else m

/-- An instance's state is carried. -/
def carryInst (n : NetImage) (from_ m : NMap Word) (a b : Inst) : NMap Word :=
  let m := setWords m (b.stateOfs / 4) (areaWords from_ (a.stateOfs / 4) (a.stateBytes / 4))
  (indexed ((instTypes n a).zip (instTypes n b))).foldl (fun m q =>
    setArea m (b.slotWord q.1) ((convertCarried q.2.1 q.2.2 (areaWord from_ (a.slotWord q.1))).getD 0)) m

/-- The new program's area after the carry-over, and the bytes carried (05 R156, R157). -/
def carryArea (n : NetImage) (old : ProgSlot) (p q : ProgImage) : NMap Word × Nat :=
  let vars := q.vars.filterMap (fun v => (carriedVar p v).map (fun w => (w, v)))
  let insts := q.insts.filterMap (fun i => (carriedInst p i).map (fun j => (p.instAt j, i)))
  let insts := insts.filter (fun x => x.2.block != 0)
  let m := vars.foldl (fun m x => carryVar old.area m x.1 x.2) (initArea q)
  let m := insts.foldl (fun m x => carryInst n old.area m x.1 x.2) m
  (m, sumOf (vars.map (fun x => if x.1.exported && x.2.exported then 8 * x.1.length else 4 * x.1.length)) + sumOf (insts.map (fun x => x.1.stateBytes)))

/-- What is kept of the instances that a swap carries. -/
def carryRuns (p q : ProgImage) (m : NMap InstRun) : NMap InstRun :=
  (indexed q.insts).foldl (fun acc x =>
    match carriedInst p x.2 with
    | none => acc
    | some j =>
      match lookup m j with
      | some r => insertAt acc x.1 { r with carried := some r.last }
      | none => acc) []

/-- A task starts anew in a program that comes in: what the statistics keep since the last swap starts again (05 R148). -/
def TaskRun.anew (r : TaskRun) : TaskRun :=
  { r with exec := none, prevStart := none, prevOk := true, late := false, stat := { r.stat with max := 0, slack := 0xFFFFFFFF } }

/-- The conditions at which a pending swap starts (05 R158). -/
def swapReady (s : State) (p : ProgImage) (x : Swap) : Bool :=
  !x.started && decide (x.firstCycle ≤ s.clk.k) && releases s && s.ce.pubNt == some (cycleStart s + 250) &&
  s.ce.network.exec.isNone && s.ce.fast.exec.isNone && decide (fastReleases s p ≤ s.ce.fast.nextRel) && s.ce.slow.exec.isNone &&
  decide (s.clk.nt + 200 ≤ boundaryNt s (s.clk.k + 1))

/-- The swap: no release is accepted any more in this cycle, the new slot is marked active in the retained store, the carried data is copied, and the slots change places; the next cycle is marked ONLINE_CHANGE (05 Table 5-14). -/
def swapNow (s : State) (n : NetImage) (p q : ProgImage) (x : Swap) : State :=
  let to_ := 1 - s.ce.active
  let r := carryArea n (activeSlot s) p q
  let s := setPage0 (noteExcNext s 4) 0 4 to_
  let s := setProgSlot s to_ { progSlot s to_ with area := r.1 }
  let s := { s with ce := { s.ce with
      active := to_, inst := carryRuns p q s.ce.inst, swap := some { x with started := true }, areaWas := r.1
      fast := { s.ce.fast.anew with nextRel := fastReleases s q }, network := s.ce.network.anew, slow := s.ce.slow.anew
      idle := s.ce.idle.map (fun i => { i with min := 0xFFFFFFFF }) } }
  advanceTo s (s.clk.nt + (4 * (2500 + (r.2 + 31) / 32) + 999) / 1000)

/-- A pending swap at boundary k: deferred, and withdrawn when deferred at 16 boundaries (05 R158, R159). -/
def swapBoundary (s : State) (k : Nat) : State :=
  match s.ce.swap with
  | none => s
  | some x =>
    if x.started || decide (k < x.firstCycle + 1) then s
    else if 16 ≤ x.deferrals + 1 then
      replyTo { s with ce := { s.ce with swap := none } } x.mb { Reply.of stDeferredLimit with res0 := x.deferrals + 1 }
    else { s with ce := { s.ce with swap := some { x with deferrals := x.deferrals + 1 } } }

/-- The standby slot, with its program, if that passes its checks (05 Table 5-12, row 4). -/
def standbyProg (s : State) (n : NetImage) : Option ProgImage :=
  let x := progSlot s (1 - s.ce.active)
  match x.img with
  | some q => if progOk n s.net.digest x.bytes && imageMacOk s x.bytes 0xE0 then some q else none
  | none => none

/-! Meanings. -/

/-- NETWORK_RELEASE: at Tk + 250 µs a swap completes, exports are published, and the NETWORK task and, at a SLOW boundary, the SLOW task are released (05 R129, R138; 01 R34). -/
def execNetworkRelease (s : State) : Out :=
  if !releases s || s.ce.network.nextRel != 0 then done s
  else
    let t := cycleStart s + 250
    let s := publishDue (swapCompletes (advanceTo s t)) t
    match activeProg s with
    | none => done (onTask s 1 (fun r => { r with nextRel := 1 }))
    | some p =>
      let s := if p.present 1 then releaseTask s p 1 250 (boundaryNt s (s.clk.k + 1)) else onTask s 1 (fun r => { r with nextRel := 1 })
      done (if slowDue s p then releaseTask s p 2 250 (boundaryNt s (s.clk.k + p.slowFactor)) else s)

/-- FAST_RELEASE: at a FAST release instant the exports are published and the FAST task is released with the DI set latched (05 R129, R138; 01 Table 1-8). -/
def execFastRelease (s : State) : Out :=
  match activeProg s with
  | none => done s
  | some p =>
    let j := s.ce.fast.nextRel
    if !releases s || fastReleases s p ≤ j then done s
    else
      let off := 250 + j * p.fastPeriod
      let t := cycleStart s + off
      let s := advanceTo s t
      let s := if j = 0 then publishDue s t else publishTask s 0
      done (releaseTask s p 0 off (Nat.min (t + p.fastPeriod) (boundaryNt s (s.clk.k + 1))))

/-- TASK_DEADLINE: an execution that has not completed at its deadline is an overrun (05 R142). -/
def execTaskDeadline (task : TaskClass) (s : State) : Out :=
  match (taskRun s (taskNo task)).exec with
  | none => done s
  | some e =>
    if e.missed || !cycling s then done s
    else done (onTask (advanceTo s e.deadline) (taskNo task) (fun r => { r with late := task != .fast, exec := some { e with missed := true } }))

/-- TASK_STOP: an execution with 8 skipped releases is stopped at its next instance boundary, a SAFE fault (05 R145). -/
def execTaskStop (task : TaskClass) (s : State) : Out :=
  let t := taskNo task
  match (taskRun s t).exec with
  | none => done s
  | some e =>
    if e.skipped < 8 || !cycling s then done s
    else
      let s := onTask s t (fun r => { r with exec := none, prevOk := false, stopped := true, late := r.late && t != 1 })
      done (raiseFault s 0x0121 4 1 [word t, word (taskRun s t).stat.recent])

/-- BARRIER_RELEASE: the cores of a task go on once each of them has reached the same barrier (05 R134). -/
def execBarrierRelease (task : TaskClass) (s : State) : Out :=
  let t := taskNo task
  match activeProg s, (taskRun s t).exec with
  | some p, some e =>
    let at_ := (p.cores t).map (fun c => match (p.coreList t c)[nth 0 e.pos c]? with | some (.barrier b) => some b | _ => none)
    match at_ with
    | some b :: rest =>
      if cycling s && rest.all (fun x => x == some b) then
        let pos := (p.cores t).foldl (fun pos c => setNth pos c (nth 0 pos c + 1)) e.pos
        done (settleTask (onTask s t (fun r => { r with exec := some { e with pos := pos } })) t)
      else done s
    | _ => done s
  | _, _ => done s

/-- SWAP_START: a pending swap starts once its conditions hold (05 R158, R160). -/
def execSwapStart (s : State) : Out :=
  match s.ce.swap, s.net.image, activeProg s, (progSlot s (1 - s.ce.active)).img with
  | some x, some n, some p, some q => if swapReady s p x then done (swapNow s n p q x) else done s
  | _, _, _, _ => done s

/-- CE_STATUS: the status record (13 Table 13-9). -/
def execCeStatus (mb : Nat) (s : State) : Out :=
  runCommand s mb 0x0501 (fun _ => finish s mb { Reply.ok with page := if s.ce.record = [] then ceRecord s else s.ce.record })

/-- CE_SWAP: the checks of 05 Table 5-12, then the swap is pending (05 R155). -/
def execCeSwap (mb : Nat) (s : State) : Out :=
  runCommand s mb 0x0502 (fun _ =>
    if s.ce.swap.isSome then refuse s mb stBusy
    else if collides s 1 0 then refuse s mb stConflict
    else
      match s.net.image, activeProg s with
      | some n, some p =>
        match standbyProg s n with
        | none => refuse s mb stBadImage
        | some q =>
          match refusedCarry n p q with
          | some x => finish s mb { Reply.of stNotPermitted with res1 := x.1, res2 := x.2 }
          | none =>
            let s := maStart (accept s mb) 1 0
            { s with ce := { s.ce with swap := some { mb := mb, deferrals := 0, firstCycle := s.clk.k + 1, started := false } } }
      | _, _ => refuse s mb stBadImage)

/-- CE_SWAP_CANCEL: a pending swap that has not started is withdrawn, and its request completes with ABORTED (05 R159). -/
def execCeSwapCancel (mb : Nat) (s : State) : Out :=
  runCommand s mb 0x0503 (fun _ =>
    match s.ce.swap with
    | some x =>
      if x.started then refuse s mb stNotPermitted
      else finish (replyTo { s with ce := { s.ce with swap := none } } x.mb { Reply.of stAborted with res0 := x.deferrals }) mb Reply.ok
    | none => refuse s mb stNotPermitted)

/-- CE_VAR_READ: elements of a variable as at the last boundary (13 Table 13-9). -/
def execCeVarRead (mb : Nat) (s : State) : Out :=
  runCommand s mb 0x0504 (fun b =>
    match (activeProg s).bind (fun p => p.vars.find? (fun v => v.ident == b.arg0.toNat)) with
    | none => refuse s mb stBadParameter
    | some v =>
      let first := b.arg1.toNat
      let n := b.arg2.toNat
      if n = 0 ∨ 1024 < n ∨ v.length < first + n then refuse s mb stBadParameter
      else
        let base := v.offset / 4 + (if v.exported then v.length else 0) + first
        finish s mb { Reply.ok with page := wordsLe (areaWords s.ce.areaWas base n), res0 := v.typ, res2 := mcc s })

end Sys2Proof.Machine
end

