-- ==== Sys2Proof/Machine/Arithmetic.lean ====
section
/-! DEFINITION. The arithmetic blocks (06_block_library R170, R172 to R174). A block is a function of what its instance sees; its command runs it on a core. -/
namespace Sys2Proof.Machine

/-- The quality bytes of some signals. -/
def quals (l : List Sig) : List Nat := l.map (fun x => x.quality)

/-- The operating type of the TYPE word. -/
def Ctx.typ (c : Ctx) : Nat := typOf (c.typeWord 0)

/-- SCALE of the TYPE word. -/
def Ctx.scale (c : Ctx) : Int := scaleOf (c.typeWord 0)

/-- The first n inputs. -/
def Ctx.first_ (c : Ctx) (n : Nat) : List Sig := (List.range n).map c.input

/-- A result: a word, LIMIT and OVERRANGE. -/
structure Res where
  value : Word
  limit : Bool
  overrange : Bool

/-- A result without flags. -/
def Res.plain (v : Word) : Res := { value := v, limit := false, overrange := false }

/-- A result saturated to an integer type (06 R170). -/
def Res.sat (typ : Nat) (x : Int) : Res :=
  let r := satWord typ x
  { value := r.1, limit := r.2, overrange := false }

/-- One output of the operating type, quality W over the inputs given. -/
def Ctx.result (c : Ctx) (xs : List Sig) (r : Res) : BlkOut :=
  BlkOut.of [if c.typ = 3 then outFloat (quals xs) r.value r.limit r.overrange else outWord (quals xs) r.value r.limit r.overrange]

/-- The numbers of some signals of an integer type. -/
def ints (typ : Nat) (l : List Sig) : List Int := l.map (fun x => intOf typ x.value)

/-- The first value and the others. -/
def headVal (l : List Sig) : Word := (nth { value := 0, quality := 0 } l 0).value

/-- A binary32 operation over the inputs in index order. -/
def foldFloat (f : Word → Word → Word) (l : List Sig) : Word := (l.drop 1).foldl (fun a x => f a x.value) (headVal l)

/-- ADD: the exact sum, saturated once; binary32 in index order. -/
def addBlock (c : Ctx) : BlkOut :=
  let xs := c.first_ (c.param 0).toNat
  c.result xs (if c.typ = 3 then .plain (foldFloat fadd xs) else .sat c.typ ((ints c.typ xs).foldl (· + ·) 0))

/-- SUB: IN0 − IN1. -/
def subBlock (c : Ctx) : BlkOut :=
  let xs := c.first_ 2
  let a := (c.input 0).value
  let b := (c.input 1).value
  c.result xs (if c.typ = 3 then .plain (fsub a b) else .sat c.typ (intOf c.typ a - intOf c.typ b))

/-- One step of an integer MUL: rounded onto the type's multiples and saturated. -/
def mulStep (typ : Nat) (scale : Int) (r : Res) (b : Word) : Res :=
  let p := intOf typ r.value * intOf typ b
  let x := Res.sat typ (if typ = 4 then roundFrac p 1 scale else p)
  { x with limit := r.limit || x.limit }

/-- MUL: left to right, each step rounded and saturated. -/
def mulBlock (c : Ctx) : BlkOut :=
  let xs := c.first_ (c.param 0).toNat
  c.result xs
    (if c.typ = 3 then .plain (foldFloat fmul xs)
     else (xs.drop 1).foldl (fun r x => mulStep c.typ c.scale r x.value) (.plain (headVal xs)))

/-- The quotient of an integer type by 0 (06 R173). -/
def divZero (typ : Nat) (a : Int) : Res :=
  let l := typeLimits typ
  let v := if a = 0 then 0 else if 0 < a then l.2 else l.1
  { value := word (ofSigned 32 v), limit := a != 0, overrange := true }

/-- DIV: truncated toward zero, FIX32 rounded half to even, binary32 as IEEE 754; by 0 as R173 states. -/
def divBlock (c : Ctx) : BlkOut :=
  let a := (c.input 0).value
  let b := (c.input 1).value
  let x := intOf c.typ a
  let y := intOf c.typ b
  c.result (c.first_ 2)
    (if c.typ = 3 then { value := fdiv a b, limit := false, overrange := feq b 0 }
     else if y = 0 then divZero c.typ x
     else if c.typ = 4 then .sat 4 (roundFrac (if y < 0 then -x else x) y.natAbs (-c.scale))
     else .sat c.typ (x.tdiv y))

/-- The exact remainder of two binary32 patterns, with the sign of the first. -/
def fmod (a b : Word) : Word :=
  match binary32.unpack a.toNat, binary32.unpack b.toNat with
  | .nan, _ => nan32
  | _, .nan => nan32
  | .inf _, _ => nan32
  | _, .inf _ => a
  | .num neg m e, .num _ n d =>
    let low := if e < d then e else d
    let r := (m * 2 ^ (e - low).toNat) % (n * 2 ^ (d - low).toNat)
    word (binary32.pack neg r 1 low)

/-- MOD: the remainder of the truncated quotient; by 0 it is 0 with OVERRANGE. -/
def modBlock (c : Ctx) : BlkOut :=
  let a := (c.input 0).value
  let b := (c.input 1).value
  let y := intOf c.typ b
  let zero := if c.typ = 3 then feq b 0 else y == 0
  c.result (c.first_ 2)
    (if zero then { value := 0, limit := false, overrange := true }
     else if c.typ = 3 then .plain (fmod a b)
     else .sat c.typ ((intOf c.typ a).tmod y))

/-- ABS. -/
def absBlock (c : Ctx) : BlkOut :=
  let a := (c.input 0).value
  c.result (c.first_ 1) (if c.typ = 3 then .plain (fabs a) else .sat c.typ (intOf c.typ a).natAbs)

/-- NEG. -/
def negBlock (c : Ctx) : BlkOut :=
  let a := (c.input 0).value
  c.result (c.first_ 1) (if c.typ = 3 then .plain (fneg a) else .sat c.typ (-(intOf c.typ a)))

/-- The smaller value by type, the first of equal ones. -/
def minWord (typ : Nat) (a b : Word) : Word := if typ = 3 then fmin a b else if intOf typ b < intOf typ a then b else a

/-- The larger value by type, the first of equal ones. -/
def maxWord (typ : Nat) (a b : Word) : Word := if typ = 3 then fmax a b else if intOf typ a < intOf typ b then b else a

/-- MIN: the lowest index of equal values; a NaN in any input gives the canonical NaN. -/
def minBlock (c : Ctx) : BlkOut :=
  let xs := c.first_ (c.param 0).toNat
  c.result xs (.plain (foldFloat (minWord c.typ) xs))

/-- MAX. -/
def maxBlock (c : Ctx) : BlkOut :=
  let xs := c.first_ (c.param 0).toNat
  c.result xs (.plain (foldFloat (maxWord c.typ) xs))

/-- LIMIT: MIN(MAX(IN, MN), MX), LIMIT set when OUT ≠ IN. -/
def limitBlock (c : Ctx) : BlkOut :=
  let x := (c.input 1).value
  let v := minWord c.typ (maxWord c.typ x (c.input 0).value) (c.input 2).value
  c.result (c.first_ 3) { value := v, limit := if c.typ = 3 then !feq v x else v != x, overrange := false }

/-- SQRT. -/
def sqrtBlock (c : Ctx) : BlkOut :=
  let a := (c.input 0).value
  c.result (c.first_ 1) (.plain (if c.typ = 3 then fsqrt a else word (isqrt a.toNat)))

/-- SCALE: (IN × GAIN) + OFFSET. -/
def scaleBlock (c : Ctx) : BlkOut :=
  let xs := c.first_ 1
  BlkOut.of [outFloat (quals xs) (fadd (fmul (c.input 0).value (c.param 0)) (c.param 1)) false false]

/-- CONV of a word from one type to another (06 Table 6-7). -/
def convWord (src dst : SigType) (v : Word) : Res :=
  if src = dst then .plain v
  else if typOf src = 3 then
    let nan := fnan v
    if typOf dst = 0 then { value := word (b2n (!nan && !feq v 0)), limit := false, overrange := nan }
    else
      match binary32.unpack v.toNat with
      | .nan => { value := 0, limit := false, overrange := true }
      | .inf neg =>
        let l := typeLimits (typOf dst)
        { value := word (ofSigned 32 (if neg then l.1 else l.2)), limit := true, overrange := false }
      | .num neg m e => .sat (typOf dst) (roundPow2 neg m (e - (if typOf dst = 4 then scaleOf dst else 0)))
  else
    let x := intOf (typOf src) v
    let e := if typOf src = 4 then scaleOf src else 0
    if typOf dst = 3 then .plain (word (binary32.ofInt x e))
    else if typOf dst = 0 then .plain (word (b2n (x != 0)))
    else .sat (typOf dst) (roundFrac x 1 (e - (if typOf dst = 4 then scaleOf dst else 0)))

/-- CONV: a result of binary32 that is converted carries OVERRANGE by R168, one of the same type passes unchanged. -/
def convBlock (c : Ctx) : BlkOut :=
  let src := c.typeWord 0
  let dst := c.typeWord 1
  let r := convWord src dst (c.input 0).value
  let qs := quals (c.first_ 1)
  BlkOut.of [if src ≠ dst ∧ typOf dst = 3 then outFloat qs r.value r.limit r.overrange else outWord qs r.value r.limit r.overrange]

/-! Meanings. -/

/-- NOP: it does nothing (06 Table 6-5). -/
def execNop (core : Nat) (s : State) : Out := runBlock s core 0x00 (fun _ => BlkOut.of [])

/-- ADD (06 Table 6-6). -/
def execAdd (core : Nat) (s : State) : Out := runBlock s core 0x01 addBlock

/-- SUB (06 Table 6-6). -/
def execSub (core : Nat) (s : State) : Out := runBlock s core 0x02 subBlock

/-- MUL (06 Table 6-6). -/
def execMul (core : Nat) (s : State) : Out := runBlock s core 0x03 mulBlock

/-- DIV (06 Table 6-6, R173). -/
def execDiv (core : Nat) (s : State) : Out := runBlock s core 0x04 divBlock

/-- MOD (06 Table 6-6, R173). -/
def execMod (core : Nat) (s : State) : Out := runBlock s core 0x05 modBlock

/-- ABS (06 Table 6-6). -/
def execAbs (core : Nat) (s : State) : Out := runBlock s core 0x06 absBlock

/-- NEG (06 Table 6-6). -/
def execNeg (core : Nat) (s : State) : Out := runBlock s core 0x07 negBlock

/-- MIN (06 Table 6-6). -/
def execMin (core : Nat) (s : State) : Out := runBlock s core 0x08 minBlock

/-- MAX (06 Table 6-6). -/
def execMax (core : Nat) (s : State) : Out := runBlock s core 0x09 maxBlock

/-- LIMIT (06 Table 6-6). -/
def execLimit (core : Nat) (s : State) : Out := runBlock s core 0x0A limitBlock

/-- SQRT (06 Table 6-6). -/
def execSqrt (core : Nat) (s : State) : Out := runBlock s core 0x0B sqrtBlock

/-- SCALE (06 Table 6-6). -/
def execScale (core : Nat) (s : State) : Out := runBlock s core 0x0C scaleBlock

/-- CONV (06 R174). -/
def execConv (core : Nat) (s : State) : Out := runBlock s core 0x0D convBlock

end Sys2Proof.Machine
end

