-- ==== Sys2Proof/Machine/Signal.lean ====
section
/-! DEFINITION. The signal chain of electrical metering: parameters and calibration of the channels, normalisation, filters and scaling of a sample, the sums of the tick in progress, resampling and the single-bin Fourier transform (10_electrical_metering R281 to R291). The spec states no coefficients of the three filters and no interpolation: those are uninterpreted functions of Config (notes/assumptions/23). -/
namespace Sys2Proof.Machine

/-! Exact numbers. -/

/-- A non-negative pattern as a fraction: numerator and denominator; 0 for a negative number, a NaN or an infinity. -/
def FloatFmt.frac (f : FloatFmt) (x : Nat) : Nat × Nat :=
  match f.unpack x with
  | .num false m e => if 0 ≤ e then (m <<< e.toNat, 1) else (m, 2 ^ (-e).toNat)
  | _ => (0, 1)

/-- The magnitude of a pattern times `num / den`, in units of 2^−32, rounded half to even (10 R295). -/
def residueOf (x num den : Nat) : Nat :=
  let q := binary64.frac (binary64.abs x)
  roundDiv (q.1 * num * 2 ^ 32) (q.2 * den)

/-- The quotient rounded up. -/
def ceilDiv (num den : Nat) : Nat := (num + den - 1) / den

/-! Parameters (10 Table 10-13). -/

/-- The channels of a metering point (0 to 11): three of its voltage set, three of its own (10 Table 10-1). -/
def meterSet (s : State) (m : Nat) : Nat := bits (meterPar s (0x0760 + m)).toNat 1 2

/-- The channel index of phase p of a voltage set, or of a point's current. -/
def voltCh (v p : Nat) : Nat := 3 * v + p
/-- The channel index of phase p of a point's current. -/
def currCh (m p : Nat) : Nat := 12 + 3 * m + p

/-- The six channels of a point. -/
def pointChannels (s : State) (m : Nat) : List Nat := [0, 1, 2].map (voltCh (meterSet s m)) ++ [0, 1, 2].map (currCh m)

/-- A calibration entry, gain 1.0 and phase 0 where none is stored (notes/assumptions/12). -/
def calOf (t : NMap CalEntry) (c : Nat) : CalEntry := getD { gain := 0x3F800000, phase := 0 } t c

/-- An entry lies in the range of R308. -/
def CalEntry.ok (e : CalEntry) : Bool := fle 0x3F000000 e.gain && fle e.gain 0x40000000 && decide (-200000 ≤ toSigned 32 e.phase ∧ toSigned 32 e.phase ≤ 200000)

/-- The calibration of a point is valid (10 R308). -/
def calOk (s : State) (m : Nat) : Bool := s.mt.calValid && (pointChannels s m).all (fun c => (calOf s.mt.calStored c).ok)

/-- Point m (0 to 11) is in use. -/
def meterInUse (s : State) (m : Nat) : Bool := pointInUse s (m + 1)

/-- Gain g of a current channel (10 Table 10-13). -/
def chGain (s : State) (c : Nat) : Nat := 2 ^ bits (meterPar s (0x0700 + c)).toNat 2 3

/-- RATIO of a channel as a fraction. -/
def chRatio (s : State) (c : Nat) : Nat × Nat := binary32.frac (meterPar s (0x0730 + c)).toNat

/-- S_fs of a point in VA as a fraction: over the phases, (0.6 / √2 × RATIO_U) × (0.6 / g / √2 × RATIO_I) (10 R283, R293; notes/assumptions/37). -/
def fullScale (s : State) (m : Nat) : Nat × Nat :=
  let one := fun (p : Nat) =>
    let u := chRatio s (voltCh (meterSet s m) p)
    let i := chRatio s (currCh m p)
    (18 * u.1 * i.1, 100 * u.2 * i.2 * chGain s (currCh m p))
  [0, 1, 2].foldl (fun a p => let x := one p; (a.1 * x.2 + x.1 * a.2, a.2 * x.2)) (0, 1)

/-! A sample (10 R286, R287). -/

/-- A raw 24-bit sample normalised: x = s / 2^23, exact in binary64 (10 R286). -/
def normalised (raw : Nat) : Nat := binary64.ofInt (toSigned 24 raw) (-23)

/-- Step 4 of R287: v := x × (0.6 / g) × RATIO × GAIN_CORR, from left to right. -/
def toPrimary (g : Nat) (ratio gain : Word) (x : Nat) : Nat :=
  binary64.mul (binary64.mul (binary64.mul x (binary64.pack false 6 (10 * g) 0)) (binary32.convert binary64 ratio.toNat))
    (binary32.convert binary64 gain.toNat)

/-- SENSOR of a channel (10 Table 10-13). -/
def chSensor (s : State) (c : Nat) : Nat := bits (meterPar s (0x0700 + c)).toNat 0 2

/-- The four steps of R287 on one normalised sample of a channel: the filters' next states and the value in primary units; the integrator works for SENSOR 3 only (10 Table 10-2). -/
def chainStep (s : State) (c : Nat) (h : Chain) (x : Nat) : Chain × Nat :=
  let e := calOf s.mt.calWorking c
  let a := Config.highPass h.highPass x
  let b := if chSensor s c = 3 then Config.integrator (meterPar s 0x0781).toNat h.integrator a.2 else (h.integrator, a.2)
  let d := Config.fractionalDelay e.phase h.delay b.2
  ({ highPass := a.1, integrator := b.1, delay := d.1 }, toPrimary (chGain s c) (meterPar s (0x0730 + c)) e.gain d.2)

/-- The filters of a channel before its first sample (notes/assumptions/23). -/
def Chain.reset : Chain := { highPass := 0, integrator := 0, delay := 0 }

/-- A sample of every channel: the next states of the filters and the values in primary units. -/
def chainRow (s : State) (raw : List Nat) : NMap Chain × List Nat :=
  (List.range 48).foldl (fun a c =>
    let r := chainStep s c (getD Chain.reset s.mt.chain c) (normalised (nth 0 raw c))
    (setD Chain.reset a.1 c r.1, a.2 ++ [r.2])) (s.mt.chain, [])

/-! The sums of a tick (10 R288, R291). -/

/-- The channels that a row of samples clips: +(2^23 − 1) or −2^23 (10 R286). -/
def clipsOf (raw : List Nat) : List Nat := (List.range 48).filter (fun c => nth 0 raw c == 0x7FFFFF || nth 0 raw c == 0x800000)

/-- Σ v² of each channel goes on by a row. -/
def addSquares (sums vs : List Nat) : List Nat := (List.range 48).map (fun c => binary64.add (nth 0 sums c) (binary64.mul (nth 0 vs c) (nth 0 vs c)))

/-- Σ u × i of a point goes on by a row: each phase, and all three in the order L1, L2, L3; the current of phase Lp is paired with the voltage of phase Lp of the set (10 R282, R288, R291). -/
def addPower (s : State) (sums vs : List Nat) (m : Nat) : List Nat :=
  let ui := fun (p : Nat) => binary64.mul (nth 0 vs (voltCh (meterSet s m) p)) (nth 0 vs (currCh m p))
  let one := fun (p : Nat) => binary64.add (nth 0 sums (4 * m + p)) (ui p)
  [one 0, one 1, one 2, binary64.add (binary64.add (binary64.add (nth 0 sums (4 * m + 3)) (ui 0)) (ui 1)) (ui 2)]

/-- Sums entry by entry. -/
def addLists (a b : List Nat) : List Nat := (List.range 48).map (fun i => binary64.add (nth 0 a i) (nth 0 b i))

/-- A row of samples enters the tick in progress; a sample of a channel whose word was poisoned is replaced by the channel's sample before (10 R288). -/
def sampleRow (s : State) (raw : List Nat) : State :=
  let xs := (List.range 48).map (fun c => if s.mt.poisonNext.contains c then nth 0 s.mt.sLast c else nth 0 raw c % 2 ^ 24)
  let r := chainRow s xs
  let h := s.mt.hist ++ [r.2]
  { s with mt := { s.mt with
      poisonNext := [], sLast := xs, chain := r.1, hist := h.drop (h.length - 240), tickN := s.mt.tickN + 1
      tickSq := addSquares s.mt.tickSq r.2, tickUI := (List.range 12).flatMap (addPower s s.mt.tickUI r.2)
      clipNow := s.mt.clipNow ++ (clipsOf xs).filter (fun c => !s.mt.clipNow.contains c) } }

/-- The DSP reads a poisoned word of a channel: its next sample is replaced, the event is counted for every point in use that the channel belongs to, and MEM_UNCORR is raised (10 R288; notes/assumptions/121). -/
def poisonSample (s : State) (c addr : Nat) : State :=
  let ms := (List.range 12).filter (fun m => meterInUse s m && (pointChannels s m).contains c)
  let count := ms.foldl (fun t m => setD 0 t m (satAdd 16 (getD 0 t m) 1)) s.mt.poison
  memUncorr { s with mt := { s.mt with poison := count, poisonNext := s.mt.poisonNext ++ [c] } } 5 addr

/-- Rows of samples in time order; a poisoned word is named by its row, its channel and its address. -/
def takeSamples (s : State) (rows : List (List Nat)) (poisoned : List (Nat × Nat × Nat)) : State :=
  (indexed rows).foldl (fun s r =>
    sampleRow ((poisoned.filter (fun x => x.1 == r.1)).foldl (fun s x => poisonSample s x.2.1 x.2.2) s) r.2) s

/-- The samples that no command has carried when a tick is closed outside its time: one every 125 µs since the tick began, at most 80 in all; their values are free (10 R305; notes/assumptions/23). -/
def latchSamples (s : State) : List (List Nat) :=
  let n := Nat.min (80 - s.mt.tickN) (s.clk.nt / 125 - s.mt.closeNt / 125 - s.mt.tickN)
  (List.range n).map (fun r => (List.range 48).map (fun c => Config.latchSample s.free r c))

/-- Root of the mean of squares (binary64), 0 where there is no sample. -/
def rootMean (sum n : Nat) : Nat := if n = 0 then 0 else binary64.sqrt (binary64.div sum (binary64.ofInt n 0))

/-- The apparent power of the last tick: Σ Urms × Irms in the order of the phases (10 R291, R288). -/
def tickPower (s : State) (m : Nat) : Nat :=
  let one := fun (p : Nat) => binary64.mul (nth 0 s.mt.rms (voltCh (meterSet s m) p)) (nth 0 s.mt.rms (currCh m p))
  binary64.add (binary64.add (one 0) (one 1)) (one 2)

/-- The total active energy of the last tick in W·s: Σ u × i over phases and samples, times 125 µs (10 R291, R293). -/
def tickEnergy (s : State) (m : Nat) : Nat := nth 0 s.mt.energy m

/-- An apparent power lies below NOLOAD × S_fs (10 R293). -/
def belowNoload (s : State) (m power : Nat) : Bool :=
  let q := binary64.frac power
  let fs := fullScale s m
  decide (q.1 * fs.2 * 1000000 < (meterPar s (0x076C + m)).toNat * fs.1 * q.2)

/-- The rms voltage of phase p of a set is at least ULOCK: 2 U² ≥ (ULOCK × 0.6 × RATIO)² (10 R289, Table 10-13). -/
def atUlock (s : State) (v p : Nat) : Bool :=
  let u := binary64.frac (nth 0 s.mt.rms (voltCh v p))
  let r := chRatio s (voltCh v p)
  let l := (meterPar s 0x0782).toNat * 6 * r.1
  decide (l * l * u.2 * u.2 ≤ 2 * u.1 * u.1 * (10000000 * r.2) * (10000000 * r.2))

/-- The locking phase: the first at or above ULOCK, 3 for none (10 R289). -/
def lockPhase (s : State) (v : Nat) : Nat := (([0, 1, 2].find? (atUlock s v))).getD 3

/-- The tick in progress ends now: rms of each channel, energy of each point, the sums of the second, and since when a set has had no phase at or above ULOCK. -/
def closeTick (s : State) : State :=
  let s := { s with mt := { s.mt with
    rms := (List.range 48).map (fun c => rootMean (nth 0 s.mt.tickSq c) s.mt.tickN)
    energy := (List.range 12).map (fun m => binary64.div (nth 0 s.mt.tickUI (4 * m + 3)) (binary64.ofInt 8000 0))
    secN := s.mt.secN + s.mt.tickN, secSq := addLists s.mt.secSq s.mt.tickSq, secUI := addLists s.mt.secUI s.mt.tickUI
    tickN := 0, tickSq := [], tickUI := [], closeNt := s.clk.nt } }
  { s with mt := { s.mt with
      locks := (indexed s.mt.locks).map (fun x => { x.2 with quiet := if lockPhase s x.1 = 3 then some (x.2.quiet.getD s.clk.nt) else none }) } }

/-! A fundamental cycle (10 R290). -/

/-- cos(2πk/64) of the first quarter, nearest in binary64. -/
def cosQuarter : List Nat :=
  [0x3FF0000000000000, 0x3FEFD88DA3D12526, 0x3FEF6297CFF75CB0, 0x3FEE9F4156C62DDA, 0x3FED906BCF328D46, 0x3FEC38B2F180BDB1,
   0x3FEA9B66290EA1A3, 0x3FE8BC806B151741, 0x3FE6A09E667F3BCD, 0x3FE44CF325091DD6, 0x3FE1C73B39AE68C8, 0x3FDE2B5D3806F63B,
   0x3FD87DE2A6AEA963, 0x3FD294062ED59F06, 0x3FC8F8B83C69A60B, 0x3FB917A6BC29B42C, 0]

/-- cos(2πk/64). -/
def cos64 (k : Nat) : Nat :=
  let k := k % 64
  if k ≤ 16 then nth 0 cosQuarter k
  else if k ≤ 32 then binary64.neg (nth 0 cosQuarter (32 - k))
  else if k ≤ 48 then binary64.neg (nth 0 cosQuarter (k - 32))
  else nth 0 cosQuarter (64 - k)

/-- sin(2πk/64). -/
def sin64 (k : Nat) : Nat := cos64 (k + 48)

/-- √2 / 64, so that the fundamental component is an rms value (notes/assumptions/23). -/
def dftScale : Nat := 0x3F96A09E667F3BCD

/-- The fundamental component of 64 points by a single-bin discrete Fourier transform: Σ x e^(−j2πk/64), real and imaginary part (10 R290). -/
def phasor (xs : List Nat) : Nat × Nat :=
  let sum := fun (w : Nat → Nat) => binary64.mul dftScale ((indexed xs).foldl (fun a x => binary64.add a (binary64.mul x.2 (w x.1))) 0)
  (sum cos64, binary64.neg (sum sin64))

/-- Re(U × conj(I)). -/
def realPart (u i : Nat × Nat) : Nat := binary64.add (binary64.mul u.1 i.1) (binary64.mul u.2 i.2)

/-- Im(U × conj(I)). -/
def imagPart (u i : Nat × Nat) : Nat := binary64.sub (binary64.mul u.2 i.1) (binary64.mul u.1 i.2)

/-- The 64 points of a channel over the cycle of `ns` that ends now. -/
def cyclePoints (s : State) (ns c : Nat) : List Nat :=
  let rows := s.mt.hist.drop (s.mt.hist.length - ceilDiv ns 125000)
  (List.range 64).map (fun k => Config.resample ns k (rows.map (fun r => nth 0 r c)))

/-- The rms of 64 points. -/
def rmsOf64 (xs : List Nat) : Nat := rootMean (xs.foldl (fun a x => binary64.add a (binary64.mul x x)) 0) xs.length

/-- The sum over the three phases, in their order. -/
def phaseSum (f : Nat → Nat) : Nat := binary64.add (binary64.add (f 0) (f 1)) (f 2)

end Sys2Proof.Machine
end

