-- ==== Sys2Proof/Machine/Metering.lean ====
section
/-! DEFINITION. Electrical metering: ticks, fundamental cycles, registers, the view, saves, latch and restore, calibration, signed readings, the watch (10_electrical_metering R289 to R315). -/
namespace Sys2Proof.Machine

/-! When metering works (10 R294). -/

/-- The metering DSP runs: on QG64-M40, where a configuration is loaded; in HOLD until metering stops, also under the hardware safe state (10 R294, 19 R472, Table 19-6). -/
def dspRuns (s : State) : Bool :=
  s.part.m40 && s.clk.running &&
    (match s.pwr.pstate with
    | 2 => s.pa.conf.isSome
    | 3 | 4 | 5 | 7 => true
    | 6 => (match s.pwr.hold with | some h => h.metering | none => false)
    | _ => false)

/-- The points in use. -/
def metered (s : State) : List Nat := (List.range 12).filter (meterInUse s)

/-- Point m accumulates (10 R294). -/
def accumulates (s : State) (m : Nat) : Bool :=
  dspRuns s && (inRun s || s.pwr.pstate == 6) && meterInUse s m && calOk s m && !bit s.mt.calMask m

/-! Registers (10 R293 to R297). -/

/-- The key of register i of point m. -/
def regKey (m i : Nat) : Nat := 8 * m + i

/-- Count of a register, without its residue. -/
def countOf (x : Nat) : Nat := x / 2 ^ 32 % 2 ^ 80

/-- The 40-bit value of a fast register and its wrap counter (10 R296). -/
def fastOf (x : Nat) : Nat := countOf x / 1000000 % 2 ^ 40

/-- Energy is added to a register, or to the tail after the latch (10 R293, R305). -/
def addEnergy (s : State) (m i residue : Nat) : State :=
  let add := fun (t : NMap Nat) => setD 0 t (regKey m i) ((getD 0 t (regKey m i) + residue) % 2 ^ 112)
  if s.mt.tailing then { s with mt := { s.mt with tail := add s.mt.tail } }
  else { s with mt := { s.mt with regs := add s.mt.regs } }

/-- The quadrant of P1 and Q1 (10 R292). -/
def quadrant (p1 q1 : Nat) : Nat :=
  match binary64.lt p1 0, binary64.lt q1 0 with
  | false, false => 0
  | true, false => 1
  | true, true => 2
  | false, true => 3

/-- The status bits kept of a point: NOLOAD, EXPORT, QUAD (10 Table 10-7). -/
def setStatus (s : State) (m lo n v : Nat) : State :=
  let x := getD 0 s.mt.status m
  { s with mt := { s.mt with status := setD 0 s.mt.status m (x - bits x lo n * 2 ^ lo + v * 2 ^ lo) } }

/-- A tick's energy enters the registers of a point (10 R293). -/
def tickPoint (s : State) (m : Nat) : State :=
  let low := belowNoload s m (tickPower s m)
  let e := tickEnergy s m
  let s := setStatus s m 0 1 (b2n low)
  let adds := accumulates s m && !low
  let s := setStatus s m 1 1 (b2n (adds && binary64.lt e 0))
  if !adds then s
  else if binary64.lt 0 e then addEnergy s m 0 (residueOf e 2500 9)
  else if binary64.lt e 0 then addEnergy s m 1 (residueOf e 2500 9)
  else s

/-- The energies of a fundamental cycle in W·s enter the registers of a point (10 R290, R293). -/
def cyclePoint (s : State) (m ep eq : Nat) : State :=
  let s := addEnergy s m (if binary64.lt ep 0 then 3 else 2) (residueOf ep 2500 9)
  addEnergy s m (4 + quadrant ep eq) (residueOf eq 2500 9)

/-- The cycle energies that wait enter the registers (10 R293). -/
def pendingCycles (s : State) : State :=
  let s' := s.mt.pending.foldl (fun s x => if accumulates s x.1 then cyclePoint s x.1 x.2.1 x.2.2 else s) s
  { s' with mt := { s'.mt with pending := [] } }

/-- A point in use that does not accumulate: its time counts in UNMET, and the start and end of each period are recorded (10 R294). -/
def unmetPoint (s : State) (m : Nat) : State :=
  let idle := meterInUse s m && !accumulates s m
  let on := s.mt.unmetOn.contains m
  let s := if idle && !on then record { s with mt := { s.mt with unmetOn := s.mt.unmetOn ++ [m] } } 0x0190 5 [word (m + 1), 0]
    else if !idle && on then record { s with mt := { s.mt with unmetOn := s.mt.unmetOn.filter (fun x => x != m) } } 0x0190 5 [word (m + 1), 1]
    else s
  if !idle then s
  else
    let us := getD 0 s.mt.unmetUs m + 10000
    { s with mt := { s.mt with
        unmet := setD 0 s.mt.unmet m ((getD 0 s.mt.unmet m + us / 1000000) % 2 ^ 32)
        unmetUs := setD 0 s.mt.unmetUs m (us % 1000000) } }

/-! One-second values (10 Tables 10-5, 10-6, 10-8). -/

/-- The key of a one-second value: quantity q of point m, or of set v as object 12 + v. -/
def secKey (object q : Nat) : Nat := 64 * object + q

/-- A binary64 value as a register or a point shows it: rounded to binary32. -/
def shown (x : Nat) : Word := word (binary64.convert binary32 x)

/-- The rms of a channel over the second. -/
def secondRms (s : State) (c : Nat) : Nat := rootMean (nth 0 s.mt.secSq c) s.mt.secN

/-- The mean active power of a phase of a point over the second, or of all three (i = 3). -/
def secondPower (s : State) (m i : Nat) : Nat := if s.mt.secN = 0 then 0 else binary64.div (nth 0 s.mt.secUI (4 * m + i)) (binary64.ofInt s.mt.secN 0)

/-- Value q of the fundamental cycles of a point in the second: P1, Q1, or Q1 of a phase. -/
def secondCycles (s : State) (m q : Nat) : Word :=
  Config.cycleMean ((s.mt.cycles.filter (fun x => x.1 == m)).map (fun x => (x.2.1, nth 0 x.2.2 q)))

/-- The apparent power of a second: S = Σ Urms × Irms over phases (10 R291). -/
def secondApparent (s : State) (m : Nat) : Nat :=
  phaseSum (fun p => binary64.mul (secondRms s (voltCh (meterSet s m) p)) (secondRms s (currCh m p)))

/-- The power factor: P / S, and 0 where S is 0 (10 R291). -/
def powerFactor (p a : Nat) : Nat := if a % 2 ^ 63 = 0 then 0 else binary64.div p a

/-- The quantities of a point over the second, by the codes of 10 Table 10-8; 17 to 19 are Q1 of each phase (10 Table 10-11). -/
def pointSecond (s : State) (m : Nat) : List (Nat × Word) :=
  let p := secondPower s m 3
  let a := secondApparent s m
  [(1, shown p), (2, secondCycles s m 0), (3, secondCycles s m 1), (4, shown a), (5, shown (powerFactor p a))] ++
  [0, 1, 2].map (fun i => (11 + i, shown (secondRms s (currCh m i)))) ++
  [0, 1, 2].map (fun i => (14 + i, shown (secondPower s m i))) ++
  [0, 1, 2].map (fun i => (17 + i, secondCycles s m (2 + i)))

/-- The quantities of a set over the second: frequency and the three voltages (10 Table 10-5). -/
def setSecond (s : State) (v : Nat) : List (Nat × Word) :=
  (0, Config.frequencyMean ((s.mt.periods.filter (fun x => x.1 == v)).map (fun x => x.2))) ::
  [0, 1, 2].map (fun p => (1 + p, shown (secondRms s (voltCh v p))))

/-- Values of an object take their places. -/
def putSecond (t : NMap Word) (object : Nat) (vs : List (Nat × Word)) : NMap Word := vs.foldl (fun t x => setD 0 t (secKey object x.1) x.2) t

/-- A one-second value. -/
def secOf (s : State) (object q : Nat) : Word := getD 0 s.mt.sec (secKey object q)

/-- Quantity q of a point by the codes of 10 Table 10-8: frequency and voltages are those of its set. -/
def quantityOf (s : State) (m q : Nat) : Word :=
  let v := 12 + meterSet s m
  if q = 6 then secOf s v 0 else if 8 ≤ q ∧ q ≤ 10 then secOf s v (q - 7) else secOf s m q

/-- MTR_MPSTAT (10 Table 10-7). -/
def mpStat (s : State) (m : Nat) : Nat :=
  let st := getD 0 s.mt.status m
  let clip := packBits ([0, 1, 2].map (fun p => s.mt.clip.contains (currCh m p)))
  let lock := nth Lock.reset s.mt.locks (meterSet s m)
  b2n (meterInUse s m) + 2 * b2n (accumulates s m) + 4 * b2n (calOk s m) + 8 * b2n (bit s.mt.calMask m) + 16 * b2n lock.locked +
  32 * clip + 256 * bits st 0 1 + 512 * bits st 1 1 + 1024 * bits st 2 2 + 4096 * meterSet s m + 65536 * getD 0 s.mt.poison m

/-- MTR_VS_STAT (10 Table 10-5). -/
def vsStat (s : State) (v : Nat) : Nat :=
  let clip := packBits ([0, 1, 2].map (fun p => s.mt.clip.contains (voltCh v p)))
  let l := nth Lock.reset s.mt.locks v
  b2n l.locked + 2 * lockPhase s v + 8 * clip + 64 * packBits ([0, 1, 2].map (atUlock s v)) + 512 * b2n (Config.negativeSequence (getD [] s.mt.volts v))

/-- The words of the view, by offset (10 Tables 10-5 and 10-6). -/
def viewWords (s : State) : NMap Word :=
  let sets := (List.range 4).flatMap (fun v =>
    let b := 0x40 + 0x20 * v
    [(b, secOf s (12 + v) 0), (b + 4, word (vsStat s v)), (b + 8, secOf s (12 + v) 1), (b + 12, secOf s (12 + v) 2), (b + 16, secOf s (12 + v) 3)])
  let points := (List.range 12).flatMap (fun m =>
    let b := 0x100 + 0x40 * m
    let c := fun i => fastOf (getD 0 s.mt.regs (regKey m i) + getD 0 s.mt.tail (regKey m i))
    let wrap := fun i => c i / 2 ^ 32 % 256
    (List.range 8).map (fun i => (b + 4 * i, word (c i))) ++
    [(b + 0x20, word (wrap 0 + 256 * wrap 1 + 65536 * wrap 2 + 16777216 * wrap 3)),
     (b + 0x24, word (wrap 4 + 256 * wrap 5 + 65536 * wrap 6 + 16777216 * wrap 7)),
     (b + 0x28, secOf s m 1), (b + 0x2C, secOf s m 2), (b + 0x30, secOf s m 3), (b + 0x34, secOf s m 4),
     (b + 0x38, word (mpStat s m)), (b + 0x3C, secOf s m 5)])
  (sets ++ points).foldl (fun t p => setD 0 t p.1 p.2) []

/-- The view takes the DSP's values of a tick end (10 R298). -/
def takeView (s : State) : State := { s with mt := { s.mt with view := viewWords s, viewNt := s.mt.tickNt } }

/-! Records (10 R303 to R307). -/

/-- A register as a record holds it: count in 10 bytes, residue in 4, 2 bytes 0 (10 Table 10-9). -/
def regBytes (x : Nat) : Bytes := natLe 10 (countOf x) ++ natLe 4 (x % 2 ^ 32) ++ [0, 0]

/-- The register that a record holds. -/
def regOfBytes (bs : Bytes) (off : Nat) : Nat := leAt bs off 10 * 2 ^ 32 + leAt bs (off + 10) 4

/-- An energy record body (10 Table 10-9). -/
def energyBody (s : State) (kind nt : Nat) : Bytes :=
  natLe 4 kind ++ natLe 4 s.mt.holdId ++ natLe 8 nt ++ natLe 8 s.rtc.tick ++ natLe 4 (ctrValue s 0) ++ natLe 2 s.mt.tailLostCount ++ [0, 0] ++
  (List.range 12).flatMap (fun m => (List.range 8).flatMap (fun i => regBytes (getD 0 s.mt.regs (regKey m i)))) ++
  (List.range 12).flatMap (fun m =>
    natLe 4 (getD 0 s.mt.pmax m) ++ natLe 4 (binary64.convert binary32 (tickPower s m)) ++ natLe 4 (getD 0 s.mt.unmet m) ++ natLe 4 0)

/-- The generation of a shadow page, 0 where it was never stored (15 R396). -/
def pageGen (s : State) (p : Nat) : Nat :=
  match lookup s.rs.shadow p with
  | some x => leAt x.header 8 8
  | none => 0

/-- The pages of a rotation in order of their generation, newest last, valid ones only. -/
def newestPage (s : State) (pages : List Nat) : Option Nat :=
  let valid := pages.filter (fun p => match lookup s.rs.shadow p with | some x => pageResult p (some x) == 0 | none => false)
  match valid with
  | [] => none
  | h :: t => some (t.foldl (fun a b => if pageGen s a < pageGen s b then b else a) h)

/-- The page of a rotation that the next record takes: after the newest, counting one that waits or is being stored (10 R303). -/
def nextRotation (s : State) (first : Nat) : Nat :=
  let pages := (List.range 4).map (fun i => first + i)
  let under := (s.rs.waiting.map (fun w => w.page) ++ s.rs.queue.map (fun q => q.page)).filter (fun p => pages.contains p)
  let under := (match s.rs.cur with | some c => if pages.contains c.page then [c.page] else [] | none => []) ++ under
  match under.getLast?, newestPage s pages with
  | some p, _ => first + (p - first + 1) % 4
  | none, some p => first + (p - first + 1) % 4
  | none, none => first

/-- An energy record is written to its page, stored by owner store unless the power-fail store takes it (10 R303, R305). -/
def writeEnergy (s : State) (kind nt : Nat) (store : Bool) : State :=
  let body := energyBody s kind nt
  let s := { s with mt := { s.mt with newest := some body, pmax := [] } }
  ownerWrite s { page := nextRotation s 1, off := 0, bytes := body, head := { fmt := 1, len := body.length, w0 := 0, w1 := 0, w2 := 0 }, store := store }

/-- The tail record (10 R305; 13 Table 13-11). -/
def tailBody (s : State) : Bytes :=
  natLe 4 s.mt.holdId ++ natLe 4 s.mt.tailUs ++ natLe 8 0 ++
  (List.range 12).flatMap (fun m => (List.range 8).flatMap (fun i => regBytes (getD 0 s.mt.tail (regKey m i))))

/-- The tick in progress is closed now with every sample taken so far, and its energy enters the registers or the tail (10 R305; notes/assumptions/23). -/
def restOfTick (s : State) : State :=
  let s := closeTick (drew (takeSamples s (latchSamples s) []))
  (metered s).foldl tickPoint s

/-- The latch: the tick in progress is closed with the samples taken so far, HOLD_ID counts, and the tail begins (10 R305; notes/assumptions/23). -/
def latchMetering (s : State) : State :=
  if !s.part.m40 then s
  else
    let s := pendingCycles (restOfTick s)
    let s := { s with mt := { s.mt with holdId := wrap32 (s.mt.holdId + 1) } }
    let s := writeEnergy s 2 s.clk.nt false
    { s with mt := { s.mt with tailing := true, tail := [], tailStart := s.clk.nt, saveDue := false } }

/-- A loss over a time in µs of a power in VA, in Wh rounded up (10 R306). -/
def lossWh (p : Nat × Nat) (us : Nat) : Nat := Nat.min (2 ^ 32 - 1) (ceilDiv (p.1 * us) (p.2 * 3600000000))

/-- The loss flags and losses are kept in page 0 until acknowledged (15 Table 15-5). -/
def saveLosses (s : State) : State :=
  let bytes := (List.range 12).flatMap (fun m => natLe 4 (getD 0 s.mt.lossEst m) ++ natLe 4 (getD 0 s.mt.lossMax m))
  let s := ownerWrite s { page := 0, off := 0x40, bytes := bytes, head := { fmt := 1, len := 0x120, w0 := 0, w1 := 0, w2 := 0 }, store := false }
  setPage0 s 8 4 (b2n s.mt.tailLost + 2 * b2n s.mt.latchLost)

/-- The losses of every point, from the record's power at `pick` over a time in µs (10 Table 10-10). -/
def setLosses (s : State) (rec : Option Bytes) (pick us : Nat) : State :=
  let est := (List.range 12).map (fun m =>
    (m, match rec with | some b => lossWh (binary32.frac (leAt b (0x620 + 16 * m + pick) 4)) us | none => 2 ^ 32 - 1))
  let max := (List.range 12).map (fun m => (m, match rec with | some _ => lossWh (fullScale s m) us | none => 2 ^ 32 - 1))
  let keep := fun (l : List (Nat × Nat)) => l.foldl (fun (t : NMap Nat) x => setD 0 t x.1 x.2) []
  { s with mt := { s.mt with lossEst := keep est, lossMax := keep max } }

/-- The loss flags of earlier starts that page 0 keeps (10 R307, 15 Table 15-5). -/
def recallLosses (s : State) : State :=
  let f := page0 s 8
  let at_ := fun (m o : Nat) => leNat (readBytes s.rs.work (0x40 + 8 * m + o) 4)
  let t := fun (o : Nat) => (List.range 12).foldl (fun (t : NMap Nat) m => setD 0 t m (at_ m o)) []
  { s with mt := { s.mt with tailLost := bit f 0, latchLost := bit f 1, lossEst := t 0, lossMax := t 4 } }

/-- A record restores the registers and the numbers that it carries. -/
def restoreRecord (s : State) (b : Bytes) : State :=
  let regs := (List.range 96).foldl (fun (t : NMap Nat) k => setD 0 t k (regOfBytes b (0x20 + 16 * k))) []
  let unmet := (List.range 12).foldl (fun (t : NMap Nat) m => setD 0 t m (wrap32 (getD 0 s.mt.unmet m + leAt b (0x620 + 16 * m + 8) 4))) []
  { s with mt := { s.mt with regs := regs, regsWas := regs, unmet := unmet, holdId := leAt b 4 4, tailLostCount := leAt b 0x1C 2, newest := some b } }

/-- The working content of a page. -/
def pageBytes (s : State) (p n : Nat) : Bytes := readSpan s.rs.work (pageBase p) n

/-- A restore ended with losses: flags, TAIL_LOST_COUNT, the fault (10 R306, R307). -/
def lossFound (s : State) (latch : Bool) : State :=
  let s := { s with mt := { s.mt with tailLost := true, latchLost := s.mt.latchLost || latch, tailLostCount := satAdd 16 s.mt.tailLostCount 1 } }
  raiseFault (saveLosses s) 0x0191 2 5 [word (1 + 2 * b2n s.mt.latchLost)]

/-- The restore of the registers at start-up, by the first row that applies (10 Table 10-10). -/
def restoreMetering (s : State) : State :=
  if !s.part.m40 then s
  else
    let s := recallLosses s
    let valid := (List.range 4).map (· + 1) |>.filter (fun p => bit s.rs.valid p && (leAt (pageBytes s p 4) 0 4 == 1 || leAt (pageBytes s p 4) 0 4 == 2))
    let tail := if bit s.rs.valid 5 then some (pageBytes s 5 1552) else none
    let save := (meterPar s 0x0780).toNat * 1000000 + 15000
    match valid with
    | [] => lossFound (setLosses s none 0 0) true
    | h :: t =>
      let p := t.foldl (fun a b => if pageGen s a < pageGen s b then b else a) h
      let b := pageBytes s p 1760
      let s := restoreRecord s b
      if leAt b 0 4 = 2 then
        match tail with
        | some x =>
          if leAt x 0 4 = leAt b 4 4 then
            { s with mt := { s.mt with regs := (List.range 96).foldl (fun t k => setD 0 t k (getD 0 t k + regOfBytes x (16 + 16 * k))) s.mt.regs } }
          else lossFound (setLosses s (some b) 4 15000) false
        | none => lossFound (setLosses s (some b) 4 15000) false
      else lossFound (setLosses s (some b) 0 save) true

/-- The calibration record as stored: gain and phase of each channel (10 R308; notes/assumptions/38). -/
def calBytes (t : NMap CalEntry) : Bytes := (List.range 48).flatMap (fun c => natLe 4 (calOf t c).gain.toNat ++ natLe 4 (calOf t c).phase)

/-- The calibration record that page 10 holds. -/
def calOfBytes (b : Bytes) : NMap CalEntry :=
  (List.range 48).foldl (fun t c => setD { gain := 0x3F800000, phase := 0 } t c { gain := word32At b (8 * c), phase := leAt b (8 * c + 4) 4 }) []

/-- The calibration at start-up: not valid where page 10 is not (15 Table 15-4). -/
def restoreCalibration (s : State) : State :=
  if bit s.rs.valid 10 then
    let t := calOfBytes (pageBytes s 10 384)
    { s with mt := { s.mt with calStored := t, calWorking := t, calValid := true } }
  else s

/-! Signed readings (10 R311, Table 10-12; 11 R330). -/

/-- Bytes 0x00 to 0x6F of a reading, the counter's place 0 until it is known. -/
def readingOf (s : State) (m : Nat) : Bytes :=
  let clip := (pointChannels s m).any (fun c => s.mt.clip.contains c)
  let flags := b2n s.mt.tailLost + 2 * b2n s.mt.latchLost + 4 * b2n (calOk s m) + 8 * b2n (accumulates s m) + 16 * b2n clip
  natLe 2 1 ++ natLe 1 (m + 1) ++ natLe 1 flags ++ natLe 4 0 ++ natLe 8 s.mt.tickNt ++ natLe 8 s.rtc.tick ++ natLe 4 (mcc s) ++
  natLe 4 (ctrValue s 0) ++ natLe 4 0x00030002 ++ natLe 2 s.mt.tailLostCount ++ [0, 0] ++
  (List.range 8).flatMap (fun i => natLe 8 (countOf (getD 0 s.mt.regs (regKey m i)))) ++ keyId (publicKey (meterSignKey s)) ++ natLe 4 0

/-- A waiting reading takes its registers: it then waits for the counter, or ends where no key or no counter serves it (10 R311, 15 R404). -/
def takeReading (s : State) (r : Reading) (bytes : Bytes) : State :=
  let drop := { s with mt := { s.mt with readings := s.mt.readings.filter (fun x => x.mb != r.mb) } }
  if !keysOn s then replyTo drop r.mb (Reply.of stNotPermitted)
  else if slotBad s 0 then replyTo drop r.mb (Reply.of stKeyBad)
  else if ctrRefuses s 1 then replyTo (requestInc drop 1 (.reading r.mb)) r.mb (Reply.of stNotPermitted)
  else
    let s := { s with mt := { s.mt with readings := s.mt.readings.map (fun x => if x.mb = r.mb then { x with taken := some bytes } else x) } }
    requestInc s 1 (.reading r.mb)

/-- The counter of a reading has been incremented: the reading is signed and its command ends (10 R311). -/
def signReading (s : State) (mb : Nat) : State :=
  match s.mt.readings.find? (fun r => r.mb == mb) with
  | none => s
  | some r =>
    let s := { s with mt := { s.mt with readings := s.mt.readings.filter (fun x => x.mb != mb) } }
    match r.taken with
    | none => s
    | some b =>
      let b := b.take 4 ++ natLe 4 (ctrValue s 1) ++ b.drop 8
      replyTo s mb { Reply.ok with page := b ++ ecdsaSign (meterSignKey s) (sha256 b) }

/-- The readings of metering points that wait for a tick end. -/
def tickReadings (s : State) : State :=
  (s.mt.readings.filter (fun r => !r.heat && r.taken.isNone)).foldl (fun s r => takeReading s r (readingOf s r.object)) s

/-- The full registers of a point (13 Table 13-11). -/
def fullRegisters (s : State) (m : Nat) : Bytes := (List.range 8).flatMap (fun i => natLe 8 (countOf (getD 0 s.mt.regs (regKey m i))))

/-- The MTR_READ commands that wait for a tick end complete (10 Table 10-11). -/
def tickReads (s : State) : State :=
  let mine := s.mt.reads.filter (fun r => !r.2.1)
  let s := { s with mt := { s.mt with reads := s.mt.reads.filter (fun r => r.2.1) } }
  mine.foldl (fun s r => finish s r.1 { Reply.ok with page := fullRegisters s r.2.2, res0 := s.mt.tickNt, res1 := s.mt.tickNt / 2 ^ 32 }) s

/-! METER points (10 R301, R302). -/

/-- The registers at the last tick end before the cut (10 R301). -/
def regsAtCut (s : State) : NMap Nat := if s.mt.tickNt = s.clk.nt then s.mt.regsWas else s.mt.regs

/-- The channels that a quantity of a point depends on. -/
def quantityChannels (s : State) (m q : Nat) : List Nat :=
  let v := meterSet s m
  if q = 6 then [0, 1, 2].map (voltCh v)
  else if 8 ≤ q ∧ q ≤ 10 then [voltCh v (q - 8)]
  else if 11 ≤ q ∧ q ≤ 13 then [currCh m (q - 11)]
  else if 14 ≤ q ∧ q ≤ 16 then [voltCh v (q - 14), currCh m (q - 14)]
  else pointChannels s m

/-- The value and quality of a METER point of a metering point. -/
def meterValue (s : State) (subst : Word) (m q : Nat) : Word × Nat :=
  let overrange := (quantityChannels s m q).any (fun c => s.mt.clip.contains c)
  let lock := nth Lock.reset s.mt.locks (meterSet s m)
  if !calOk s m then (subst, mkQuality 2 false overrange)
  else
    let v := if 0x20 ≤ q ∧ q ≤ 0x27 then word (fastOf (getD 0 (regsAtCut s) (regKey m (q - 0x20)))) else quantityOf s m q
    let stale := !lock.locked && (q == 2 || q == 3 || q == 6)
    (v, mkQuality (b2n stale) false overrange)

/-! Registers of the MTR_ block (10 Tables 10-4 to 10-6). -/

/-- MTR_STAT. -/
def mtrStat (s : State) : Nat :=
  b2n ((List.range 12).any (accumulates s)) + 2 * b2n s.mt.frozen + 4 * b2n s.mt.tailLost + 8 * b2n s.mt.latchLost + 16 * b2n (s.mt.calMask != 0) +
  32 * b2n (!s.mt.watchRing.isEmpty || s.mt.watchTotals.any (fun p => p.2 != 0)) + 256 * packBits ((List.range 12).map (meterInUse s))

/-- A register of the MTR_ block; on QG64-C40 every one reads 0 (00 R6). -/
def mtrRead (s : State) (off : Nat) : Nat :=
  if !s.part.m40 then 0
  else
    match off with
    | 0x000 => mtrStat s
    | 0x004 => b2n s.mt.snapReq
    | 0x008 => s.mt.viewNt % 2 ^ 32
    | 0x00C => s.mt.viewNt / 2 ^ 32
    | 0x010 => s.mt.saveNt % 2 ^ 32
    | 0x014 => s.mt.saveNt / 2 ^ 32
    | 0x018 => ctrValue s 0
    | _ => (getD 0 s.mt.view off).toNat

/-- SNAP of MTR_CTRL: the view freezes at the next tick end (10 R299). -/
def snapView (s : State) : State := { s with mt := { s.mt with snapReq := true } }

/-- RELEASE of MTR_CTRL: the view is no longer frozen (10 R299). -/
def releaseView (s : State) : State := { s with mt := { s.mt with frozen := false } }

/-- A write of MTR_CTRL: SNAP wins (10 R299). -/
def writeMtrCtrl (s : State) (v : Nat) : State :=
  if !s.part.m40 then s else if bit v 0 then snapView s else if bit v 1 then releaseView s else s

/-! Meanings: the DSP. -/

/-- The tick end that comes next: a multiple of 10,000 µs (10 R292). -/
def nextTickEnd (s : State) : Nat :=
  let c := (s.clk.nt + 9999) / 10000 * 10000
  if c ≤ s.mt.tickNt then s.mt.tickNt + 10000 else c

/-- The metering parameters of a committed configuration come into force at a tick end (10 R315). -/
def paramsAtTick (s : State) : State :=
  if s.pa.meterNew then { s with pa := { s.pa with meterNew := false, meter := meterValues s } } else s
where
  meterValues (s : State) : NMap Word :=
    let ps := (List.range 0x78).map (· + 0x0700) ++ (List.range 5).map (· + 0x0780)
    ps.map (fun p => (p, parValue s p))

/-- What a tick end does after its energies: unmet time, the view, the reads and readings that wait, and a save that falls due (10 R294, R298, R299, R303, R311). -/
def afterTick (s : State) : State :=
  let s := (List.range 12).foldl unmetPoint s
  let s := if s.mt.frozen && !s.mt.snapReq then s else takeView s
  let s := if s.mt.snapReq then { s with mt := { s.mt with frozen := true, snapReq := false } } else s
  let s := tickReads (tickReadings s)
  let save := (meterPar s 0x0780).toNat * 1000000
  if save ≠ 0 ∧ s.mt.tickNt % save = 0 ∧ !s.mt.tailing ∧ 3 ≤ s.pwr.pstate ∧ s.pwr.pstate ≤ 5 then { s with mt := { s.mt with saveDue := true } } else s

/-- METER_TICK: the rest of the tick's samples, then the tick end: the DSP adds energy, counts unmet time, updates the view, and serves what waits for a tick end (10 R293, R294, R298, R299, R311). Parameters of a commit take effect at tick ends on both parts (R315). -/
def execMeterTick (samples : List (List Nat)) (poisoned : List (Nat × Nat × Nat)) (s : State) : Out :=
  if !s.part.m40 && s.clk.running then
    let t := nextTickEnd s
    let s := advanceTo s t
    done (paramsAtTick { s with mt := { s.mt with tickNt := t } })
  else if !dspRuns s then done s
  else
    let t := nextTickEnd s
    let s := closeTick (takeSamples (advanceTo s t) samples poisoned)
    let s := { s with mt := { s.mt with tickNt := t, regsWas := s.mt.regs } }
    let s := pendingCycles ((metered s).foldl tickPoint s)
    done (paramsAtTick (afterTick s))

/-- The frequency of a cycle lies within 45–65 Hz; the period is in ns (10 R289). -/
def cycleInRange (period : Nat) : Bool := decide (1000000000 ≤ 65 * period ∧ 45 * period ≤ 1000000000)

/-- The lock after a fundamental cycle (10 R289). -/
def Lock.cycle (l : Lock) (period nt : Nat) : Lock :=
  let inR := cycleInRange period
  let a := if inR then l.inRange + 1 else 0
  let b := if inR then 0 else l.outRange + 1
  { l with inRange := Nat.min a 10, outRange := Nat.min b 3, locked := if l.locked then decide (b < 3) else decide (10 ≤ a), since := nt }

/-- One nominal period in ns (10 R289). -/
def nominalPeriod (s : State) : Nat := 1000000000 / (meterPar s 0x0781).toNat

/-- A time in ns as seconds in binary64. -/
def secondsOf64 (ns : Nat) : Nat := binary64.pack false ns 1000000000 0

/-- A fundamental cycle of a point: P1 = Σ Re(U1 × conj(I1)), Q1 = Σ Im(U1 × conj(I1)), the quadrant, and the energies P1 × T and Q1 × T, which wait for the tick end where the cycle is not below the no-load threshold (10 R290, R293). -/
def cycleValues (set ns : Nat) (s : State) (m : Nat) : State :=
  let us := [0, 1, 2].map (fun p => cyclePoints s ns (voltCh set p))
  let is := [0, 1, 2].map (fun p => cyclePoints s ns (currCh m p))
  let at_ := fun (f : Nat × Nat → Nat × Nat → Nat) (p : Nat) => f (phasor (nth [] us p)) (phasor (nth [] is p))
  let p1 := phaseSum (at_ realPart)
  let q1 := phaseSum (at_ imagPart)
  let power := phaseSum (fun p => binary64.mul (rmsOf64 (nth [] us p)) (rmsOf64 (nth [] is p)))
  let s := { s with mt := { s.mt with
    locks := modifyNth s.mt.locks set (fun l => { l with lastP1 := insertAt l.lastP1 m (p1, q1, power) })
    cycles := s.mt.cycles ++ [(m, ns, [p1, q1] ++ [0, 1, 2].map (at_ imagPart))] } }
  let s := setStatus s m 2 2 (quadrant p1 q1)
  if belowNoload s m power then s
  else
    let t := secondsOf64 ns
    { s with mt := { s.mt with pending := s.mt.pending ++ [(m, binary64.mul p1 t, binary64.mul q1 t)] } }

/-- A cycle of `ns` of a voltage set: its voltages, and its points in use. -/
def setCycle (s : State) (set ns : Nat) : State :=
  let us := [0, 1, 2].flatMap (fun p => let u := phasor (cyclePoints s ns (voltCh set p)); [u.1, u.2])
  let s := { s with mt := { s.mt with periods := s.mt.periods ++ [(set, ns)], volts := setD [] s.mt.volts set us } }
  ((metered s).filter (fun m => meterSet s m == set)).foldl (cycleValues set ns) s

/-- The lock of a set follows a cycle that ended now; with no phase at or above ULOCK there is none to follow (10 R289). -/
def followLock (s : State) (set period : Nat) : State :=
  { s with mt := { s.mt with locks := modifyNth s.mt.locks set (fun l => if lockPhase s set = 3 then { l with since := s.clk.nt } else l.cycle period s.clk.nt) } }

/-- FUNDAMENTAL_CYCLE: with the tick's samples up to its end, a cycle of a set completes: the lock, P1 and Q1. While UNLOCKED the window is one nominal period; a LOCKED set with no phase at or above ULOCK completes no cycle (10 R289, R290). -/
def execFundamentalCycle (set period : Nat) (samples : List (List Nat)) (s : State) : Out :=
  if !dspRuns s then done s
  else
    let s := takeSamples s samples []
    let l := nth Lock.reset s.mt.locks set
    if l.locked && lockPhase s set == 3 then done s
    else done (setCycle (followLock s set period) set (if l.locked then period else nominalPeriod s))

/-- LOCK_TIMEOUT: three nominal periods with no phase at or above ULOCK unlock the set (10 R289). -/
def execLockTimeout (set : Nat) (s : State) : Out :=
  match (nth Lock.reset s.mt.locks set).quiet with
  | none => done s
  | some t =>
    if !dspRuns s then done s
    else
      let s := advanceTo s (t + ceilDiv (3 * nominalPeriod s) 1000)
      done { s with mt := { s.mt with locks := modifyNth s.mt.locks set (fun l => { l with locked := false, inRange := 0 }) } }

/-- A quantity of the larger value, for PMAX. -/
def largerOf (a b : Word) : Word := if flt a b then b else a

/-- The quantities of a second of a point as MTR_CAL_MEASURE reports them: Urms, Irms, P and Q1 of each phase (13 Table 13-11). -/
def measured (s : State) (m : Nat) : List Word := [0, 1, 2].flatMap (fun p => [quantityOf s m (8 + p), secOf s m (11 + p), secOf s m (14 + p), secOf s m (17 + p)])

/-- A measurement of MTR_CAL_MEASURE after a second: its means when its time is over (13 Table 13-11). -/
def measureSecond (s : State) (x : Measure) : State :=
  let all := x.seconds ++ [measured s x.point]
  if 1 < x.left then
    { s with mt := { s.mt with measures := s.mt.measures.map (fun y => if y.mb = x.mb then { y with left := y.left - 1, seconds := all } else y) } }
  else
    let page := (List.range 12).flatMap (fun i => natLe 4 (Config.measureMean (all.map (fun r => nth 0 r i))).toNat)
    let s := { s with mt := { s.mt with measures := s.mt.measures.filter (fun y => y.mb != x.mb) } }
    replyTo s x.mb { Reply.ok with page := page }

/-- The one-second values are formed, MTR_MPSTAT last, and the next second begins (10 R291, Tables 10-5, 10-6 and 10-8). -/
def formSecond (s : State) : State :=
  let sec := (metered s).foldl (fun t m => putSecond t m (pointSecond s m)) s.mt.sec
  let sec := (List.range 4).foldl (fun t v => putSecond t (12 + v) (setSecond s v)) sec
  let s := { s with mt := { s.mt with
    sec := sec, secN := 0, secSq := [], secUI := [], periods := [], cycles := [], clip := s.mt.clipNow, clipNow := [], secNt := s.mt.tickNt } }
  { s with mt := { s.mt with
      sec := (metered s).foldl (fun t m => setD 0 t (secKey m 0x28) (word (mpStat s m))) s.mt.sec
      pmax := (List.range 12).foldl (fun (t : NMap Nat) m => setD 0 t m (largerOf (word (getD 0 t m)) (secOf s m 4)).toNat) s.mt.pmax } }

/-- METER_SECOND: at a tick end that ends a second, the one-second values are formed (10 R291, Tables 10-5 and 10-6). -/
def execMeterSecond (s : State) : Out :=
  if !dspRuns s || s.mt.tickNt % 1000000 != 0 || s.mt.tickNt != s.clk.nt || s.mt.secNt == s.mt.tickNt then done s
  else
    let s := formSecond s
    let s := if !s.mt.frozen || s.mt.viewNt == s.mt.tickNt then takeView s else s
    done (s.mt.measures.foldl measureSecond s)

/-- MTR_SNAP: a write of SNAP (10 R299). -/
def execMtrSnap (s : State) : Out := whilePowered s (writeMtrCtrl s 1)

/-- MTR_RELEASE: a write of RELEASE (10 R299). -/
def execMtrRelease (s : State) : Out := whilePowered s (writeMtrCtrl s 2)

/-! Meanings: commands (10 Table 10-11, 13 Table 13-11). -/

/-- A metering command runs on QG64-M40; on QG64-C40 it is not permitted (00 R6). -/
def runMeter (s : State) (mb code : Nat) (k : Mailbox → State) : Out :=
  runCommand s mb code (fun b => if s.part.m40 then k b else refuse s mb stNotPermitted)

/-- MTR_READ: the full registers of a point at the next tick end. -/
def execMtrRead (mb : Nat) (s : State) : Out :=
  if s.mt.reads.any (fun r => r.1 == mb) then done s
  else
    runMeter s mb 0x0701 (fun b =>
      let p := b.arg0.toNat
      if p < 1 ∨ 12 < p then refuse s mb stBadParameter
      else if !pointInUse s p then refuse s mb stNotPermitted
      else { s with mt := { s.mt with reads := s.mt.reads ++ [(mb, false, p - 1)] } })

/-- MTR_READ_SIGNED: a reading waits for the next tick end (10 R311). -/
def execMtrReadSigned (mb : Nat) (s : State) : Out :=
  runMeter s mb 0x0702 (fun b =>
    let p := b.arg0.toNat
    if p < 1 ∨ 12 < p then refuse s mb stBadParameter
    else if !keysOn s || !pointInUse s p then refuse s mb stNotPermitted
    else if slotBad s 0 then refuse s mb stKeyBad
    else accept { s with mt := { s.mt with readings := s.mt.readings ++ [{ mb := mb, heat := false, object := p - 1, taken := none }] } } mb)

/-- MTR_RECORD: the newest energy record and the tail record. -/
def execMtrRecord (mb : Nat) (s : State) : Out :=
  runMeter s mb 0x0703 (fun _ =>
    match s.mt.newest with
    | none => refuse s mb stNotReady
    | some b => finish s mb { Reply.ok with page := slice b 0 1760 ++ pageBytes s 5 1552 })

/-- The losses as MTR_LOSS returns them: for each point LOSS_EST and LOSS_MAX (notes/assumptions/39). -/
def lossBytes (s : State) : Bytes := (List.range 12).flatMap (fun m => natLe 4 (getD 0 s.mt.lossEst m) ++ natLe 4 (getD 0 s.mt.lossMax m))

/-- MTR_LOSS: the loss flags and losses. -/
def execMtrLoss (mb : Nat) (s : State) : Out :=
  runMeter s mb 0x0704 (fun _ =>
    finish s mb { Reply.ok with res0 := b2n s.mt.tailLost + 2 * b2n s.mt.latchLost, page := lossBytes s })

/-- MTR_ACK_LOSS: the flags are cleared, also in page 0 (10 R307). -/
def execMtrAckLoss (mb : Nat) (s : State) : Out :=
  runMeter s mb 0x0705 (fun _ =>
    finish (setPage0 { s with mt := { s.mt with tailLost := false, latchLost := false } } 8 4 0) mb Reply.ok)

/-- MTR_CAL_BEGIN: MA10 starts for a mask of points (10 R309). -/
def execMtrCalBegin (mb : Nat) (s : State) : Out :=
  runMeter s mb 0x0710 (fun b =>
    let mask := b.arg0.toNat
    if mask = 0 ∨ 4096 ≤ mask then refuse s mb stBadParameter
    else if collides s 10 0 then refuse s mb stConflict
    else if (List.range 12).any (fun m => bit mask m && !meterInUse s m) then refuse s mb stNotPermitted
    else finish (maStart { s with mt := { s.mt with calMask := mask } } 10 0) mb Reply.ok)

/-- A channel belongs to a point of the mask. -/
def channelUnderCal (s : State) (c : Nat) : Bool := (List.range 12).any (fun m => bit s.mt.calMask m && (pointChannels s m).contains c)

/-- MTR_CAL_SET: a working entry is set at once (10 R309). -/
def execMtrCalSet (mb : Nat) (s : State) : Out :=
  runMeter s mb 0x0711 (fun b =>
    let e : CalEntry := { gain := b.arg1, phase := b.arg2.toNat }
    if 48 ≤ b.arg0.toNat ∨ !e.ok then refuse s mb stBadParameter
    else if !runs s 10 || !channelUnderCal s b.arg0.toNat then refuse s mb stNotPermitted
    else finish { s with mt := { s.mt with calWorking := setD { gain := 0x3F800000, phase := 0 } s.mt.calWorking b.arg0.toNat e } } mb Reply.ok)

/-- MTR_CAL_MEASURE: means over 1 to 60 seconds at the working entries (10 R309). -/
def execMtrCalMeasure (mb : Nat) (s : State) : Out :=
  runMeter s mb 0x0712 (fun b =>
    let p := b.arg0.toNat
    let n := b.arg1.toNat
    if p < 1 ∨ 12 < p ∨ n < 1 ∨ 60 < n then refuse s mb stBadParameter
    else if !runs s 10 || !bit s.mt.calMask (p - 1) then refuse s mb stNotPermitted
    else accept { s with mt := { s.mt with measures := s.mt.measures ++ [{ mb := mb, point := p - 1, left := n, seconds := [] }] } } mb)

/-- Measurements end with the calibration. -/
def abortMeasures (s : State) : State :=
  let s' := s.mt.measures.foldl (fun s x => replyTo s x.mb (Reply.of stAborted)) s
  { s' with mt := { s'.mt with measures := [] } }

/-- MTR_CAL_COMMIT: the working entries are stored and the calibration counter is incremented (10 R308, R309). -/
def execMtrCalCommit (mb : Nat) (s : State) : Out :=
  runMeter s mb 0x0713 (fun _ =>
    if !runs s 10 || ctrRefuses s 0 then refuse s mb stNotPermitted
    else if s.pwr.vhold < 27000 then refuse s mb stHoldLow
    else
      let t := s.mt.calWorking
      let s := abortMeasures (accept { s with mt := { s.mt with calStored := t, calValid := true } } mb)
      let s := ownerWrite s { page := 10, off := 0, bytes := calBytes t, head := { fmt := 1, len := 384, w0 := 0, w1 := 0, w2 := 0 }, store := true }
      requestInc s 0 (.calibration mb))

/-- MTR_CAL_CANCEL: the stored entries apply again, and MA10 ends (10 R309). -/
def execMtrCalCancel (mb : Nat) (s : State) : Out :=
  runMeter s mb 0x0714 (fun _ =>
    if !runs s 10 then refuse s mb stNotPermitted
    else
      let s := abortMeasures { s with mt := { s.mt with calWorking := s.mt.calStored, calMask := 0 } }
      maEnd (finish s mb Reply.ok) 10 0 stOk)

/-! The current-only watch (10 R312 to R314). -/

/-- The watched points, ascending (10 Table 10-13). -/
def watchedPoints (s : State) : List Nat := (List.range 12).filter (fun m => bit s.mt.watchCfg.toNat m)

/-- WATCH_LIMIT in ticks of the RTC. -/
def watchLimitTicks (s : State) : Nat := bits s.mt.watchCfg.toNat 16 10 * 3600 * 32768

/-- Gain, RATIO and GAIN_CORR of a watched channel, as the battery domain keeps them (10 R313). -/
def watchScaleOf (s : State) (c : Nat) : Nat × Word × Word := getD (1, 0x3F800000, 0x3F800000) s.mt.watchScale c

/-- What the watch needs of the parameters and calibration entries of the points of a mask (10 R313). -/
def watchScales (s : State) (mask : Nat) : NMap (Nat × Word × Word) :=
  ((List.range 12).filter (fun m => bit mask m)).foldl (fun t m => [0, 1, 2].foldl (fun t p =>
    setD (1, 0x3F800000, 0x3F800000) t (currCh m p)
      (chGain s (currCh m p), meterPar s (0x0730 + currCh m p), (calOf s.mt.calWorking (currCh m p)).gain)) t) []

/-- Irms of a channel over a second of the watch: the samples scaled by the gains and calibration of R287 (10 R313). -/
def watchIrms (s : State) (c : Nat) (samples : List Nat) : Nat :=
  let k := watchScaleOf s c
  let vs := samples.map (fun x => toPrimary k.1 k.2.1 k.2.2 (normalised x))
  rootMean (vs.foldl (fun a x => binary64.add a (binary64.mul x x)) 0) vs.length

/-- Numerator and denominator of (Irms / full scale)², with the full scale 0.6 / g / √2 × RATIO (10 R283). -/
def watchRatio (s : State) (c irms : Nat) : Nat × Nat :=
  let k := watchScaleOf s c
  let i := binary64.frac irms
  let r := binary32.frac k.2.1.toNat
  (2 * i.1 * i.1 * (10 * k.1 * r.2) * (10 * k.1 * r.2), i.2 * i.2 * (6 * r.1) * (6 * r.1))

/-- An Irms as an unsigned 16-bit fraction of full scale, rounded down (10 R313; notes/assumptions/40). -/
def watchFraction (s : State) (c irms : Nat) : Nat :=
  let q := watchRatio s c irms
  Nat.min 65535 (isqrt (q.1 * 2 ^ 32 / q.2))

/-- An Irms reaches WATCH_THRESH of full scale (10 R313). -/
def watchReached (s : State) (c irms : Nat) : Bool :=
  let q := watchRatio s c irms
  decide (s.mt.watchThr.toNat * s.mt.watchThr.toNat * q.2 ≤ q.1 * 10 ^ 12)

/-- Irms × 1 s as whole A·s: the rounding is open (10 R313; notes/assumptions/40). -/
def ampereSeconds (irms : Nat) : Nat :=
  let q := binary64.frac irms
  q.1 / q.2 + b2n (q.1 % q.2 != 0 && Config.watchUp irms)

/-- A watch record: seconds, point, three fractions of full scale (10 R313; notes/assumptions/40). -/
def watchRecord (sec m : Nat) (fr : List Nat) : Bytes := natLe 8 sec ++ natLe 2 (m + 1) ++ fr.flatMap (natLe 2)

/-- A record enters the ring of 4,096 (10 R313). -/
def pushWatch (s : State) (b : Bytes) : State :=
  if s.mt.watchRing.length < 4096 then { s with mt := { s.mt with watchRing := s.mt.watchRing ++ [b] } }
  else { s with mt := { s.mt with watchRing := s.mt.watchRing.drop 1 ++ [b], watchOver := wrap32 (s.mt.watchOver + 1) } }

/-- A watched point's second, with the samples of its three phases: its totals, and a record where a phase reaches WATCH_THRESH (10 R313). -/
def watchPoint (s : State) (m : Nat) (x : List (List Nat)) : State :=
  let irms := fun (p : Nat) => watchIrms s (currCh m p) (nth [] x p)
  let add := fun (t : NMap Nat) (p : Nat) => setD 0 t (3 * m + p) (satAdd 32 (getD 0 t (3 * m + p)) (ampereSeconds (irms p)))
  let s := { s with mt := { s.mt with watchTotals := add (add (add s.mt.watchTotals 0) 1) 2 } }
  if [0, 1, 2].any (fun p => watchReached s (currCh m p) (irms p)) then
    pushWatch s (watchRecord (s.rtc.tick / 32768) m ([0, 1, 2].map (fun p => watchFraction s (currCh m p) (irms p))))
  else s

/-- WATCH_SECOND: at a second of the RTC the watch forms Irms of each watched phase from its samples (10 R313). -/
def execWatchSecond (samples : List (List (List Nat))) (s : State) : Out :=
  if s.pwr.pstate != 1 || s.pwr.watchStart.isNone || s.rtc.oscFail then done s
  else
    let s := runToTick s ((s.rtc.tick / 32768 + 1) * 32768)
    let s := { s with mt := { s.mt with watchEnd := s.rtc.tick } }
    done (((watchedPoints s).zip samples).foldl (fun s x => watchPoint s x.1 x.2) s)

/-- MTR_WATCH_READ: the watch's times, counts, totals and records (13 Table 13-11). -/
def execMtrWatchRead (mb : Nat) (s : State) : Out :=
  runMeter s mb 0x0720 (fun _ =>
    let ps := watchedPoints s
    let totals := (List.range 4).flatMap (fun i => (List.range 3).flatMap (fun p =>
      natLe 4 (match ps[i]? with | some m => getD 0 s.mt.watchTotals (3 * m + p) | none => 0)))
    let head := natLe 8 s.mt.watchStart ++ natLe 8 s.mt.watchEnd ++ natLe 4 s.mt.watchOver ++ natLe 4 s.mt.watchRing.length ++ natLe 8 0
    deliver s mb Reply.ok (head ++ totals ++ s.mt.watchRing.flatMap id) (mcc s))

/-- MTR_WATCH_CLEAR: the watch buffer is emptied (10 R314). -/
def execMtrWatchClear (mb : Nat) (s : State) : Out :=
  runMeter s mb 0x0721 (fun _ =>
    finish { s with mt := { s.mt with watchRing := [], watchTotals := [], watchStart := 0, watchEnd := 0, watchOver := 0 } } mb Reply.ok)

end Sys2Proof.Machine
end

