-- ==== Sys2Proof/Machine/Water.lean ====
section
/-! DEFINITION. Specific enthalpy and volume of water by IAPWS-IF97 region 1, in binary64 (11_heat_quantities R321). The manual names the formulation; its coefficients and the order of the operations are marked in notes/assumptions/22. -/
namespace Sys2Proof.Machine

/-- The terms of the region 1 equation: exponents I and J and coefficient n, nearest in binary64. -/
def waterTermsLow : List (Nat × Int × Nat) :=
  [(0, (-2), 0x3FC2BAEE9804F168), (0, (-1), 0xBFEB0E2FFF88C72F), (0, 0, 0xC00E0D06AA090DC9),
   (0, 1, 0x400B1589E4AF0246), (0, 2, 0xBFEEA7471376929B), (0, 3, 0x3FC4302E7C07201B),
   (0, 4, 0xBF9103E4E1CB505A), (0, 5, 0x3F4A9CC6E60FF25D), (1, (-9), 0x3F328F273AD7263A),
   (1, (-7), 0xBF43E469E64138E3), (1, (-1), 0xBF937221E7C9A507), (1, 0, 0xBFA0A7BD3E3B9AC5),
   (1, 1, 0xBF965DACD3D3D990), (1, 3, 0xBF0BB3D827D81F71), (2, (-3), 0xBF3EEC3728B00F37),
   (2, 0, 0xBF33A976AC5BF3B6), (2, 1, 0x3F08FD01065FBB88), (2, 3, 0xBED283B1CE2960AD)]

/-- The remaining terms. -/
def waterTermsHigh : List (Nat × Int × Nat) :=
  [(2, 17, 0xBCCA30EE11E79E1C), (3, (-4), 0xBF009BF84EF7B51A), (3, 0, 0xBEC7B71B8E39B1B4),
   (3, 6, 0xBE0D46B8EA8FEF11), (4, (-5), 0xBEC2CFCAE923A340), (4, (-2), 0xBEA5DE2A58EF54A4),
   (4, 10, 0xBD442F271BD37B70), (5, (-8), 0xBE9B30C45DE74ADF), (8, (-11), 0xBE15E09AEA1A2D9A),
   (8, (-6), 0xBDE7F2D4DF22D4FA), (21, (-29), 0xBC295E66519630B3), (23, (-31), 0x3BD117CCCF647473),
   (29, (-38), 0x3B3FD68796EACA23), (30, (-39), 0xBB2CE338605A001F), (31, (-40), 0x3B01A10EC079AE05),
   (32, (-41), 0xBABCF2C58481500B)]

/-- x to the power n: n multiplications from 1. -/
def pow64 (x n : Nat) : Nat :=
  match n with
  | 0 => binary64.ofInt 1 0
  | k + 1 => binary64.mul (pow64 x k) x

/-- x to a whole power. -/
def powInt64 (x : Nat) (n : Int) : Nat := if 0 ≤ n then pow64 x n.toNat else binary64.div (binary64.ofInt 1 0) (pow64 x (-n).toNat)

/-- A sum over the terms in their order. -/
def waterSum (f : Nat × Int × Nat → Nat) : Nat := (waterTermsLow ++ waterTermsHigh).foldl (fun a t => binary64.add a (f t)) 0

/-- T in K of a temperature in °C. -/
def kelvin (c : Nat) : Nat := binary64.add c 0x4071126666666666

/-- π = p / 16.53 MPa, of p in kPa. -/
def reducedPressure (kpa : Nat) : Nat := binary64.div (binary64.pack false kpa 1000 0) 0x403087AE147AE148

/-- τ = 1386 K / T. -/
def reducedTemperature (k : Nat) : Nat := binary64.div 0x4095A80000000000 k

/-- R = 0.461526 kJ/(kg·K). -/
def waterGas : Nat := 0x3FDD89A459103C8E

/-- ∂γ/∂τ = Σ n (7.1 − π)^I J (τ − 1.222)^(J−1). -/
def gammaTau (p t : Nat) : Nat :=
  waterSum (fun x => binary64.mul (binary64.mul (binary64.mul x.2.2 (powInt64 (binary64.sub 0x401C666666666666 p) x.1)) (binary64.ofInt x.2.1 0))
    (powInt64 (binary64.sub t 0x3FF38D4FDF3B645A) (x.2.1 - 1)))

/-- ∂γ/∂π = Σ −n I (7.1 − π)^(I−1) (τ − 1.222)^J. -/
def gammaPi (p t : Nat) : Nat :=
  waterSum (fun x => binary64.mul (binary64.mul (binary64.mul (binary64.neg x.2.2) (binary64.ofInt x.1 0))
    (powInt64 (binary64.sub 0x401C666666666666 p) ((x.1 : Int) - 1))) (powInt64 (binary64.sub t 0x3FF38D4FDF3B645A) x.2.1))

/-- h in kJ/kg of a temperature in °C and a pressure in kPa: R T τ ∂γ/∂τ. -/
def waterEnthalpy (c kpa : Nat) : Nat :=
  let k := kelvin c
  let t := reducedTemperature k
  binary64.mul (binary64.mul (binary64.mul waterGas k) t) (gammaTau (reducedPressure kpa) t)

/-- v in m³/kg of a temperature in °C and a pressure in kPa: R T π ∂γ/∂π / p. -/
def waterVolume (c kpa : Nat) : Nat :=
  let k := kelvin c
  let p := reducedPressure kpa
  binary64.div (binary64.mul (binary64.mul (binary64.mul waterGas k) p) (gammaPi p (reducedTemperature k))) (binary64.ofInt kpa 0)

end Sys2Proof.Machine
end

