-- ==== Sys2Proof/Machine/Heat.lean ====
section
/-! DEFINITION. Heat and cold quantities: the step of a channel, its registers, the heat record and its restore, the heat commands; the periodic save and the metering stop (11_heat_quantities R317 to R330, 10_electrical_metering R303, R305, R312). -/
namespace Sys2Proof.Machine

/-! Parameters (11 Table 11-1). -/

/-- Word j of channel n. -/
def hcWord (s : State) (n j : Nat) : Word := heatPar s (0x0800 + 8 * n + j)

/-- MODE. -/
def hcMode (s : State) (n : Nat) : Nat := bits (hcWord s n 0).toNat 1 2
/-- VSRC. -/
def hcVsrc (s : State) (n : Nat) : Nat := bits (hcWord s n 0).toNat 3 2
/-- The DI of a PULSE channel. -/
def hcDi (s : State) (n : Nat) : Nat := bits (hcWord s n 0).toNat 5 4
/-- METLOC: the flow sensor stands in the return. -/
def hcReturn (s : State) (n : Nat) : Bool := bit (hcWord s n 0).toNat 9
/-- A binary32 parameter as binary64. -/
def hcReal (s : State) (n j : Nat) : Nat := binary32.convert binary64 (hcWord s n j).toNat
/-- TAGE_MAX. -/
def hcAgeMax (s : State) (n : Nat) : Nat := bits (hcWord s n 7).toNat 0 4
/-- AVG. -/
def hcAvg (s : State) (n : Nat) : Nat := bits (hcWord s n 7).toNat 4 6
/-- PNOM in kPa. -/
def hcPnom (s : State) (n : Nat) : Nat := bits (hcWord s n 7).toNat 16 16

/-- A whole number as binary64. -/
def whole64 (x : Nat) : Nat := binary64.ofInt x 0

/-- L_s: the matrix-cycle length in seconds (11 R318). -/
def cycleSeconds (s : State) : Nat := binary64.pack false (cycleLen s) 1000000 0

/-! The volume of a step (11 R319). -/

/-- What a step finds of its volume: a point not usable, or a flow with its litres; a step that sets the baseline counts 0 litres. -/
inductive Volume where
  | unusable
  | reverse
  | litres (dv : Nat)
deriving DecidableEq, Repr

/-- The input-image entry that a parameter names. -/
def hcEntry (s : State) (n j : Nat) : Entry := getD Entry.reset s.pt.input (hcWord s n j).toNat

/-- The volume of the step of a channel with the given pulse counts. -/
def volumeOf (s : State) (n : Nat) (h : Heat) (pulses : List Nat) : Volume :=
  let e := hcEntry s n 3
  match hcVsrc s n with
  | 0 =>
    if !h.baseSet then .litres 0
    else .litres (binary64.mul (whole64 ((nth 0 pulses (hcDi s n) + 2 ^ 32 - h.lastPulse) % 2 ^ 32)) (hcReal s n 4))
  | 1 =>
    if !usableEntry false e then .unusable
    else if !h.baseSet then .litres 0
    else
      let d := (e.value.toNat + 2 ^ 32 - h.base) % 2 ^ 32
      if 2 ^ 31 ≤ d then .reverse else .litres (binary64.mul (whole64 d) (hcReal s n 4))
  | _ =>
    if !usableEntry true e then .unusable
    else if !h.baseSet then .litres 0
    else if flt e.value 0 then .reverse
    else
      let f := binary32.convert binary64 e.value.toNat
      .litres (binary64.div (binary64.mul (binary64.mul f (cycleSeconds s)) (whole64 1000)) (whole64 3600))

/-- The baseline after a step: the pulse count, and the totaliser's value where it was usable (11 R319, R322 row 1). -/
def moveBase (s : State) (n : Nat) (h : Heat) (pulses : List Nat) : Heat :=
  let e := hcEntry s n 3
  let h := { h with lastPulse := nth 0 pulses (hcDi s n) }
  match hcVsrc s n with
  | 1 => if usableEntry false e then { h with base := e.value.toNat, baseSet := true, restored := none } else h
  | _ => { h with baseSet := true, restored := none }

/-- The seconds over which the volume of a step flowed: L_s, or the time since the restored record for the first step of a totaliser after start-up, where the time is valid (11 R319). -/
def flowSeconds (s : State) (h : Heat) : Nat :=
  match h.restored with
  | some t => if s.ce.latchValid && !s.ce.latchBeyond then binary64.pack false ((s.ce.latchTick + 2 ^ 48 - t) % 2 ^ 48) 32768 0 else cycleSeconds s
  | none => cycleSeconds s

/-- 3.6 in binary64, the nearest value. -/
def threePointSix : Nat := binary64.pack false 36 10 0

/-- A jump: ΔV above 2 × QMAX × L_s / 3.6 litres (11 Table 11-2). -/
def isJump (s : State) (n dv seconds : Nat) : Bool :=
  binary64.lt (binary64.div (binary64.mul (binary64.mul (whole64 2) (hcReal s n 5)) seconds) threePointSix) dv

/-- The flow of a step in m³/h: 3.6 × ΔV / L_s (11 Table 11-2). -/
def flowOf (dv seconds : Nat) : Nat := binary64.div (binary64.mul threePointSix dv) seconds

/-! Temperatures (11 R320, R321). -/

/-- A temperature of a step: its value, whether it is valid, and whether it lies outside 0.0 to 180.0 °C. -/
structure Temp where
  value : Nat
  valid : Bool
  outside : Bool
deriving DecidableEq, Repr

/-- The temperature that parameter j names. -/
def tempOf (s : State) (n j : Nat) : Temp :=
  let e := hcEntry s n j
  let v := binary32.convert binary64 e.value.toNat
  let inside := binary64.le 0 v && binary64.le v (whole64 180)
  { value := v, valid := usableEntry true e && decide (e.age ≤ hcAgeMax s n) && inside, outside := !inside }

/-- The heat coefficient k in kWh/(m³·K) (11 R321; notes/assumptions/22). -/
def heatCoefficient (s : State) (n f r : Nat) : Nat :=
  let p := hcPnom s n
  let m := if hcReturn s n then r else f
  binary64.div (binary64.sub (waterEnthalpy f p) (waterEnthalpy r p))
    (binary64.mul (binary64.mul (waterVolume m p) (binary64.sub f r)) (whole64 3600))

/-- The heat of a step in Wh (11 R321). -/
def heatOfStep (k dv dt : Nat) : Nat :=
  binary64.mul (binary64.mul (binary64.mul k (binary64.div dv (whole64 1000))) (binary64.abs dt)) (whole64 1000)

/-! Registers (11 R323, R324). -/

/-- The registers take a value in units of 10^6 of the count. -/
def plus (x v : Nat) : Nat := (x + residueOf v 1000000 1) % 2 ^ 112

/-- The mean of the last steps, as binary32. -/
def meanOf (xs : List Nat) : Word :=
  match xs with
  | [] => 0
  | _ => word (binary64.convert binary32 (binary64.div (xs.foldl binary64.add 0) (whole64 xs.length)))

/-- HQ_FLOW. -/
def hqFlow (h : Heat) : Word := meanOf (h.avg.map (fun x => x.2.1))

/-- HQ_DT. -/
def hqDt (h : Heat) : Word := meanOf (h.avg.map (fun x => x.2.2))

/-- HQ_STAT (11 Table 11-4). `flags` holds the bits [8:2] in their places. -/
def hqStat (s : State) (n : Nat) : Nat :=
  let h := heatOf s n
  b2n (heatInUse s n) + 2 * b2n (heatInUse s n && inRun s) + h.flags + 512 * b2n h.latchLost + 16777216 * h.cyc

/-- A register of the HQ_ block at an offset from 0x0_5400 (11 Table 11-3). -/
def hqReadReg (s : State) (off : Nat) : Nat :=
  let n := off / 0x20
  let h := heatOf s n
  let wrap := fun (x : Nat) => fastOf x / 2 ^ 32 % 256
  match off % 0x20 with
  | 0x00 => fastOf h.heat % 2 ^ 32
  | 0x04 => fastOf h.cold % 2 ^ 32
  | 0x08 => fastOf h.vol % 2 ^ 32
  | 0x0C => wrap h.heat + 256 * wrap h.cold + 65536 * wrap h.vol
  | 0x10 => h.power.toNat
  | 0x14 => (hqFlow h).toNat
  | 0x18 => (hqDt h).toNat
  | 0x1C => hqStat s n
  | _ => 0

/-! The step (11 R318, R322). -/

/-- The flags that a record marks when they change: ERR both ways, WRONGDIR, REVERSE and JUMP when they come (11 R322). -/
def flagChanges (was flags : Nat) : List Nat :=
  [2, 4, 6, 7].filter (fun b => (bit flags b && !bit was b) || (b == 2 && bit was b && !bit flags b))

/-- A step ends: flags, CYC, the means, and the records. Heat flow in kW, flow and ΔΘ in binary64. -/
def endStep (s : State) (n : Nat) (h : Heat) (flags cyc kw flow dt : Nat) : State :=
  let was := (heatOf s n).flags
  let all := h.avg ++ [(kw, flow, dt)]
  let avg := all.drop (all.length - hcAvg s n)
  let s := setHeat s n { h with flags := flags, cyc := cyc % 256, avg := avg, power := meanOf (avg.map (fun x => x.1)) }
  (flagChanges was flags).foldl (fun s _ => record s 0x0193 5 [word n, word (hqStat s n)]) s

/-- Heat power in kW of a step's Wh: ΔQ × 3.6 / L_s, negative for cold (11 Table 11-3). -/
def kilowatts (s : State) (q : Nat) : Nat := binary64.div (binary64.mul q threePointSix) (cycleSeconds s)

/-- The step of a channel that has a volume, by rows 3 to 7 of 11 Table 11-2. -/
def volumeStep (s : State) (n : Nat) (h : Heat) (cyc dv : Nat) (high : Nat) (tf tr : Temp) (dt flow : Nat) : State :=
  let h := { h with vol := plus h.vol dv }
  if !tf.valid || !tr.valid then
    endStep s n { h with volErr := plus h.volErr dv, errCyc := wrap32 (h.errCyc + 1) }
      (high + 4 + 256 * b2n (tf.outside || tr.outside)) cyc 0 0 dt
  else if binary64.lt (binary64.abs dt) (hcReal s n 6) then endStep s n h (high + 8) cyc 0 flow dt
  else
    let k := heatCoefficient s n tf.value tr.value
    let q := heatOfStep k dv dt
    let kWord := word (binary64.convert binary32 k)
    if binary64.lt 0 dt && (hcMode s n == 0 || hcMode s n == 2) then
      endStep s n { h with heat := plus h.heat q, kLast := kWord } high cyc (kilowatts s q) flow dt
    else if binary64.lt dt 0 && (hcMode s n == 1 || hcMode s n == 2) then
      endStep s n { h with cold := plus h.cold q, kLast := kWord } high cyc (binary64.neg (kilowatts s q)) flow dt
    else endStep s n h (high + 16) cyc 0 flow dt

/-- One step of a channel, with the pulse counts of its instant (11 R318 to R322). ΔΘ is the difference of the two values, valid or not (R320); a step that sets the baseline is classified as any other, with ΔV 0 (notes/assumptions/41). -/
def heatStep (s : State) (n : Nat) (pulses : List Nat) (cyc : Nat) : State :=
  let h := heatOf s n
  let tf := tempOf s n 1
  let tr := tempOf s n 2
  let dt := binary64.sub tf.value tr.value
  let h' := moveBase s n h pulses
  match volumeOf s n h pulses with
  | .unusable => endStep s n { h' with errCyc := wrap32 (h.errCyc + 1) } 4 cyc 0 0 dt
  | .reverse => endStep s n h' 64 cyc 0 0 dt
  | .litres dv =>
    let secs := flowSeconds s h
    let high := if binary64.lt (hcReal s n 5) (flowOf dv secs) then 32 else 0
    if isJump s n dv secs then endStep s n h' (128 + high) cyc 0 0 dt
    else volumeStep s n h' cyc dv high tf tr dt (flowOf dv (cycleSeconds s))

/-- The channels in use. -/
def heatChannels (s : State) : List Nat := (List.range 32).filter (heatInUse s)

/-- The step of every channel in use at the input cut (11 R318). -/
def heatCut (s : State) : State := (heatChannels s).foldl (fun s n => heatStep s n s.vn.pcntCut s.clk.k) s

/-! Baselines (11 R319). -/

/-- A configuration commit that changes the heat parameters, or a network image load: the next step sets the baseline. -/
def clearBaselines (s : State) : State :=
  (List.range 32).foldl (fun s n => let h := heatOf s n; setHeat s n { h with baseSet := false, restored := none }) s

/-- The pulse counts at boundary T0: the first step of a PULSE channel that has its baseline counts from them, count(T1) − count(T0) (11 R318, R319). -/
def latchPulses (s : State) : State :=
  (List.range 32).foldl (fun s n => if hcVsrc s n = 0 then (let h := heatOf s n; setHeat s n { h with lastPulse := nth 0 s.vn.pcnt (hcDi s n) }) else s) s

/-! METER points (11 R326). -/

/-- The value and quality of a METER point of channel n. -/
def heatValue (s : State) (n q : Nat) : Word × Nat :=
  let h := heatOf s n
  let f := h.flags
  let marked := mkQuality (b2n (bit f 2)) false (bit f 5 || bit f 8)
  match q with
  | 0x01 => (h.power, marked)
  | 0x02 => (hqFlow h, marked)
  | 0x03 => (hqDt h, marked)
  | 0x04 => (h.kLast, marked)
  | 0x20 => (word (fastOf h.heat), 0)
  | 0x21 => (word (fastOf h.cold), 0)
  | 0x22 => (word (fastOf h.vol), 0)
  | _ => (word (hqStat s n), 0)

/-! The heat record (11 R327, 13 Table 13-11). -/

/-- A heat record body. -/
def heatBody (s : State) (kind nt : Nat) : Bytes :=
  natLe 4 kind ++ natLe 4 s.mt.holdId ++ natLe 8 nt ++ natLe 8 s.rtc.tick ++ natLe 8 0 ++
  (List.range 32).flatMap (fun n =>
    let h := heatOf s n
    regBytes h.heat ++ regBytes h.cold ++ regBytes h.vol ++ regBytes h.volErr ++ natLe 4 h.errCyc ++ natLe 4 h.base ++ natLe 4 h.power.toNat ++ natLe 4 0)

/-- A heat record is written to its page. -/
def writeHeat (s : State) (kind nt : Nat) (store : Bool) : State :=
  let body := heatBody s kind nt
  ownerWrite { s with mt := { s.mt with newestHeat := some body } }
    { page := nextRotation s 6, off := 0, bytes := body, head := { fmt := 1, len := body.length, w0 := 0, w1 := 0, w2 := 0 }, store := store }

/-- The latch of heat: a last step of each channel in use, with the pulses counted since the last cut and the entries of that cut, then a record of KIND LATCH (11 R327; notes/assumptions/42). -/
def latchHeat (s : State) : State :=
  let s := if cycling s then (heatChannels s).foldl (fun s n => heatStep s n s.vn.pcnt s.clk.k) s else s
  writeHeat s 2 s.clk.nt false

/-- LOSS_EST of a channel from the power of a record, rounded up (11 R328). -/
def heatLoss (s : State) (power : Nat) : Nat :=
  let q := binary32.frac (binary32.abs power)
  Nat.min (2 ^ 32 - 1) (ceilDiv (q.1 * 1000 * ((meterPar s 0x0780).toNat * 1000000 + cycleLen s)) (q.2 * 3600000000))

/-- LATCH_LOST and LOSS_EST are kept in page 0 (11 R328, 15 Table 15-5). -/
def saveHeatLosses (s : State) : State :=
  let bytes := (List.range 32).flatMap (fun n => natLe 4 (heatOf s n).lossEst)
  let s := ownerWrite s { page := 0, off := 0xA0, bytes := bytes, head := { fmt := 1, len := 0x120, w0 := 0, w1 := 0, w2 := 0 }, store := false }
  setPage0 s 0x0C 4 (packBits ((List.range 32).map (fun n => (heatOf s n).latchLost)))

/-- The channels that page 0 marks keep LATCH_LOST and LOSS_EST (11 R328). -/
def recallHeatLosses (s : State) : State :=
  let f := page0 s 0x0C
  (List.range 32).foldl (fun s n =>
    let h := heatOf s n
    setHeat s n { h with latchLost := bit f n, lossEst := page0 s (0xA0 + 4 * n) }) s

/-- A channel takes its registers from a record (11 R328); a totaliser restarts from the stored c_base, and a flow needs no baseline (R319). -/
def restoreChannel (s : State) (b : Bytes) (n : Nat) : State :=
  let o := 0x20 + 80 * n
  let h := heatOf s n
  setHeat s n { h with
    heat := regOfBytes b o, cold := regOfBytes b (o + 16), vol := regOfBytes b (o + 32), volErr := regOfBytes b (o + 48)
    errCyc := leAt b (o + 64) 4, base := leAt b (o + 68) 4, power := word32At b (o + 72)
    baseSet := hcVsrc s n != 0
    restored := if hcVsrc s n = 1 then some (leAt b 0x10 6) else none }

/-- LATCH_LOST on every channel in use, with its loss estimate (11 R328). -/
def heatLost (s : State) (rec : Option Bytes) : State :=
  saveHeatLosses ((heatChannels s).foldl (fun s n =>
    let h := heatOf s n
    setHeat s n { h with latchLost := true, lossEst := heatLoss s (match rec with | some b => leAt b (0x20 + 80 * n + 72) 4 | none => 0) }) s)

/-- The restore of the heat registers at start-up, after that of metering (11 R328). -/
def restoreHeat (s : State) : State :=
  let s := recallHeatLosses s
  let valid := (List.range 4).map (· + 6) |>.filter (fun p => bit s.rs.valid p && (leAt (pageBytes s p 4) 0 4 == 1 || leAt (pageBytes s p 4) 0 4 == 2))
  match valid with
  | [] =>
    let s := (List.range 32).foldl (fun s n => if hcVsrc s n = 2 then (let h := heatOf s n; setHeat s n { h with baseSet := true }) else s) s
    heatLost s none
  | h :: t =>
    let p := t.foldl (fun a b => if pageGen s a < pageGen s b then b else a) h
    let b := pageBytes s p 2592
    let s := (List.range 32).foldl (fun s n => restoreChannel s b n) { s with mt := { s.mt with newestHeat := some b } }
    if leAt b 0 4 = 1 ∧ leAt b 4 4 < s.mt.holdId then heatLost s (some b) else s

/-! Signed readings and reads (11 R329, R330). -/

/-- Bytes 0x00 to 0x6F of a heat reading. -/
def heatReading (s : State) (n : Nat) : Bytes :=
  let h := heatOf s n
  let st := hqStat s n
  let flags := 2 * b2n h.latchLost + 4 * b2n (bit st 2) + 8 * b2n (bit st 3) + 16 * b2n (bit st 4) + 32 * b2n (bit st 1)
  natLe 2 2 ++ natLe 1 n ++ natLe 1 flags ++ natLe 4 0 ++ natLe 8 s.clk.nt ++ natLe 8 s.rtc.tick ++ natLe 4 (mcc s) ++
  natLe 4 0 ++ natLe 4 0x00030002 ++ natLe 2 s.mt.tailLostCount ++ [0, 0] ++
  [h.heat, h.cold, h.vol, h.volErr].flatMap (fun x => natLe 8 (countOf x)) ++ natLe 4 h.errCyc ++ List.replicate 28 0 ++
  keyId (publicKey (meterSignKey s)) ++ natLe 4 0

/-- The full registers of a channel (13 Table 13-11). -/
def heatRegisters (s : State) (n : Nat) : Bytes :=
  let h := heatOf s n
  [h.heat, h.cold, h.vol, h.volErr].flatMap (fun x => natLe 8 (countOf x)) ++ natLe 4 h.errCyc ++ natLe 4 0

/-- The reads and readings of heat channels that wait for a step (11 R329, R330). -/
def heatReads (s : State) : State :=
  let mine := s.mt.reads.filter (fun r => r.2.1)
  let s := { s with mt := { s.mt with reads := s.mt.reads.filter (fun r => !r.2.1) } }
  let s := mine.foldl (fun s r => finish s r.1 { Reply.ok with page := heatRegisters s r.2.2 }) s
  (s.mt.readings.filter (fun r => r.heat && r.taken.isNone)).foldl (fun s r => takeReading s r (heatReading s r.object)) s

/-! Meanings. -/

/-- HQ_READ: the registers of a channel at the next step; at once where no step is made (11 Table 11-6, R318). -/
def execHqRead (mb : Nat) (s : State) : Out :=
  if s.mt.reads.any (fun r => r.1 == mb) then done s
  else
    runCommand s mb 0x0741 (fun b =>
      let n := b.arg0.toNat
      if 32 ≤ n then refuse s mb stBadParameter
      else if !heatInUse s n then refuse s mb stNotPermitted
      else if inRun s then { s with mt := { s.mt with reads := s.mt.reads ++ [(mb, true, n)] } }
      else finish s mb { Reply.ok with page := heatRegisters s n })

/-- HQ_READ_SIGNED: a signed reading at the next step (11 R330). -/
def execHqReadSigned (mb : Nat) (s : State) : Out :=
  runCommand s mb 0x0742 (fun b =>
    let n := b.arg0.toNat
    if 32 ≤ n then refuse s mb stBadParameter
    else if !keysOn s || !heatInUse s n then refuse s mb stNotPermitted
    else if slotBad s 0 then refuse s mb stKeyBad
    else accept { s with mt := { s.mt with readings := s.mt.readings ++ [{ mb := mb, heat := true, object := n, taken := none }] } } mb)

/-- HQ_RECORD: the newest heat record (13 Table 13-11). -/
def execHqRecord (mb : Nat) (s : State) : Out :=
  runCommand s mb 0x0743 (fun _ =>
    match s.mt.newestHeat with
    | none => refuse s mb stNotReady
    | some b => finish s mb { Reply.ok with page := slice b 0 2592 })

/-- HQ_ACK_LOSS: LATCH_LOST of every channel is cleared (11 R328). -/
def execHqAckLoss (mb : Nat) (s : State) : Out :=
  runCommand s mb 0x0744 (fun _ =>
    let s := (List.range 32).foldl (fun s n => let h := heatOf s n; setHeat s n { h with latchLost := false, lossEst := 0 }) s
    finish (saveHeatLosses s) mb Reply.ok)

/-- The instant of the next periodic save on a part without electrical metering: the multiple of SAVE_PERIOD that follows (10 R303, 11 R327). -/
def nextSave (s : State) : Nat :=
  let p := Nat.max 1 (meterPar s 0x0780).toNat * 1000000
  (s.clk.nt / p + 1) * p

/-- PERIODIC_SAVE: an energy record and a heat record of KIND PERIODIC at a tick end that is a multiple of SAVE_PERIOD; a page busy with a store makes the write wait (10 R303, 11 R327, 15 R394). -/
def execPeriodicSave (s : State) : Out :=
  if s.part.m40 then
    if dspRuns s && !s.ft.hwsafe && s.mt.saveDue && !s.mt.tailing then
      let s := { s with mt := { s.mt with saveDue := false, saveNt := s.mt.tickNt } }
      done (writeHeat (writeEnergy s 1 s.mt.tickNt true) 1 s.mt.tickNt true)
    else done s
  else if s.clk.running && !s.ft.hwsafe && decide (3 ≤ s.pwr.pstate ∧ s.pwr.pstate ≤ 5) then
    let s := advanceTo s (nextSave s)
    done (writeHeat s 1 s.clk.nt true)
  else done s

/-- A fundamental cycle in progress at the metering stop gives P1 and Q1 of the last complete cycle times its elapsed part (10 R305). -/
def openCycles (s : State) : State :=
  (indexed s.mt.locks).foldl (fun s l =>
    l.2.lastP1.foldl (fun s x =>
      if accumulates s x.1 && meterSet s x.1 == l.1 && !belowNoload s x.1 x.2.2.2 then
        let t := secondsOf64 ((s.clk.nt - l.2.since) * 1000)
        cyclePoint s x.1 (binary64.mul x.2.1 t) (binary64.mul x.2.2.1 t)
      else s) s) s

/-- METERING_STOP: metering stops at the end of the page stores or 15,000 µs after the latch, and the tail is stored in its page (10 R305, 19 Table 19-6). -/
def execMeteringStop (s : State) : Out :=
  match s.pwr.hold with
  | none => done s
  | some h =>
    if !h.metering then done s
    else
      let s := if failStores s then advanceTo s (s.mt.tailStart + 15000) else s
      let s := openCycles (pendingCycles (restOfTick s))
      let s := { s with
        pwr := { s.pwr with hold := some { h with metering := false } }
        mt := { s.mt with tailUs := Nat.min 15000 (s.clk.nt - s.mt.tailStart) } }
      let body := tailBody s
      let s := ownerWrite s { page := 5, off := 0, bytes := body, head := { fmt := 1, len := body.length, w0 := 0, w1 := 0, w2 := 0 }, store := false }
      done (requestStores s [5] .powerFail)

/-- WATCH_LIMIT: the watch ends when its limit has run, and the module goes OFF (10 R312, 19 Table 19-4). -/
def execWatchLimit (s : State) : Out :=
  match s.pwr.pstate, s.pwr.watchStart with
  | 1, some t =>
    if watchLimitTicks s = 0 ∨ s.rtc.oscFail then done s
    else
      let s := runToTick s (t + watchLimitTicks s)
      done { s with pwr := { s.pwr with pstate := 0, watchStart := none }, mt := { s.mt with watchEnd := s.rtc.tick } }
  | _, _ => done s

end Sys2Proof.Machine
end

