-- ==== Sys2Proof/Machine/Lines.lean ====
section
/-! DEFINITION. Station lines and the schedule: error counters and line states, fences, reference frames, transmit windows, retries, injections, reception with the end-to-end check, station judgement (03_station_lines, 04_schedule_matrix, 16 R418 to R421, 17 R433). -/
namespace Sys2Proof.Machine

/-! The schedule (04 R109). -/

/-- Basic cycles per matrix cycle. -/
def basics (s : State) : Nat := match s.net.image with | some n => n.basics | none => 0

/-- LB, the basic-cycle length in µs. -/
def basicLen (s : State) : Nat := cycleLen s / basics s

/-- The nominal start of the current basic cycle. -/
def basicStart (s : State) : Nat := cycleStart s + s.clk.bc * basicLen s

/-- The window entry of a line. -/
def windowAt (s : State) (line w : Nat) : Option Window :=
  match s.net.image with
  | some n => (n.windowsOf line)[w]?
  | none => none

/-- Whether a line's transmitter is on. -/
def Line.on (l : Line) : Bool := l.state == 1 || l.state == 2

/-- A reference frame or a retry may start on a line: RUN, the bus free of a frame of the module, the line transmitting since a basic-cycle start, and no injection queued, which goes ahead (03 Table 3-9, 04 R126, 19 R472). -/
def mayStart (s : State) (l : Line) : Bool := inRun s && !s.ft.hwsafe && l.on && l.joined && l.onBus.isNone && l.inj.isEmpty

/-- OUTSTOP of the current cycle: cycle 0 after start-up, and every cycle of REPLAY (04 R117). -/
def outstop (s : State) : Bool := s.clk.k == 0 || s.rp.running

/-- A frame as the line sends it: ESI of an FD frame is recessive while the line is error-passive (03 R87, Table 3-1). -/
def Line.frame (l : Line) (role : TxRole) (start ident : Nat) (ide fdf brs : Bool) (dlc : Nat) (data : Bytes) : OnBus :=
  { role := role, data := data, start := start, ident := ident, ide := ide, fdf := fdf, brs := fdf && brs, dlc := dlc
    esi := fdf && l.state == 2, safe := false }

/-- A window's frame as the line sends it. -/
def Line.windowFrame (l : Line) (role : TxRole) (start : Nat) (w : Window) (data : Bytes) : OnBus :=
  l.frame role start w.ident w.ide w.fdf w.brs w.dlc data

/-- The reference frame as the line sends it: an FD frame of identifier REF_ID, 11 bits, with the line's BRS setting and DLC 0xA (04 R115). -/
def Line.referenceFrame (l : Line) (r : LineRec) (start : Nat) (data : Bytes) : OnBus :=
  l.frame .reference start r.refId false true (bit r.fmt 1) 10 data

/-- An injection entry's frame as the line sends it; `safe` marks the frame of the hardware safe state (09 R267, R278). -/
def Line.injectionFrame (l : Line) (entry start : Nat) (e : InjEntry) (safe : Bool) : OnBus :=
  { l.frame (.injection entry) start e.ident e.ide e.fdf e.brs e.dlc (e.payload.take (dlcLen e.fdf e.dlc)) with safe := safe }

/-- A frame of a window fits when it starts at `start` (04 R113). -/
def fits (r : LineRec) (w : Window) (winStart start dur : Nat) : Bool :=
  decide (clkC start + dur + clkC r.guard ≤ clkC (winStart + w.length))

/-! Line states (03 R99 to R103). -/

/-- The LINE_STATE fault of a transition (03 Table 3-9, 18 Table 18-5). -/
def lineFault (s : State) (line old new cls cause : Nat) : State :=
  raiseFault s 0x0130 cls 3 [word (line + old * 256 + new * 4096 + cause * 65536)]

/-- What a line that enters BUS_OFF, FENCED or OFFLINE drops: the frame on the bus and those queued, each counted once (03 R101). -/
def Line.cutOff (l : Line) : Line :=
  let onInj := match l.onBus with | some f => (match f.role with | .injection _ => true | _ => false) | none => false
  let n := b2n l.onBus.isSome + b2n l.txWait.isSome + l.retries.length + l.inj.length - b2n onInj
  { l with onBus := none, refDue := none, txWait := none, retries := [], inj := [], joined := false, drop := wrap32 (l.drop + n) }

/-- Bus-offs that still count in the recovery window: for as many matrix cycles as it spans (03 R100). -/
def boffWindow (r : LineRec) (l : Line) : List Nat := l.boffs.filter (fun c => decide (c < r.recovery))

/-- A fence begins, or in FENCED takes a new cause and hold without being counted again (03 R100, Table 3-9). -/
def fence (s : State) (line cause : Nat) : State :=
  match lineRec s line with
  | none => s
  | some r =>
    let l := lineOf s line
    let again := l.state == 4
    let l' := { (if again then l else l.cutOff) with
      state := 4, fcause := cause, fhold := r.fenceHold, fences := if again then l.fences else satAdd 16 l.fences 1 }
    lineFault (setLine s line l') line l.state 4 3 cause

/-- The line state follows the error counters (03 Table 3-9). The bus-off that fences a line is counted in LN_BOFF as well (notes/assumptions/114). -/
def confine (s : State) (line : Nat) : State :=
  match lineRec s line with
  | none => s
  | some r =>
    let l := lineOf s line
    if !l.on then s
    else if 255 < l.tec then
      if r.boffLimit ≤ (boffWindow r l).length then fence (setLine s line { l with boff := satAdd 16 l.boff 1 }) line 1
      else
        let l' := { l.cutOff with state := 3, boffs := boffWindow r l ++ [0], boff := satAdd 16 l.boff 1 }
        lineFault (setLine s line l') line l.state 3 2 l.fcause
    else if l.state = 1 ∧ (127 < l.tec ∨ 127 < l.rcv) then lineFault (setLine s line { l with state := 2 }) line 1 2 1 l.fcause
    else if l.state = 2 ∧ l.tec ≤ 127 ∧ l.rcv ≤ 127 then lineFault (setLine s line { l with state := 1 }) line 2 1 1 l.fcause
    else s

/-- The cause of a transceiver fault in effect on the line as its NOW bits show it, 0 for none (03 Table 3-9). -/
def Line.nowCause (l : Line) : Nat := if l.thermNow then 3 else if l.gsupNow then 4 else 0

/-- The line integrates, or is fenced at once as a new fence (03 Table 3-9). -/
def integrate (s : State) (line : Nat) : State :=
  let l := lineOf s line
  let old := l.state
  let l' := { l with state := 0, tec := 0, rcv := 0, fhold := 0, joined := false, boffs := if old = 4 then [] else l.boffs }
  let s := lineFault (setLine s line l') line old 0 1 l.fcause
  if l.nowCause = 0 then s else fence s line l.nowCause

/-- MA08 offline takes effect (03 Table 3-9). -/
def goOffline (s : State) (line : Nat) : State :=
  let l := lineOf s line
  if l.state = 5 then s
  else lineFault (setLine s line { l.cutOff with state := 5, fhold := 0 }) line l.state 5 1 l.fcause

/-- MA08 online takes effect: OFFLINE and FENCED lines integrate (03 Table 3-9). -/
def goOnline (s : State) (line : Nat) : State :=
  let l := lineOf s line
  if l.state = 5 ∨ l.state = 4 then integrate s line else s

/-- The registers of a line as the network image loads them (03 R90, Table 3-10); DLYM of LN_SSP is measured. -/
def loadLine (n : NetImage) (i : Nat) (l : Line) : Line :=
  if n.lineUsed i then
    let r := n.lineAt i
    { l with abt := keepFields abtFields r.abt, dbt := keepFields dbtFields r.dbt, ssp := keepFields sspFields r.ssp, fmt := keepFields fmtFields r.fmt }
  else { l with abt := 0, dbt := 0, ssp := 0, fmt := 0 }

/-- A network image takes effect on the lines: every line OFFLINE, its buffers, counters of ALIVE and references empty, then every line in use integrates; the recovery window stands (03 R100, Table 3-9, 16 R420, R421). -/
def linesLoad (s : State) (n : NetImage) (start : Bool) : State :=
  let s := (List.range 64).foldl (fun s i =>
    setLine s i { loadLine n i (lineOf s i).cutOff with
      state := 5, fhold := 0, cur := [], prev := [], delivered := [], alive := [], e2eRef := [], lastGood := [] }) s
  if start then (List.range 64).foldl (fun s i => if n.lineUsed i then integrate s i else s) s else s

/-! Error counters of ISO 11898-1 (03 R99; notes/assumptions/32). -/

/-- A frame sent without error lowers TEC. -/
def Line.tecDown (l : Line) : Line := if l.on then { l with tec := l.tec - 1 } else l

/-- A frame received without error lowers REC; above 127 it takes a value from 119 to 127 that the standard leaves open. -/
def recDown (s : State) (line : Nat) : State :=
  let l := lineOf s line
  if !l.on then s
  else if 127 < l.rcv then drew (setLine s line { l with rcv := 119 + (freeWord s).toNat % 9 })
  else setLine s line { l with rcv := l.rcv - 1 }

/-! End-to-end protection (16 R418 to R421, 17 R433). -/

/-- The data ID of a window (16 R418). -/
def dataId (line w : Nat) : Bytes := natLe 1 line ++ natLe 2 w ++ [0]

/-- CHECK of a station frame (16 R419). -/
def frameCheck (line w : Nat) (data : Bytes) : Nat := crc16 (dataId line w ++ data.take 2 ++ data.drop 4)

/-- CHECK of a reference frame over payload bytes 0 to 13 (16 R418, R419). -/
def refCheck (line : Nat) (data : Bytes) : Nat := crc16 (natLe 1 line ++ [0xFF, 0xFF, 0] ++ data.take 14)

/-- The MAC trailer of a frame of a cycle (17 R433): `e2e` excludes the CHECK field. -/
def frameMac (key : Bytes) (line w cyc : Nat) (e2e : Bool) (data : Bytes) : Bytes :=
  let body := data.take (data.length - 4)
  let body := if e2e then body.take 2 ++ body.drop 4 else body
  (cmac key (dataId line w ++ natLe 4 cyc ++ body)).take 4

/-- The key with which a line's frames are sent; none for an EMPTY slot. A slot found BAD serves until the next boundary, from which its frames are not sent (17 R429, Table 17-8). -/
def slotKey (s : State) (slot : Nat) : Option Bytes := (lookup s.ks.slots slot).map (fun k => k.cur.key)

/-- The keys that a received frame of a line may verify with, in the current cycle (17 R439). -/
def lineKeys (s : State) (slot : Nat) : List Bytes :=
  if s.ks.lineBad.contains slot then []
  else
    (match lookup s.ks.slots slot with | some k => [k.cur.key] | none => []) ++
    ((s.ks.old.filter (fun o => o.slot == slot && decide (s.clk.k ≤ o.last))).map (fun o => o.key))

/-- The E2E value of a frame delivered to a window, and the reference after it (16 Table 16-5, 04 R123). -/
def judge (s : State) (line wi : Nat) (r : LineRec) (w : Window) (data : Bytes) (ref : Option Nat) : Nat × Option Nat :=
  let need := if w.e2e then 8 else 4
  let n := data.length
  let macOk := !w.mac || (decide (need ≤ n) &&
    (lineKeys s r.lineKey).any (fun k => frameMac k line wi (mcc s) w.e2e data == data.drop (n - 4)))
  if !w.e2e then (if macOk then 0 else 2, ref)
  else if n < 4 || leAt data 2 2 != frameCheck line wi data then (2, ref)
  else if !macOk then (2, ref)
  else
    let a := leAt data 0 1 % 16
    match ref with
    | none => (1, some a)
    | some b =>
      let d := (a + 16 - b) % 16
      if d = 0 then (3, ref) else if r.maxDelta < d then (3, some a) else (1, some a)

/-! Building frames (04 R115, R119, R122, R123; 02 R61). -/

/-- The payload of the reference frame of the current basic cycle (04 Table 4-5). -/
def refPayload (s : State) (line : Nat) : Bytes :=
  let head := natLe 1 s.clk.bc ++ natLe 1 (basics s - 1 + 64 * b2n (outstop s)) ++ natLe 4 (mcc s) ++ natLe 6 (basicStart s) ++ natLe 1 line ++ [0]
  head ++ natLe 2 (refCheck line head)

/-- The range that a field holds, for a type (02 R61). -/
def saturate (typ width : Nat) (v : Word) : Nat × Bool :=
  let w := if width = 0 then 1 else 8 * widthBytes width
  if typ = 1 ∨ typ = 4 then
    let x := clampInt (-(2 ^ (w - 1) : Nat)) ((2 ^ (w - 1) : Nat) - 1) v.toInt
    (ofSigned w x, x != v.toInt)
  else
    let x := Nat.min v.toNat (2 ^ w - 1)
    (x, x != v.toNat)

/-- The field of a TX point as it is sent, with the LIMIT and OVERRANGE that sending sets in the output image (02 R61); an active fail-safe set puts FAILSAFE in its place and changes no image (09 R268). -/
def txField (s : State) (n : NetImage) (p : Nat) : Nat × Bool × Bool :=
  let r := n.pointAt p
  let fs := (n.paramOf r).failsafe
  if heldSafe s p then ((saturate r.typ r.srcWidth fs).1, false, false)
  else
    let v := (getD Entry.reset s.pt.output p).value
    if r.typ = 3 && isNan32 v then (fs.toNat, false, true)
    else
      let x := saturate r.typ r.srcWidth v
      (x.1, x.2, false)

/-- A field placed in a payload (04 R121). -/
def placeField (data : Bytes) (p : PointRec) (x : Nat) : Bytes :=
  if p.srcWidth = 0 then modifyNth data p.srcOffset (fun b => BitVec.ofNat 8 (setBit b.toNat p.srcBit (bit x 0)))
  else
    let nb := widthBytes p.srcWidth
    data.take p.srcOffset ++ natLe nb x ++ data.drop (p.srcOffset + nb)

/-- The TX points of a window. -/
def txPoints (n : NetImage) (line w : Nat) : List Nat :=
  (pointsOf n 2).filter (fun p => (n.pointAt p).srcLine == line && (n.pointAt p).srcWindow == w)

/-- The output image after the frame of a window has been built: LIMIT and OVERRANGE (02 R61). -/
def markSent (s : State) (n : NetImage) (ps : List Nat) : State :=
  ps.foldl (fun s p =>
    let x := txField s n p
    let e := getD Entry.reset s.pt.output p
    let q := setBit (setBit e.quality 3 (bit e.quality 3 || x.2.1)) 4 (bit e.quality 4 || x.2.2)
    { s with pt := { s.pt with output := setD Entry.reset s.pt.output p { e with quality := q } } }) s

/-- The payload of a TX_EXCL frame (04 R119, R122, R123). -/
def txPayload (s : State) (n : NetImage) (line wi : Nat) (r : LineRec) (w : Window) (alive : Nat) : Bytes :=
  let len := dlcLen w.fdf w.dlc
  let data := (txPoints n line wi).foldl (fun d p => placeField d (n.pointAt p) (txField s n p).1) (List.replicate len 0)
  let data := if w.e2e then natLe 1 alive ++ data.drop 1 else data
  let data := if w.mac then
      match slotKey s r.lineKey with
      | some k => data.take (len - 4) ++ frameMac k line wi (mcc s) w.e2e data
      | none => data
    else data
  if w.e2e then data.take 2 ++ natLe 2 (frameCheck line wi data) ++ data.drop 4 else data

/-- The output image as a line DMA engine reads it next: a poisoned word reads as a free value (01 R28; notes/assumptions/33). -/
def poisonedOutput (s : State) : State :=
  (s.ce.poison.filter (fun x => x.1 == 4)).foldl (fun s x =>
    match Config.placeOf x.2 with
    | .output p =>
      let e := getD Entry.reset s.pt.output p
      drew { s with pt := { s.pt with output := setD Entry.reset s.pt.output p { e with value := freeWord s } } }
    | _ => drew s) s

/-- The poisoned words that line DMA engines meet have been read. -/
def dmaRead (s : State) : State := { s with ce := { s.ce with poison := s.ce.poison.filter (fun x => x.1 != 4) } }

/-- A station is sent frames while it is ONLINE or LATE and in service (02 R68). -/
def stationServed (s : State) (n : NetImage) (line addr : Nat) : Bool :=
  match n.stationAt line addr with
  | some u => decide ((unitRun s u).station ≤ 1) && !unitOut s u
  | none => false

/-- The key of a window with MAC set cannot be used: its frames are not sent (17 Table 17-8). -/
def keyUnusable (s : State) (r : LineRec) (w : Window) : Bool := w.mac && s.ks.lineBad.contains r.lineKey

/-- A retry becomes pending, in ascending window order (04 R125). -/
def Line.pend (l : Line) (w : Nat) (data : Bytes) : Line :=
  { l with retries := insertBy (fun x => x.window) { window := w, data := data } l.retries }

/-- A basic cycle begins on every line: what the one before left unsent is dropped and counted, a line that has come on transmits from here, and its reference frame is due (04 R109, R115, R125; 03 Table 3-9). -/
def startBasic (s : State) (nominal : Nat) : State :=
  { s with ln := s.ln.map (fun p =>
      let l := p.2
      let left := l.retries.length + b2n l.txWait.isSome
      (p.1, { l with
        retries := [], txWait := none, drop := wrap32 (l.drop + left)
        joined := l.on, refDue := if l.on then some nominal else none })) }

/-! Meanings: time-driven events. -/

/-- BASIC_CYCLE_START: the next basic cycle of the matrix cycle begins at its NT on every line (04 R109). The first one of a matrix cycle begins with BOUNDARY. -/
def execBasicCycleStart (s : State) : Out :=
  if !cycling s || s.ft.hwsafe || basics s ≤ s.clk.bc + 1 then done s
  else
    let s := { s with clk := { s.clk with bc := s.clk.bc + 1 } }
    let t := basicStart s
    done (startBasic (advanceTo s t) t)

/-- REFERENCE_FRAME: the reference frame that is due starts at the nominal start or at the first bus idle within GUARD of it; LN_ALIGN shows the offset (04 R115, R116). -/
def execReferenceFrame (line at_ : Nat) (s : State) : Out :=
  let l := lineOf s line
  match l.refDue, lineRec s line with
  | some t, some r =>
    if cycling s && mayStart s l && decide (t ≤ at_ ∧ at_ ≤ t + r.guard) then
      let x := l.referenceFrame r at_ (refPayload s line)
      done (setLine (advanceTo s at_) line { l with refDue := none, onBus := some x, align := 80 * (at_ - t : Nat) })
    else done s
  | _, _ => done s

/-- REFERENCE_FRAME_TIMEOUT: a reference frame not started within GUARD is dropped and counted (04 R116). -/
def execReferenceFrameTimeout (line : Nat) (s : State) : Out :=
  let l := lineOf s line
  match l.refDue, lineRec s line with
  | some t, some r =>
    if cycling s && !s.ft.hwsafe then done (setLine (advanceTo s (t + r.guard)) line { l with refDue := none, drop := wrap32 (l.drop + 1) })
    else done s
  | _, _ => done s

/-- A built frame that cannot start in time in its window counts as not acknowledged: it becomes a pending retry (04 R113, R125). -/
def lapseWaiting (s : State) (line : Nat) (r : LineRec) (at_ : Nat) (l : Line) : Line :=
  match l.txWait with
  | none => l
  | some t =>
    match windowAt s line t.window with
    | some w =>
      let ws := basicStart s + w.start
      if fits r w ws (Nat.max at_ (ws + r.guard)) (r.windowDur w) then l else { l.pend t.window t.data with txWait := none }
    | none => { l with txWait := none }

/-- A built frame that waits takes the bus at an instant at which it is idle, from START + GUARD on, if the frame still fits and no injection goes ahead; one that cannot start in time counts as not acknowledged (04 R113, R126). -/
def startWaiting (s : State) (line at_ : Nat) (l : Line) : Line :=
  match lineRec s line with
  | none => l
  | some r =>
    if l.onBus.isSome then l
    else
      let l := lapseWaiting s line r at_ l
      match l.txWait with
      | none => l
      | some t =>
        match windowAt s line t.window with
        | none => l
        | some w =>
          if l.inj.isEmpty && inRun s && !s.ft.hwsafe then
            { l with txWait := none, onBus := some (l.windowFrame (.window t.window) (Nat.max at_ (basicStart s + w.start + r.guard)) w t.data) }
          else l

/-- TX_WINDOW_START: at the start of a TX_EXCL window the frame is built from the output image; it is sent at START + GUARD, or where the bus is not idle then at `idle`, the NT of the next bus idle, or when the frame or injection of the module that is ahead of it lets it (04 R113, R119, R126). -/
def execTxWindowStart (line : Nat) (window : TxStart) (s : State) : Out :=
  let idle := window.idle
  let window := window.entry
  match s.net.image, lineRec s line, windowAt s line window with
  | some n, some r, some w =>
    if !cycling s || s.ft.hwsafe || w.kind != 1 || w.bc != s.clk.bc then done s
    else
      let s := advanceTo s (basicStart s + w.start)
      let l := lineOf s line
      if outstop s || !l.on || !l.joined || !stationServed s n line w.address then done s
      else if keyUnusable s r w then done (setLine s line { l with drop := wrap32 (l.drop + 1) })
      else
        let alive := match lookup l.alive window with | some a => (a + 1) % 16 | none => 0
        let bad := poisonedOutput s
        let data := txPayload bad n line window r w alive
        let l := if w.e2e then { l with alive := insertAt l.alive window alive } else l
        let s := { dmaRead (markSent s n (txPoints n line window)) with free := bad.free }
        let l := lapseWaiting s line r s.clk.nt l
        done (setLine s line (startWaiting s line idle { l with txWait := some { window := window, data := data } }))
  | _, _, _ => done s

/-- The station of a window held a good reception in its most recent RX_EXCL window (04 R124). -/
def lastGoodOf (s : State) (line wi : Nat) (l : Line) : Bool :=
  match windowAt s line wi with
  | some w => (lookup l.lastGood w.address).getD false
  | none => false

/-- What becomes of the module's frame by its role (04 R124, R125; 09 R267). -/
def frameJudged (s : State) (line : Nat) (f : OnBus) (acked : Bool) (l : Line) : Line :=
  match f.role with
  | .reference => l
  | .window w =>
    if acked && lastGoodOf s line w l then l
    else if s.ft.hwsafe then l else l.pend w f.data
  | .retry w => if acked && lastGoodOf s line w l then l else { l with drop := wrap32 (l.drop + 1) }
  | .injection e =>
    if s.ft.hwsafe && !f.safe then l
    else if acked then { l with inj := l.inj.filter (fun x => x.entry != e), safeSent := l.safeSent || s.ft.hwsafe }
    else
      let tries := ((l.inj.find? (fun x => x.entry == e)).map (fun x => x.tries)).getD 0 + 1
      if 4 ≤ tries then { l with inj := l.inj.filter (fun x => x.entry != e), drop := wrap32 (l.drop + 1), safeSent := l.safeSent || s.ft.hwsafe }
      else { l with inj := l.inj.map (fun x => if x.entry = e then { x with tries := tries } else x) }

/-- DLYM of LN_SSP after an FD frame sent with its bit rate switched, where compensation is on: a measured delay (03 Table 3-10; notes/assumptions/31). -/
def measureDelay (s : State) (line : Nat) (r : LineRec) (f : OnBus) : State :=
  let l := lineOf s line
  if bit r.ssp 0 && f.fdf && f.brs then drew (setLine s line { l with ssp := l.ssp % 2 ^ 24 + (freeWord s).toNat % 128 * 2 ^ 24 }) else s

/-- TX_FRAME_DONE: the module's frame on a line completes or fails, and is judged (04 R124, R125; 09 R267). TEC rises with LINE_ERROR. -/
def execTxFrameDone (line at_ : Nat) (result : TxResult) (s : State) : Out :=
  let l := lineOf s line
  match l.onBus, lineRec s line with
  | some f, some r =>
    if !s.clk.running then done s
    else
      let s := advanceTo s at_
      let acked := result == .acked
      let l := { l with onBus := none }
      let l := if acked then { l with txok := wrap32 (l.txok + 1) } else l
      let l := if acked && !s.ft.hwsafe then l.tecDown else l
      let l := frameJudged s line f acked l
      let s := setLine s line (startWaiting s line at_ l)
      let s := measureDelay s line r f
      done (if s.ft.hwsafe then s else confine s line)
  | _, _ => done s

/-- The FREE and ARB windows of the current basic cycle that start after entry `w` ends, in their order (04 R125). -/
def laterWindows (s : State) (line w : Nat) : List (Nat × Window) :=
  match s.net.image with
  | none => []
  | some n => (indexed (n.windowsOf line)).filter (fun p => decide (w < p.1) && p.2.bc == s.clk.bc && (p.2.kind == 0 || p.2.kind == 3))

/-- The window that takes a retry from an instant on: the first in which it fits (04 R113, R125). -/
def retryWindow (s : State) (line : Nat) (r : LineRec) (w at_ dur : Nat) : Option (Nat × Window) :=
  (laterWindows s line w).find? (fun p =>
    let ws := basicStart s + p.2.start
    fits r p.2 ws (Nat.max at_ (ws + r.guard)) dur)

/-- A retry leaves the line's queue and is counted in LN_DROP. -/
def Line.dropRetry (l : Line) (rest : List Retry) : Line := { l with retries := rest, drop := wrap32 (l.drop + 1) }

/-- RETRY_SEND: at a bus idle the first pending retry starts in the first FREE or ARB window in which it fits; one whose station is gone is dropped, one that no window left in the basic cycle can take likewise (04 R113, R125; 03 R101). -/
def execRetrySend (line window at_ : Nat) (s : State) : Out :=
  match s.net.image, lineRec s line with
  | some n, some r =>
    let at_ := Nat.max at_ s.clk.nt
    let l := lapseWaiting s line r at_ (lineOf s line)
    if !cycling s || s.ft.hwsafe then done s
    else
      match l.retries with
      | [] => done s
      | t :: rest =>
        match windowAt s line t.window with
        | none => done s
        | some tw =>
          if !stationServed s n line tw.address then done (setLine (advanceTo s at_) line (l.dropRetry rest))
          else
            match retryWindow s line r t.window at_ (r.windowDur tw) with
            | none => done (setLine (advanceTo s at_) line (l.dropRetry rest))
            | some (i, w) =>
              if i == window && decide (basicStart s + w.start + r.guard ≤ at_) && mayStart s l then
                done (setLine (advanceTo s at_) line { l with retries := rest, onBus := some (l.windowFrame (.retry t.window) at_ tw t.data) })
              else done s
  | _, _ => done s

/-- A frame of a TX_EXCL window that has not started gives way to an injection at a bus idle before it, and waits again (04 R126). -/
def Line.yields (nt at_ : Nat) (l : Line) : Line :=
  match l.onBus with
  | none => l
  | some f =>
    match f.role with
    | .window w => if nt < f.start ∧ at_ ≤ f.start then { l with onBus := none, txWait := some { window := w, data := f.data } } else l
    | _ => l

/-- The transmitter of a line is off in the hardware safe state: SAFE_INJ has been sent, or the transceiver reports a fault (03 Table 3-13, 09 R278). -/
def Line.muted (l : Line) : Bool := (l.safeSent && l.onBus.isNone) || l.thermNow || l.gsupNow || l.domNow

/-- INJECTION_SEND: the first queued injection enters arbitration at a bus idle, ahead of every other frame of the module; none starts in HOLD; in the hardware safe state the line sends its SAFE_INJ entry (04 R126; 09 R267, R278). -/
def execInjectionSend (line at_ : Nat) (s : State) : Out :=
  let l := (lineOf s line).yields s.clk.nt at_
  match s.net.image, l.inj with
  | some n, i :: _ =>
    match n.injs[i.entry]? with
    | none => done s
    | some e =>
      if s.clk.running && s.pwr.pstate != 6 && l.on && l.onBus.isNone && (if s.ft.hwsafe then !l.muted else l.joined) then
        done (setLine (advanceTo s at_) line { l with onBus := some (l.injectionFrame i.entry at_ e s.ft.hwsafe) })
      else done s
  | _, _ => done s

/-! Reception (03 R92 to R97). -/

/-- The window in which an instant lies, as entry number and entry (04 R109). -/
def windowOver (s : State) (line t : Nat) : Option (Nat × Window) :=
  match s.net.image with
  | none => none
  | some n =>
    if !cycling s || t < cycleStart s then none
    else
      let off := t - cycleStart s
      let b := off / basicLen s
      let x := off % basicLen s
      (indexed (n.windowsOf line)).find? (fun p => p.2.bc == b && decide (p.2.start ≤ x ∧ x < p.2.start + p.2.length))

/-- Where a frame is delivered: buffer, and the RX_EXCL window that judges it (03 Table 3-5). -/
def delivery (s : State) (n : NetImage) (line : Nat) (f : Frame) (win : Option (Nat × Window)) : Option (Nat × Option (Nat × Window)) :=
  if f.remote then none
  else
    match win with
    | none => none
    | some (i, w) =>
      if w.kind = 2 then
        if w.ident = f.ident && w.ide = f.ide && w.fdf = f.fdf then some (w.buf, some (i, w)) else none
      else if w.kind = 1 then none
      else ((n.accsOf line).find? (fun a => a.ident == f.ident && a.ide == f.ide && a.fdf == f.fdf)).map (fun a => (a.buf, none))

/-- NDAT on a write into a buffer of a line's current bank (03 R97). -/
def watchWrite (s : State) (line buf : Nat) : State :=
  let x := s.lbw.sel.toNat
  if fld x 0 6 = line ∧ fld x 8 3 = buf / 32 ∧ s.lbw.watch = buf % 32 ∧ !bit x 16 then { s with lbw := { s.lbw with ndat := true } } else s

/-- FRAME_RECEIVED: a valid frame at its frame-valid point is counted, delivered by Table 3-5 or discarded, judged, and offered to the vent path (03 R93, 16 R421). -/
def execFrameReceived (line at_ : Nat) (frame : Frame) (s : State) : Out :=
  match s.net.image, lineRec s line with
  | some n, some r =>
    let st := (lineOf s line).state
    if !s.clk.running || !(st == 1 || st == 2 || st == 4) || (lineOf s line).gsupNow then done s
    else
      let s := advanceTo s at_
      let data := slice frame.data 0 (dlcLen frame.fdf frame.dlc)
      let win := windowOver s line at_
      let l := lineOf s line
      let l := { l with rxok := wrap32 (l.rxok + 1), lastnt := at_ % 2 ^ 32 }
      match delivery s n line frame win with
      | none =>
        let s := setLine s line { l with disc := wrap32 (l.disc + 1) }
        let s := offerEvent s (if frame.remote then .remote line at_ else .frame line frame.ident frame.ide frame.fdf 0 data at_)
        let s := if s.ft.hwsafe then s else recDown s line
        done (if s.ft.hwsafe then s else confine s line)
      | some (buf, judged) =>
        let j := match judged with
          | some (i, w) => judge s line i r w data (lookup l.e2eRef i)
          | none => (0, none)
        let wi := match win with | some (i, _) => i | none => 0
        let was := (lookup l.cur buf).getD Buf.empty
        let b : Buf := { ident := frame.ident, ide := frame.ide, fdf := frame.fdf, brs := frame.brs, dlc := frame.dlc, esi := frame.esi, valid := true, repl := was.valid, e2e := j.1, window := wi, fvnt := at_, data := data }
        let l := { l with cur := insertAt l.cur buf b }
        let l := match judged, j.2 with
          | some (i, _), some a => { l with e2eRef := insertAt l.e2eRef i a }
          | _, _ => l
        let l := match judged with
          | some (i, _) => { l with delivered := insertAt l.delivered i j.1 }
          | none => l
        let s := watchWrite (setLine s line l) line buf
        let s := offerEvent s (.frame line frame.ident frame.ide frame.fdf j.1 data at_)
        let s := if s.ft.hwsafe then s else recDown s line
        done (if s.ft.hwsafe then s else confine s line)
  | _, _ => done s

/-- The station of a window after its judgement: none for a miss, else whether the reception was good (04 R127, Table 4-7). -/
def judgeStation (absentN : Nat) (r : UnitRun) (heard : Option Bool) : UnitRun :=
  if r.station = 3 ∨ r.station = 4 then r
  else
    match heard with
    | some true =>
      if r.station = 2 then (if 2 ≤ r.good + 1 then { r with station := 0, miss := 0, good := 0 } else { r with good := r.good + 1 })
      else { r with station := 0, miss := 0, good := 0 }
    | some false => { r with good := 0 }
    | none =>
      if r.station = 2 then { r with miss := 0, good := 0 }
      else if absentN ≤ r.miss + 1 then { r with station := 2, miss := 0, good := 0 }
      else { r with station := 1, miss := r.miss + 1, good := 0 }

/-- RX_WINDOW_END: at the end of an RX_EXCL window its station is judged (04 R127, R128). -/
def execRxWindowEnd (line window : Nat) (s : State) : Out :=
  match s.net.image, lineRec s line, windowAt s line window with
  | some n, some r, some w =>
    if !cycling s || s.ft.hwsafe || w.kind != 2 || w.bc != s.clk.bc then done s
    else
      let s := advanceTo s (basicStart s + w.start + w.length)
      let l := lineOf s line
      let heard := (lookup l.delivered window).map (fun e => decide (e ≤ 1))
      let s := setLine s line { l with delivered := eraseAt l.delivered window, lastGood := insertAt l.lastGood w.address (heard == some true) }
      match n.stationAt line w.address with
      | none => done s
      | some u =>
        let was := unitRun s u
        let x := judgeStation r.absentN was heard
        let s := { s with un := { s.un with run := setD UnitRun.reset s.un.run u x } }
        done (if x.station = 2 ∧ was.station ≠ 2 then clearRefs s n line w.address else s)
  | _, _, _ => done s

/-! Meanings: errors and line states. -/

/-- What an error adds to TEC of a transmitter (ISO 11898-1; notes/assumptions/32). -/
def Line.tecStep (l : Line) (kind : Nat) (how : ErrorStep) : Nat :=
  match how with
  | .silent => if kind = 4 ∧ l.state = 2 then 0 else 8
  | .arbStuff => if kind = 2 then 0 else 8
  | _ => 8

/-- What an error adds to REC of a receiver (ISO 11898-1; notes/assumptions/32). -/
def recStep (how : ErrorStep) : Nat :=
  match how with
  | .primary => 9
  | .flagBit => 8
  | .dominantRun => 8
  | _ => 1

/-- LINE_ERROR: an error detected by the controller is shown and counted, moves TEC or REC by ISO 11898-1, and may move the line state (03 R99, Tables 3-9 to 3-11; notes/assumptions/32). Further dominant bits after a flag move a counter only. In FENCED the counters stay (R103). -/
def execLineError (line kind : Nat) (dataPhase transmitting : Bool) (how : ErrorStep) (s : State) : Out :=
  let l := lineOf s line
  if !s.clk.running || kind < 1 || 6 < kind || !(l.on || l.state == 4) || (lineRec s line).isNone then done s
  else
    let l := if how = .dominantRun then l
      else if transmitting then { l with lerr := kind, lphase := dataPhase, txerr := wrap32 (l.txerr + 1) }
      else { l with lerr := kind, lphase := dataPhase, rxerr := wrap32 (l.rxerr + 1) }
    if s.ft.hwsafe || !l.on then done (setLine s line l)
    else
      let l := if transmitting then { l with tec := Nat.min 256 (l.tec + l.tecStep kind how) }
        else { l with rcv := Nat.min 256 (l.rcv + recStep how) }
      done (confine (setLine s line l) line)

/-- LINE_INTEGRATED: 11 recessive bits take an integrating line to ERROR_ACTIVE; it transmits from the next basic-cycle start (03 Table 3-9). -/
def execLineIntegrated (line : Nat) (s : State) : Out :=
  let l := lineOf s line
  if s.clk.running && l.state == 0 && !s.ft.hwsafe && (lineRec s line).isSome then done (setLine s line { l with state := 1, joined := false })
  else done s

/-- BUS_OFF_RECOVERY: 128 occurrences of 11 recessive bits end bus-off, with TEC and REC 0 (03 Table 3-9). -/
def execBusOffRecovery (line : Nat) (s : State) : Out :=
  let l := lineOf s line
  if s.clk.running && l.state == 3 && !s.ft.hwsafe then
    done (lineFault (setLine s line { l with state := 1, tec := 0, rcv := 0, joined := false }) line 3 1 1 l.fcause)
  else done s

/-- The lines that a transceiver fault affects (03 R107). -/
def faultLines (line : Nat) (f : XcvrFault) : List Nat :=
  if 64 ≤ line then []
  else
    match f with
    | .groupSupply => (List.range 8).map (fun i => 8 * (line / 8) + i)
    | _ => [line]

/-- The bits of LN_XCVR that a fault sets (03 Table 3-12). -/
def Line.xcvrSet (l : Line) (f : XcvrFault) : Line :=
  match f with
  | .dominant => { l with domto := true, domNow := true }
  | .thermal => { l with therm := true, thermNow := true }
  | .groupSupply => { l with gsup := true, gsupNow := true }

/-- The cause a transceiver fault gives a fence (03 Table 3-11). -/
def causeOf (f : XcvrFault) : Nat :=
  match f with
  | .dominant => 2
  | .thermal => 3
  | .groupSupply => 4

/-- XCVR_FAULT: a dominant time-out, thermal shutdown or group supply fault sets its bits and fences every affected line that is not OFFLINE (03 R105, R107, Table 3-9). -/
def execXcvrFault (line : Nat) (fault : XcvrFault) (s : State) : Out :=
  if !s.clk.running then done s
  else
    done ((faultLines line fault).foldl (fun s i =>
      let l := (lineOf s i).xcvrSet fault
      let s := setLine s i l
      if l.state = 5 || s.ft.hwsafe then s else fence s i (causeOf fault)) s)

/-- XCVR_FAULT_CLEARED: the condition ends; the latched bits stay until the host clears them (03 R105, R107). -/
def execXcvrFaultCleared (line : Nat) (fault : XcvrFault) (s : State) : Out :=
  done ((faultLines line fault).foldl (fun s i =>
    onLine s i (fun l =>
      match fault with
      | .dominant => { l with domNow := false }
      | .thermal => { l with thermNow := false }
      | .groupSupply => { l with gsupNow := false })) s)

/-- BUSDOM: the receiver saw the bus dominant for more than 1.0 ms; the latched bit is set and nothing is fenced (03 R105). -/
def execBusdom (line : Nat) (s : State) : Out :=
  let l := lineOf s line
  if s.clk.running && decide (line < 64) && l.state != 5 && !l.gsupNow then done (setLine s line { l with busdom := true }) else done s

/-- The fence of a line ends: its hold has run out, `left` boundaries before, and the transceiver reports no fault (03 R100). A FENCE_HOLD of 0 never runs out. -/
def holdOut (r : LineRec) (left : Nat) (l : Line) : Bool :=
  l.state == 4 && decide (l.fhold ≤ left) && r.fenceHold != 0 && !l.domNow && !l.thermNow && !l.gsupNow

/-- FENCE_HOLD_EXPIRY: at the next boundary, at which the hold of a fence runs out and the transceiver reports no fault, the line returns to INTEGRATING (03 R100, Table 3-9). A BOUNDARY that comes first does the same. -/
def execFenceHoldExpiry (line : Nat) (s : State) : Out :=
  match lineRec s line, s.clk.t0 with
  | some r, some t =>
    if inRun s && !s.ft.hwsafe && holdOut r 1 (lineOf s line) then
      done (integrate (advanceTo s (if s.clk.begun then boundaryNt s (s.clk.k + 1) else t)) line)
    else done s
  | _, _ => done s

/-- RECOVERY_WINDOW_EXPIRY: a bus-off leaves the recovery window after the cycles that the window spans (03 R100). -/
def execRecoveryWindowExpiry (line : Nat) (s : State) : Out :=
  match lineRec s line with
  | some r => done (onLine s line (fun l => { l with boffs := boffWindow r l }))
  | none => done s

/-! The raw buffer window (03 R96, R97). -/

/-- LBW_SEL_WRITE: line, page and bank are selected and NDAT is set (03 R97). -/
def selectBuffers (s : State) (value : Word) : State := { s with lbw := { s.lbw with sel := value &&& 0x1073F, ndat := true } }

/-- LBW_WATCH_WRITE: the watched buffer is set and NDAT cleared (03 R97). -/
def watchBuffer (s : State) (value : Word) : State := { s with lbw := { s.lbw with watch := value.toNat % 32, ndat := false } }

/-- LBW_SEL_WRITE (03 R97). -/
def execLbwSelWrite (value : Word) (s : State) : Out := whilePowered s (selectBuffers s value)

/-- LBW_WATCH_WRITE (03 R97). -/
def execLbwWatchWrite (value : Word) (s : State) : Out := whilePowered s (watchBuffer s value)

end Sys2Proof.Machine
end

