-- ==== Sys2Proof/Machine/Directory.lean ====
section
/-! DEFINITION. Unit, point, line and matrix commands, and MA_STATUS: the tables read back, forces and releases, unit and line service (13_command_reference Tables 13-6 to 13-8 and 13-16; 02 R54, R59, R69 to R75; 03 Table 3-9). -/
namespace Sys2Proof.Machine

/-! The tables as bytes. -/

/-- `count` records of section `i` of the network image, from record `first`; what lies beyond the section reads 0. -/
def sectionBytes (s : State) (i size first count : Nat) : Bytes :=
  let sec := netSection s.net.bytes i
  let all := slice s.net.bytes sec.1 sec.2
  slice all (size * first) (size * count)

/-- Records of 16 bytes of a section with their reserved bits 0 (00 R13). -/
def sectionFields (s : State) (i first count : Nat) (fields : List (Nat × Nat)) : Bytes :=
  (List.range count).flatMap (fun j => natLe 16 (keepFields fields (leNat (sectionBytes s i 16 (first + j) 1))))

/-- A point-image entry (01 Table 1-3). -/
def Entry.bytes (e : Entry) : Bytes := natLe 4 e.value.toNat ++ natLe 2 e.quality ++ natLe 2 e.age

/-- The unit descriptor of unit u: the image's fields, and the run-time fields as at the last boundary (02 Table 2-2). -/
def unitBytes (s : State) (u : Nat) : Bytes :=
  match s.net.image with
  | none => natLe 32 0
  | some n =>
    if n.units.length ≤ u then natLe 32 0
    else
      let r := runIn s.un.atBoundary u
      let x := keepFields unitFields (leNat (sectionBytes s 0 32 u 1))
      natLe 32 (x + 2 ^ 4 * b2n r.oosOwn + 2 ^ 5 * b2n r.oosInh + 2 ^ 160 * r.svcSince + 2 ^ 224 * stationState n r u)

/-- The entry of a point in an image as PT_READ shows it: unconfigured points are NOT_CONFIGURED once an image is loaded (02 R64). -/
def imageEntryOf (s : State) (m : NMap Entry) (p : Nat) : Entry :=
  match s.net.image with
  | some n => if (n.pointAt p).kind = 0 then Entry.none else getD Entry.reset m p
  | none => getD Entry.reset m p

/-- A station entry (13 Table 13-8). -/
def stationEntry (n : NetImage) (u : Nat) (r : UnitRun) : Bytes :=
  natLe 8 (u + 2 ^ 16 * (n.unitAt u).address + 2 ^ 24 * r.station + 2 ^ 28 * r.miss + 2 ^ 32 * r.good)

/-- The stations of a line in ascending address. -/
def stationsOf (n : NetImage) (line : Nat) : List Nat :=
  sortBy (fun u => (n.unitAt u).address) ((List.range n.units.length).filter (fun u => (n.unitAt u).typ == 1 && (n.unitAt u).line == line))

/-! Reads. -/

/-- UNIT_READ: unit descriptors as at the last boundary. -/
def execUnitRead (mb : Nat) (s : State) : Out :=
  runCommand s mb 0x0301 (fun b =>
    let first := b.arg0.toNat
    let n := b.arg1.toNat
    if n = 0 ∨ 16384 < first + n then refuse s mb stBadParameter
    else deliver s mb Reply.ok ((List.range n).flatMap (fun i => unitBytes s (first + i))) (mcc s))

/-- PT_READ: entries of the input or the output image of the current cycle. -/
def execPtRead (mb : Nat) (s : State) : Out :=
  runCommand s mb 0x0303 (fun b =>
    let first := b.arg0.toNat
    let n := b.arg1.toNat
    if n = 0 ∨ 262144 < first + n ∨ 1 < b.arg2.toNat then refuse s mb stBadParameter
    else
      let m := if b.arg2 = 0 then s.pt.input else s.pt.output
      deliver s mb Reply.ok ((List.range n).flatMap (fun i => (imageEntryOf s m (first + i)).bytes)) (mcc s))

/-- PT_DIR: point records (02 Table 2-7). -/
def execPtDir (mb : Nat) (s : State) : Out :=
  runCommand s mb 0x0304 (fun b =>
    let first := b.arg0.toNat
    let n := b.arg1.toNat
    if n = 0 ∨ 262144 < first + n then refuse s mb stBadParameter
    else deliver s mb Reply.ok (sectionFields s 2 first n pointFields) (mcc s))

/-- MX_READ: window entries of a line (04 Table 4-3). -/
def execMxRead (mb : Nat) (s : State) : Out :=
  runCommand s mb 0x0402 (fun b =>
    let first := b.arg1.toNat
    let n := b.arg2.toNat
    let r := (s.net.image.map (fun i => i.lineAt b.arg0.toNat)).map (fun r => (r.firstWindow, r.windowCount))
    let w := r.getD (0, 0)
    if 64 ≤ b.arg0.toNat ∨ n = 0 ∨ 2048 < n ∨ w.2 < first + n then refuse s mb stBadParameter
    else deliver s mb Reply.ok (sectionFields s 5 (w.1 + first) n windowFields) (mcc s))

/-- STN_READ: the stations of a line in ascending address (13 Table 13-8). -/
def execStnRead (mb : Nat) (s : State) : Out :=
  runCommand s mb 0x0403 (fun b =>
    if 64 ≤ b.arg0.toNat then refuse s mb stBadParameter
    else
      match s.net.image with
      | none => finish s mb { Reply.ok with res2 := mcc s }
      | some n =>
        let us := stationsOf n b.arg0.toNat
        finish s mb { Reply.ok with page := us.flatMap (fun u => stationEntry n u (unitRun s u)), res0 := us.length, res2 := mcc s })

/-! Forces (02 R69 to R72). -/

/-- The points that PT_RELEASE can name: those in effect and those that wait (notes/assumptions/47). -/
def releasable (s : State) : List Nat :=
  let waiting := ((s.pt.forceReq.filter (fun r => r.value.isSome)).map (fun r => r.point)).filter (fun p => (lookup s.pt.forces p).isNone)
  s.pt.forces.map (fun p => p.1) ++ (sortBy (fun p => p) waiting).foldl (fun acc p => if acc.contains p then acc else acc ++ [p]) []

/-- The boundary at which a request takes effect. -/
def nextCount (s : State) : Nat := wrap32 (mcc s + 1)

/-- A force or a release waits for its boundary. -/
def queueForces (s : State) (rs : List ForceReq) : State := { s with pt := { s.pt with forceReq := s.pt.forceReq ++ rs } }

/-- PT_FORCE (02 R69, R70). NO_SPACE looks at the forces in effect; a force on a point that is forced replaces its value and needs no place. -/
def execPtForce (mb : Nat) (s : State) : Out :=
  runCommand s mb 0x0310 (fun b =>
    let p := b.arg0.toNat
    match s.net.image with
    | none => refuse s mb stBadParameter
    | some n =>
      let r := n.pointAt p
      if r.kind = 0 ∨ r.kind = 4 ∨ (r.rangeMode ≠ 0 ∧ !inRange r.typ (n.paramOf r) b.arg1) then refuse s mb stBadParameter
      else if unitOut s r.unit then refuse s mb stNotPermitted
      else if (lookup s.pt.forces p).isNone ∧ 1024 ≤ s.pt.forces.length then refuse s mb stNoSpace
      else finish (queueForces s [{ point := p, value := some b.arg1 }]) mb { Reply.ok with res0 := nextCount s })

/-- PT_RELEASE (02 R69). -/
def execPtRelease (mb : Nat) (s : State) : Out :=
  runCommand s mb 0x0311 (fun b =>
    let ps := if b.arg0 = 0xFFFFFFFF then releasable s else (releasable s).filter (fun p => p == b.arg0.toNat)
    if b.arg0 ≠ 0xFFFFFFFF ∧ ps = [] then refuse s mb stBadParameter
    else finish (queueForces s (ps.map (fun p => { point := p, value := none }))) mb { Reply.ok with res0 := ps.length })

/-- PT_FORCES: the forces in effect, in ascending point ID. -/
def execPtForces (mb : Nat) (s : State) : Out :=
  runCommand s mb 0x0312 (fun _ =>
    deliver s mb { Reply.ok with res0 := s.pt.forces.length } (s.pt.forces.flatMap (fun p => natLe 4 p.1 ++ natLe 4 p.2.toNat)) (mcc s))

/-! Service (02 R73 to R75, 03 Table 3-9). -/

/-- UNIT_SERVICE: MA09 until the boundary of R73. -/
def execUnitService (mb : Nat) (s : State) : Out :=
  runCommand s mb 0x0302 (fun b =>
    let u := b.arg0.toNat
    let units := match s.net.image with | some n => n.units.length | none => 0
    if 1 < b.arg1.toNat ∨ (u ≠ 0 ∧ units ≤ u) then refuse s mb stBadParameter
    else if u = 0 then refuse s mb stNotPermitted
    else if collides s 9 u then refuse s mb stConflict
    else
      let s := maStart (accept s mb) 9 u
      { s with un := { s.un with requests := s.un.requests ++ [{ unit := u, out := b.arg1 == 1, mb := mb }] } })

/-- The requests of UNIT_SERVICE complete at their boundary, after the states have settled (13 Table 13-6). -/
def answerUnits (s : State) (rs : List UnitReq) : State :=
  rs.foldl (fun s r =>
    let u := unitRun s r.unit
    replyTo (maEnd s 9 r.unit stOk) r.mb { Reply.ok with res0 := b2n u.oosOwn + 2 * b2n u.oosInh, res1 := mcc s }) s

/-- LN_SERVICE: MA08 until the boundary at which 03 Table 3-9 takes effect. -/
def execLnService (mb : Nat) (s : State) : Out :=
  runCommand s mb 0x0401 (fun b =>
    let l := b.arg0.toNat
    if 1 < b.arg1.toNat ∨ 64 ≤ l ∨ (b.arg1 = 1 ∧ (lineRec s l).isNone) then refuse s mb stBadParameter
    else if collides s 8 l then refuse s mb stConflict
    else
      let s := maStart (accept s mb) 8 l
      { s with lnReq := s.lnReq ++ [{ line := l, online := b.arg1 == 1, mb := mb }] })

/-- The requests of LN_SERVICE of the mailboxes meant take effect at their boundary, in the order in which they were taken (12 R353). -/
def settleLines (s : State) (mine : Nat → Bool) : State :=
  (s.lnReq.filter (fun r => mine r.mb)).foldl (fun s r =>
    let s := if r.online then goOnline s r.line else goOffline s r.line
    replyTo (maEnd s 8 r.line stOk) r.mb { Reply.ok with res0 := (lineOf s r.line).state, res1 := mcc s })
    { s with lnReq := s.lnReq.filter (fun r => !mine r.mb) }

/-! Maintenance (19 R476). -/

/-- MA_STATUS: the activities that run, and the cycles replayed. -/
def execMaStatus (mb : Nat) (s : State) : Out :=
  runCommand s mb 0x0C01 (fun _ =>
    finish s mb { Reply.ok with res0 := packBits ((List.range 11).map (fun i => runs s (i + 1))), res1 := s.rp.count })

end Sys2Proof.Machine
end

