-- ==== Sys2Proof/Machine/ConfImage.lean ====
section
/-! DEFINITION. Configuration images: layout, checks, making one, the values of the parameters and their layers (15_retained_store R409 to R411, 10 Table 10-13, 11 Table 11-1, 19 R466, 13 R368). -/
namespace Sys2Proof.Machine

/-! Ranges of the parameters. -/

/-- A finite binary32 above 0. -/
def above0 (v : Word) : Bool := binary32.isFinite v.toNat && flt 0 v

/-- The number of bits set in the low `n` bits. -/
def popCount (n x : Nat) : Nat := ((List.range n).filter (bit x)).length

/-- The range of a parameter (10 Table 10-13, 11 Table 11-1, 19 R466; 0.01 is its nearest binary32). -/
def parInRange (p : Nat) (v : Word) : Bool :=
  let x := v.toNat
  if p = 0x0101 then decide (x ≤ 1)
  else if p < 0x0700 then false
  else if p ≤ 0x070B then x == 0
  else if p ≤ 0x072F then decide (x < 32) && x % 4 != 0 && decide (x / 4 ≤ 5)
  else if p ≤ 0x075F then above0 v
  else if p ≤ 0x076B then decide (x < 8)
  else if p ≤ 0x0777 then decide (x ≤ 10000)
  else if p = 0x0780 then decide (1 ≤ x ∧ x ≤ 3600)
  else if p = 0x0781 then x == 50 || x == 60
  else if p = 0x0782 then decide (10000 ≤ x ∧ x ≤ 500000)
  else if p = 0x0783 then
    decide (popCount 12 x ≤ 4) && bits x 12 4 == 0 && bits x 26 6 == 0 && decide (1 ≤ bits x 16 10 ∧ bits x 16 10 ≤ 720)
  else if p = 0x0784 then decide (1000 ≤ x ∧ x ≤ 100000)
  else if p < 0x0800 then false
  else if p < 0x0900 then
    match p % 8 with
    | 0 => decide (x < 1024) && bits x 1 2 != 3 && bits x 3 2 != 3
    | 4 | 5 => above0 v
    | 6 => fle 0x3C23D70A v && fle v 0x40400000
    | 7 => decide (1 ≤ bits x 4 6) && decide (100 ≤ bits x 16 16 ∧ bits x 16 16 ≤ 2500)
    | _ => true
  else false

/-! The image (15 Table 15-11). -/

/-- The entries of an image. -/
def confEntries (bs : Bytes) : List (Nat × Word) :=
  (List.range (leAt bs 0x10 4)).map (fun i => (leAt bs (64 + 8 * i) 2, word32At bs (64 + 8 * i + 4)))

/-- The rules of the header and of the entries, the MAC apart. -/
def confShape (bs : Bytes) : Bool :=
  leAt bs 0 4 == 0x43464751 && leAt bs 4 2 == 1 && leAt bs 6 2 == 0 && leAt bs 8 4 == 0x00030002 &&
  decide (leAt bs 0x10 4 ≤ 4096) && leAt bs 0x14 4 == 0xFFFFFFFF && leAt bs 0x18 8 == 0 && bs.length == 64 + 8 * leAt bs 0x10 4 &&
  rising ((confEntries bs).map (fun e => e.1)) &&
  (List.range (leAt bs 0x10 4)).all (fun i => leAt bs (64 + 8 * i + 2) 2 == 0) &&
  (confEntries bs).all (fun e => parDefined e.1 && parInRange e.1 e.2)

/-- The bytes that the MAC covers: INVALID and IMAGE_MAC taken as 0. -/
def confMacBytes (bs : Bytes) : Bytes := bs.take 0x14 ++ List.replicate 4 0 ++ slice bs 0x18 8 ++ List.replicate 32 0 ++ bs.drop 0x40

/-- The MAC of a configuration image verifies; it is not checked while key functions are disabled (17 R425). -/
def confMacOk (s : State) (bs : Bytes) : Bool :=
  if !keysOn s then true
  else match imageMacKey s with
    | none => false
    | some k => hmac k (confMacBytes bs) == slice bs 0x20 32

/-- A stored image is valid (15 R409). -/
def confValid (s : State) (bs : Bytes) : Bool := confShape bs && confMacOk s bs

/-- The value that an image's entries give a parameter, or its default. -/
def entryValue (es : List (Nat × Word)) (p : Nat) : Word := (lookup es p).getD (parDefault p)

/-- A heat channel in use: VOL_POINT is 0 with PULSE, and the points have the types of the table in the loaded network image (11 R317). -/
def heatPointsOk (net : Option NetImage) (es : List (Nat × Word)) (n : Nat) : Bool :=
  let w := fun j => (entryValue es (0x0800 + 8 * n + j)).toNat
  let src := bits (w 0) 3 2
  let typed := fun (p t : Nat) => match net with
    | some i => (i.pointAt p).kind != 0 && (i.pointAt p).typ == t
    | none => true
  !bit (w 0) 0 || ((src != 0 || w 3 == 0) && typed (w 1) 3 && typed (w 2) 3 && (src == 0 || typed (w 3) (if src = 1 then 2 else 3)))

/-- The checks of a configuration image's own chapters that need the loaded network image. -/
def confFits (net : Option NetImage) (bs : Bytes) : Bool := (List.range 32).all (heatPointsOk net (confEntries bs))

/-- An image as it comes into force. -/
def confOf (slot : Nat) (bs : Bytes) : Conf :=
  { slot := slot, seq := leAt bs 0xC 4, entries := (confEntries bs).foldl (fun (m : NMap Word) e => insertAt m e.1 e.2) [], header := slice bs 0 64 }

/-- The key of a MAC that the firmware makes: 32 zero bytes where no key serves (17 R425, R432). -/
def makeMacKey (s : State) : Bytes := (imageMacKey s).getD (List.replicate 32 0)

/-- An image made of entries under a sequence number. -/
def makeConf (s : State) (seq : Nat) (es : List (Nat × Word)) : Bytes :=
  let body := es.flatMap (fun e => natLe 2 e.1 ++ [0, 0] ++ natLe 4 e.2.toNat)
  let head := natLe 4 0x43464751 ++ natLe 2 1 ++ natLe 2 0 ++ natLe 4 0x00030002 ++ natLe 4 seq ++ natLe 4 es.length ++ natLe 4 0xFFFFFFFF ++ natLe 8 0
  let raw := head ++ List.replicate 32 0 ++ body
  head ++ hmac (makeMacKey s) (confMacBytes raw) ++ body

/-! The flash slots A and B: places 16 and 17. -/

/-- A flash slot's image, if it is valid. -/
def confSlot (s : State) (i : Nat) : Option Bytes :=
  match lookup s.im.flash (16 + i) with
  | some b => if confValid s b then some b else none
  | none => none

/-- The flash slot that holds the newest valid image, with its sequence number (15 R410). -/
def newestConf (s : State) : Option (Nat × Nat) :=
  match confSlot s 0, confSlot s 1 with
  | some a, some b => if leAt a 0xC 4 < leAt b 0xC 4 then some (1, leAt b 0xC 4) else some (0, leAt a 0xC 4)
  | some a, none => some (0, leAt a 0xC 4)
  | none, some b => some (1, leAt b 0xC 4)
  | none, none => none

/-- The newest sequence number; 0 where no slot holds a valid image. -/
def newestSeq (s : State) : Nat := match newestConf s with | some x => x.2 | none => 0

/-- The slot that a new image is written to (13 R368). -/
def writeSlot (s : State) : Nat := match newestConf s with | some x => 1 - x.1 | none => 0

/-! The parameters of metering and heat (10 R315, 11 R317). -/

/-- Numbers of the metering parameters. -/
def meterPars : List Nat := (List.range 0x78).map (· + 0x0700) ++ (List.range 5).map (· + 0x0780)

/-- Numbers of the heat parameters. -/
def heatPars : List Nat := (List.range 256).map (· + 0x0800)

/-- The values of parameters by the configuration image in force. -/
def confTable (s : State) (ps : List Nat) : NMap Word := ps.map (fun p => (p, confValue s p))

/-- A configuration image comes into force: the runtime layer is emptied, heat parameters change, metering parameters wait for their tick end and count a calibration (10 R308, R315, 11 R317, 15 R411). -/
def putConf (s : State) (c : Conf) : State :=
  let s := { s with pa := { s.pa with runtime := [], discard := [], conf := some c } }
  let s := if confTable s meterPars = s.pa.meter then s else requestInc { s with pa := { s.pa with meterNew := true } } 0 .plain
  if confTable s heatPars = s.pa.heat then s
  else clearBaselines { s with pa := { s.pa with heat := confTable s heatPars } }

/-- An image is written to its flash slot and counted (15 Table 15-6). -/
def flashConf (s : State) (slot : Option Nat) (bs : Bytes) : State :=
  match slot with
  | some i => requestInc { s with im := { s.im with flash := insertAt s.im.flash (16 + i) bs } } 5 .plain
  | none => s

/-- The CONFIG load that waits, of the mailboxes meant, applies (13 R370). -/
def applyConfig (s : State) (mine : Nat → Bool) : State :=
  match s.im.cfgLoad.filter (fun c => mine c.mb) with
  | none => s
  | some c =>
    let s := flashConf { s with im := { s.im with cfgLoad := none } } c.slot c.bytes
    let s := noteExc (putConf s (confOf (c.slot.getD 2) c.bytes)) 5
    replyTo (maEnd s 4 0 stOk) c.mb { Reply.ok with res0 := c.slot.getD 0, res1 := mcc s }

/-- The entries of the image in force with every runtime change (13 R368). -/
def committedEntries (s : State) : List (Nat × Word) :=
  let base := match s.pa.conf with | some c => c.entries | none => []
  s.pa.runtime.foldl (fun (m : NMap Word) e => insertAt m e.1 e.2) base

/-- CFG_COMMIT completes: the image, which takes in every runtime change, is written to its slot and in force, and the runtime layer is empty (13 R368, 15 R411). The cycle is marked MAINTENANCE (01 R43, 19 R480). -/
def commitConfig (s : State) : State :=
  match s.im.cfgCommit with
  | none => s
  | some slot =>
    let bs := makeConf s (newestSeq s + 1) (committedEntries s)
    let s := flashConf { s with im := { s.im with cfgCommit := none } } (some slot) bs
    noteExc (putConf s (confOf slot bs)) 5

/-- The selection of the image in force at start-up (15 Table 15-12): row 3 marks B invalid and raises a WARN. -/
def selectConfig (s : State) : State :=
  match confSlot s 0, confSlot s 1 with
  | some a, some b =>
    let sa := leAt a 0xC 4
    let sb := leAt b 0xC 4
    if sa = sb then
      if a = b then inForce s 0 a
      else
        let s := inForce s 0 a
        raiseFault { s with im := { s.im with flash := insertAt s.im.flash 17 (b.take 0x14 ++ List.replicate 4 0 ++ b.drop 0x18) } } 0x01A2 2 7 [word sa]
    else if sa < sb then inForce s 1 b
    else inForce s 0 a
  | some a, none => inForce s 0 a
  | none, some b => inForce s 1 b
  | none, none => setTables { s with pa := { s.pa with conf := none } }
where
  setTables (s : State) : State := { s with pa := { s.pa with meter := confTable s meterPars, heat := confTable s heatPars, meterNew := false } }
  inForce (s : State) (slot : Nat) (bs : Bytes) : State := setTables { s with pa := { s.pa with conf := some (confOf slot bs) } }

end Sys2Proof.Machine
end

