-- ==== Sys2Proof/Machine/Logic.lean ====
section
/-! DEFINITION. The logic and selection blocks, the edges, timers, counters, RAMP and RATE (06_block_library R175 to R178). -/
namespace Sys2Proof.Machine

/-- A BOOL input. -/
def Ctx.flag (c : Ctx) (i : Nat) : Bool := (c.input i).value.getLsbD 0

/-- CMP: the operators of Table 6-8. -/
def cmpBlock (c : Ctx) : BlkOut :=
  let a := (c.input 0).value
  let b := (c.input 1).value
  let eq := if c.typ = 3 then feq a b else intOf c.typ a == intOf c.typ b
  let lt := if c.typ = 3 then flt a b else decide (intOf c.typ a < intOf c.typ b)
  let gt := if c.typ = 3 then flt b a else decide (intOf c.typ b < intOf c.typ a)
  let r := match (c.param 0).toNat with
    | 0 => eq
    | 1 => !eq
    | 2 => lt
    | 3 => lt || eq
    | 4 => gt
    | _ => gt || eq
  BlkOut.of [outBool (quals (c.first_ 2)) r]

/-- AND, OR and XOR: bitwise over the inputs read. -/
def bitBlock (f : Word → Word → Word) (c : Ctx) : BlkOut :=
  let xs := c.first_ (c.param 0).toNat
  BlkOut.of [outWord (quals xs) (foldFloat f xs) false false]

/-- NOT. -/
def notBlock (c : Ctx) : BlkOut :=
  let a := (c.input 0).value
  BlkOut.of [outWord (quals (c.first_ 1)) (if c.typ = 0 then a ^^^ 1 else ~~~a) false false]

/-- SEL: IN1 when G = 1, otherwise IN0; quality over G and the selected input. -/
def selBlock (c : Ctx) : BlkOut :=
  let x := if c.flag 0 then c.input 2 else c.input 1
  BlkOut.of [outWord [(c.input 0).quality, x.quality] x.value false false]

/-- MUX: IN(K), for K ≥ N IN(N−1) with LIMIT. -/
def muxBlock (c : Ctx) : BlkOut :=
  let n := (c.param 0).toNat
  let k := (c.input 0).value.toNat
  let x := c.input (1 + Nat.min k (n - 1))
  BlkOut.of [outWord [(c.input 0).quality, x.quality] x.value (decide (n ≤ k)) false]

/-- SR: set dominant. -/
def srBlock (c : Ctx) : BlkOut :=
  BlkOut.of [outBool (quals (c.first_ 2)) (c.flag 0 || ((c.held 0).getLsbD 0 && !c.flag 1))]

/-- RS: reset dominant. -/
def rsBlock (c : Ctx) : BlkOut :=
  BlkOut.of [outBool (quals (c.first_ 2)) (!c.flag 1 && (c.flag 0 || (c.held 0).getLsbD 0))]

/-- BITGET. -/
def bitgetBlock (c : Ctx) : BlkOut :=
  BlkOut.of [outBool (quals (c.first_ 1)) (bit (c.input 0).value.toNat (c.param 0).toNat)]

/-- BITSET. -/
def bitsetBlock (c : Ctx) : BlkOut :=
  BlkOut.of [outWord (quals (c.first_ 2)) (word (setBit (c.input 0).value.toNat (c.param 0).toNat (c.flag 1))) false false]

/-! Edges. -/

/-- The previous input of an edge: the current one in the first execution (06 R171). -/
def Ctx.before (c : Ctx) (bitNo : Nat) (current : Bool) : Bool := if c.first then current else (nth 0 c.spec 0).getLsbD bitNo

/-- RTRIG: with FIRST = 1 the first execution takes a previous CLK of 0. -/
def rtrigBlock (c : Ctx) : BlkOut :=
  let clk := c.flag 0
  let was := if c.first && c.param 0 == 1 then false else c.before 0 clk
  { BlkOut.of [outBool (quals (c.first_ 1)) (clk && !was)] with spec := [word (b2n clk), 0] }

/-- FTRIG: with FIRST = 1 the first execution takes a previous CLK of 1. -/
def ftrigBlock (c : Ctx) : BlkOut :=
  let clk := c.flag 0
  let was := if c.first && c.param 0 == 1 then true else c.before 0 clk
  { BlkOut.of [outBool (quals (c.first_ 1)) (!clk && was)] with spec := [word (b2n clk), 0] }

/-! Timers (06 R177). Words 0 and 1 of the specific state hold elapsed, word 2 run and prev (notes/assumptions/27). -/

/-- The block state of a timer. -/
structure Timer where
  run : Bool
  prev : Bool
  elapsed : Nat

/-- The timer as an instance holds it. -/
def Ctx.timer (c : Ctx) : Timer :=
  { elapsed := (nth 0 c.spec 0).toNat + 2 ^ 32 * (nth 0 c.spec 1).toNat
    run := (nth 0 c.spec 2).getLsbD 0, prev := (nth 0 c.spec 2).getLsbD 1 }

/-- The timer as words. -/
def Timer.words (t : Timer) : List Word :=
  [word (t.elapsed % 2 ^ 32), word (t.elapsed / 2 ^ 32), word (b2n t.run + 2 * b2n t.prev), 0]

/-- Elapsed time is added, saturating at 2^64 − 1 (06 R176). -/
def Timer.pass (t : Timer) (dt : Nat) : Timer := { t with elapsed := satAdd 64 t.elapsed dt }

/-- TON: the new state, Q and NP. -/
def tonStep (t : Timer) (on cyclic : Bool) (pt dt : Nat) : Timer × Bool × Nat :=
  if !on then ({ t with run := false, elapsed := 0 }, false, 0)
  else
    let t := if t.run then t.pass dt else { t with run := true, elapsed := 0 }
    if !cyclic then (t, decide (pt ≤ t.elapsed), 0)
    else if pt = 0 then (t, true, 0)
    else (Timer.mk t.run t.prev (t.elapsed % pt), decide (pt ≤ t.elapsed), t.elapsed / pt)

/-- TOF: the new state and Q. -/
def tofStep (t : Timer) (q on : Bool) (pt dt : Nat) : Timer × Bool :=
  if on then ({ t with run := false, elapsed := 0 }, true)
  else
    let t := if t.run then t.pass dt else if q then { t with run := true, elapsed := 0 } else t
    if t.run && decide (pt ≤ t.elapsed) then ({ t with run := false }, false) else (t, q)

/-- TP: the new state; Q is run. -/
def tpStep (t : Timer) (on : Bool) (pt dt : Nat) : Timer :=
  let t := if t.run then t.pass dt else t
  let t := if !t.run && on && !t.prev then { t with run := true, elapsed := 0 } else t
  let t := if t.run && decide (pt ≤ t.elapsed) then { t with run := false } else t
  let t := if !t.run && !on then { t with elapsed := 0 } else t
  { t with prev := on }

/-- TON. -/
def tonBlock (c : Ctx) : BlkOut :=
  let qs := quals (c.first_ 2)
  let pt := (c.input 1).value.toNat
  let r := tonStep c.timer (c.flag 0) (c.param 0 == 1) pt c.dt
  let np := satWord 2 r.2.2
  { BlkOut.of [outBool qs r.2.1, outWord qs (word (Nat.min r.1.elapsed pt)) false false, outWord qs np.1 np.2 false] with
    spec := r.1.words }

/-- TOF. -/
def tofBlock (c : Ctx) : BlkOut :=
  let qs := quals (c.first_ 2)
  let pt := (c.input 1).value.toNat
  let r := tofStep c.timer ((c.held 0).getLsbD 0) (c.flag 0) pt c.dt
  { BlkOut.of [outBool qs r.2, outWord qs (word (Nat.min r.1.elapsed pt)) false false] with spec := r.1.words }

/-- TP; in the first execution the previous input is the current one. -/
def tpBlock (c : Ctx) : BlkOut :=
  let qs := quals (c.first_ 2)
  let pt := (c.input 1).value.toNat
  let on := c.flag 0
  let t := c.timer
  let r := tpStep { t with prev := if c.first then on else t.prev } on pt c.dt
  { BlkOut.of [outBool qs r.run, outWord qs (word (Nat.min r.elapsed pt)) false false] with spec := r.words }

/-- TON_L: TON in ms. -/
def tonLBlock (c : Ctx) : BlkOut :=
  let qs := quals (c.first_ 2)
  let pt := (c.input 1).value.toNat * 1000
  let r := tonStep c.timer (c.flag 0) false pt c.dt
  { BlkOut.of [outBool qs r.2.1, outWord qs (word (Nat.min r.1.elapsed pt / 1000)) false false] with spec := r.1.words }

/-! Counters (06 R178). -/

/-- The signed number of a word. -/
def sint (v : Word) : Int := toSigned 32 v.toNat

/-- CTU. -/
def ctuBlock (c : Ctx) : BlkOut :=
  let qs := quals (c.first_ 3)
  let edge := c.flag 0 && !c.before 0 (c.flag 0)
  let cv := if c.flag 1 then (0, false) else satWord 1 (sint (c.held 1) + b2n edge)
  { BlkOut.of [outBool qs (decide (sint (c.input 2).value ≤ sint cv.1)), outWord qs cv.1 cv.2 false] with
    spec := [word (b2n (c.flag 0)), 0] }

/-- CTD. -/
def ctdBlock (c : Ctx) : BlkOut :=
  let qs := quals (c.first_ 3)
  let edge := c.flag 0 && !c.before 0 (c.flag 0)
  let cv := if c.flag 1 then ((c.input 2).value, false) else satWord 1 (sint (c.held 1) - b2n edge)
  { BlkOut.of [outBool qs (decide (sint cv.1 ≤ 0)), outWord qs cv.1 cv.2 false] with spec := [word (b2n (c.flag 0)), 0] }

/-- CTUD: RST before LD before the edges. -/
def ctudBlock (c : Ctx) : BlkOut :=
  let qs := quals (c.first_ 5)
  let up := c.flag 0 && !c.before 0 (c.flag 0)
  let down := c.flag 1 && !c.before 1 (c.flag 1)
  let pv := (c.input 4).value
  let cv :=
    if c.flag 2 then (0, false)
    else if c.flag 3 then (pv, false)
    else satWord 1 (sint (c.held 2) + b2n up - b2n down)
  { BlkOut.of [outBool qs (decide (sint pv ≤ sint cv.1)), outBool qs (decide (sint cv.1 ≤ 0)), outWord qs cv.1 cv.2 false] with
    spec := [word (b2n (c.flag 0) + 2 * b2n (c.flag 1)), 0] }

/-! RAMP and RATE. -/

/-- The time step in seconds (06 R170). -/
def Ctx.dts (c : Ctx) : Word := fmul (fofInt c.dt) 0x358637BD

/-- A block holds: outputs keep their values, the Q rule applies, and a first execution is not completed (06 R171, R179). -/
def Ctx.hold (c : Ctx) (qs : List Nat) : BlkOut :=
  { outs := c.prev.map (fun x => outWord qs x.value false false), spec := c.spec, held := true, trig := c.trig }

/-- The next output of RAMP. -/
def rampNext (out x rup rdn dts : Word) : Word :=
  if flt out x then (if feq rup 0 then x else fmin (fadd out (fmul rup dts)) x)
  else if flt x out then (if feq rdn 0 then x else fmax (fsub out (fmul rdn dts)) x)
  else out

/-- RAMP. -/
def rampBlock (c : Ctx) : BlkOut :=
  let qs := quals (c.first_ 1)
  let x := (c.input 0).value
  if !usableSig true (c.input 0) then c.hold qs
  else
    let out := if c.first then x else rampNext (c.held 0) x (c.param 0) (c.param 1) c.dts
    BlkOut.of [outFloat qs out false false, outBool qs (!feq out x)]

/-- RATE: the word PREV is the specific state. -/
def rateBlock (c : Ctx) : BlkOut :=
  let x := (c.input 0).value
  let dts := c.dts
  let out := if feq dts 0 then 0 else fdiv (fsub x (nth 0 c.spec 0)) dts
  { BlkOut.of [outFloat (quals (c.first_ 1)) out false false] with spec := [x, 0] }

/-! Meanings. -/

/-- CMP (06 Table 6-8). -/
def execCmp (core : Nat) (s : State) : Out := runBlock s core 0x10 cmpBlock

/-- AND (06 Table 6-8). -/
def execAnd (core : Nat) (s : State) : Out := runBlock s core 0x11 (bitBlock (· &&& ·))

/-- OR (06 Table 6-8). -/
def execOr (core : Nat) (s : State) : Out := runBlock s core 0x12 (bitBlock (· ||| ·))

/-- XOR (06 Table 6-8). -/
def execXor (core : Nat) (s : State) : Out := runBlock s core 0x13 (bitBlock (· ^^^ ·))

/-- NOT (06 Table 6-8). -/
def execNot (core : Nat) (s : State) : Out := runBlock s core 0x14 notBlock

/-- SEL (06 Table 6-8). -/
def execSel (core : Nat) (s : State) : Out := runBlock s core 0x15 selBlock

/-- MUX (06 Table 6-8). -/
def execMux (core : Nat) (s : State) : Out := runBlock s core 0x16 muxBlock

/-- SR (06 Table 6-8). -/
def execSr (core : Nat) (s : State) : Out := runBlock s core 0x17 srBlock

/-- RS (06 Table 6-8). -/
def execRs (core : Nat) (s : State) : Out := runBlock s core 0x18 rsBlock

/-- BITGET (06 Table 6-8). -/
def execBitget (core : Nat) (s : State) : Out := runBlock s core 0x19 bitgetBlock

/-- BITSET (06 Table 6-8). -/
def execBitset (core : Nat) (s : State) : Out := runBlock s core 0x1A bitsetBlock

/-- RTRIG (06 Table 6-9). -/
def execRtrig (core : Nat) (s : State) : Out := runBlock s core 0x20 rtrigBlock

/-- FTRIG (06 Table 6-9). -/
def execFtrig (core : Nat) (s : State) : Out := runBlock s core 0x21 ftrigBlock

/-- TON (06 R177). -/
def execTon (core : Nat) (s : State) : Out := runBlock s core 0x22 tonBlock

/-- TOF (06 R177). -/
def execTof (core : Nat) (s : State) : Out := runBlock s core 0x23 tofBlock

/-- TP (06 R177). -/
def execTp (core : Nat) (s : State) : Out := runBlock s core 0x24 tpBlock

/-- TON_L (06 Table 6-9). -/
def execTonL (core : Nat) (s : State) : Out := runBlock s core 0x25 tonLBlock

/-- CTU (06 R178). -/
def execCtu (core : Nat) (s : State) : Out := runBlock s core 0x26 ctuBlock

/-- CTD (06 R178). -/
def execCtd (core : Nat) (s : State) : Out := runBlock s core 0x27 ctdBlock

/-- CTUD (06 R178). -/
def execCtud (core : Nat) (s : State) : Out := runBlock s core 0x28 ctudBlock

/-- RAMP (06 Table 6-9). -/
def execRamp (core : Nat) (s : State) : Out := runBlock s core 0x29 rampBlock

/-- RATE (06 Table 6-9). -/
def execRate (core : Nat) (s : State) : Out := runBlock s core 0x2A rateBlock

end Sys2Proof.Machine
end

