-- ==== Sys2Proof/Machine/Control.lean ====
section
/-! DEFINITION. The control blocks in binary32 (06_block_library R179 to R183). -/
namespace Sys2Proof.Machine

/-- A parameter that is not 0. -/
def positive (v : Word) : Bool := flt 0 v

/-- The state and results of one execution of PID. -/
structure PidOut where
  out : Word
  e : Word
  sat : Bool
  limit : Bool
  i : Word
  d : Word

/-- The integral of an automatic execution: conditional integration (06 R180). -/
def pidIntegral (c : Ctx) (e p d ff i : Word) : Word :=
  let ic := fadd i (fmul (fdiv (fmul (c.param 0) c.dts) (c.param 1)) e)
  let u := fadd (fadd (fadd p ic) d) ff
  if (flt (c.param 5) u && flt 0 e) || (flt u (c.param 4) && flt e 0) then i else ic

/-- The derivative: a first-order filter on PV (06 R180). -/
def pidDerivative (c : Ctx) (dpv : Word) : Word :=
  if !positive (c.param 2) || c.first then 0
  else
    let den := fadd (c.param 3) c.dts
    fadd (fmul (fdiv (c.param 3) den) (nth 0 c.spec 1)) (fmul (fdiv (fmul (c.param 0) (c.param 2)) den) dpv)

/-- One execution of PID that does not hold (06 R180): the specific state holds i, d and pv_prev. -/
def pidStep (c : Ctx) : PidOut :=
  let sp := (c.input 0).value
  let pv := (c.input 1).value
  let ff := (c.input 2).value
  let was := nth 0 c.spec 2
  let rev := c.param 7 == 1
  let e := if rev then fsub pv sp else fsub sp pv
  let d := pidDerivative c (if rev then fsub pv was else fsub was pv)
  let p := fmul (c.param 0) e
  let i := if c.first then fsub (fsub (c.param 6) p) ff else nth 0 c.spec 0
  let clamp := fun (x : Word) => fmin (fmax x (c.param 4)) (c.param 5)
  if c.flag 3 then
    let mv := (c.input 4).value
    let out := clamp mv
    { out := out, e := e, sat := false, limit := !feq out mv, i := fsub (fsub (fsub out p) d) ff, d := d }
  else
    let i := if !c.first && positive (c.param 1) then pidIntegral c e p d ff i else i
    let u := fadd (fadd (fadd p i) d) ff
    let out := clamp u
    { out := out, e := e, sat := !feq out u, limit := !feq out u, i := i, d := d }

/-- PID: it holds while SP, PV or FF is not usable, or MV is a NaN with MAN = 1. -/
def pidBlock (c : Ctx) : BlkOut :=
  let man := c.flag 3
  let qs := quals (c.first_ (if man then 5 else 3))
  if !(c.first_ 3).all (usableSig true) || (man && fnan (c.input 4).value) then c.hold qs
  else
    let r := pidStep c
    { BlkOut.of [outFloat qs r.out r.limit false, outFloat qs r.e false false, outBool qs r.sat] with
      spec := [r.i, r.d, (c.input 1).value, 0] }

/-- One step of a PT1 (06 Table 6-11). -/
def pt1Step (first : Bool) (out x t dts : Word) : Word :=
  if first || feq t 0 then x else fadd out (fdiv (fmul (fsub x out) dts) (fadd t dts))

/-- PT1. -/
def pt1Block (c : Ctx) : BlkOut :=
  let qs := quals (c.first_ 1)
  if !usableSig true (c.input 0) then c.hold qs
  else BlkOut.of [outFloat qs (pt1Step c.first (c.held 0) (c.input 0).value (c.param 0) c.dts) false false]

/-- DEADBAND: a NaN lies outside the band (notes/assumptions/27). -/
def deadbandBlock (c : Ctx) : BlkOut :=
  let x := (c.input 0).value
  let w := c.param 0
  let out :=
    if fle (fabs x) w then 0
    else if c.param 1 == 1 then x
    else if flt x 0 then fadd x w
    else fsub x w
  BlkOut.of [outFloat (quals (c.first_ 1)) out false false]

/-- HYST. -/
def hystBlock (c : Ctx) : BlkOut :=
  let x := (c.input 0).value
  let q := if flt (c.param 1) x then true else if flt x (c.param 0) then false else (c.held 0).getLsbD 0
  BlkOut.of [outBool (quals (c.first_ 1)) q]

/-- The segment of a curve for a value above its first x: the pair at the largest i with xi ≤ IN, and the next. -/
def curveSegment (ps : List (Word × Word)) (x : Word) : Option ((Word × Word) × (Word × Word)) :=
  (ps.zip (ps.drop 1)).find? (fun q => flt x q.2.1)

/-- A curve evaluated, and whether IN lies outside it (06 R181). -/
def curveValue (ps : List (Word × Word)) (x : Word) : Word × Bool :=
  let lo := nth (0, 0) ps 0
  let hi := nth (0, 0) ps (ps.length - 1)
  if fnan x then (nan32, false)
  else if fle x lo.1 then (lo.2, flt x lo.1)
  else
    match curveSegment ps x with
    | some (a, b) => (fadd a.2 (fdiv (fmul (fsub x a.1) (fsub b.2 a.2)) (fsub b.1 a.1)), false)
    | none => (hi.2, flt hi.1 x)

/-- The curve table of an instance. -/
def Ctx.curve (c : Ctx) : List (Word × Word) := (curveAt c.prog.curves (c.param 0).toNat).getD []

/-- CURVE. -/
def curveBlock (c : Ctx) : BlkOut :=
  let r := curveValue c.curve (c.input 0).value
  BlkOut.of [outFloat (quals (c.first_ 1)) r.1 r.2 false]

/-- HEATCURVE (06 R182); LIMIT where the curve or the clamp limits (notes/assumptions/27). -/
def heatcurveBlock (c : Ctx) : BlkOut :=
  let qs := quals (c.first_ 2)
  let ta := usableSig true (c.input 0)
  if c.first && !ta then c.hold qs
  else
    let taf := if ta then pt1Step c.first (c.held 2) (c.input 0).value (c.param 1) c.dts else c.held 2
    let cv := curveValue c.curve taf
    let raw := fadd cv.1 (c.input 1).value
    let clamped := fmin (fmax raw (c.param 2)) (c.param 3)
    let shift := usableSig true (c.input 1)
    let tsup := if shift then clamped else c.held 0
    let lim := shift && (cv.2 || (!fnan raw && !feq clamped raw))
    let was := (c.held 1).getLsbD 0
    let heat :=
      if c.first then flt taf (c.param 4)
      else if fle (c.param 4) taf then false
      else if fle taf (fsub (c.param 4) (c.param 5)) then true
      else was
    BlkOut.of [outFloat qs tsup lim false, outBool qs heat, outFloat qs taf false false]

/-- A percentage clamped to 0 to 100. -/
def clampPercent (x : Word) : Word := fmin (fmax x 0) (fofInt 100)

/-- SPLIT. -/
def splitBlock (c : Ctx) : BlkOut :=
  let x := (c.input 0).value
  let bp := c.param 0
  let full := fofInt 100
  let a := clampPercent (fdiv (fmul x full) bp)
  let a := if c.param 1 == 1 then fsub full a else a
  let b := clampPercent (fdiv (fmul (fsub x bp) full) (fsub full bp))
  let lim := flt x 0 || flt full x
  let qs := quals (c.first_ 1)
  BlkOut.of [outFloat qs a lim false, outFloat qs b lim false]

/-- The increment of TOTAL from x in counts, saturated; an infinite IN times a DT of 0 gives no number, and `free` in its place (06 R183; notes/assumptions/27). -/
def totalStep (free : Word) (x : Word) : Int :=
  match binary32.unpack x.toNat with
  | .nan => sint free
  | .inf neg => if neg then -(2 ^ 64) else 2 ^ 64
  | .num neg m e => roundPow2 neg m e

/-- TOTAL: ACC, a signed 64-bit count of 2^−16 units, is the specific state (06 R183). -/
def totalBlock (c : Ctx) : BlkOut :=
  let x := c.input 0
  let ok := usableSig true x
  let rst := c.flag 1
  let acc := toSigned 64 ((nth 0 c.spec 0).toNat + 2 ^ 32 * (nth 0 c.spec 1).toNat)
  let counts := !rst && ok && !(c.param 0 == 1 && flt x.value 0)
  let inc := totalStep (Config.openIncrement x.value c.dt) (fmul (fdiv (fmul x.value c.dts) (fofInt 3600)) (fofInt 65536))
  let top : Int := 2 ^ 63 - 1
  let sum := acc + inc
  let new := if rst then 0 else if counts then clampInt (-top) top sum else acc
  let lim := counts && new != sum
  let gap := if rst then (0, false) else satWord 2 ((c.held 2).toNat + b2n (!ok))
  let toti := satWord 1 (Int.tdiv new 65536)
  let qs := [x.quality]
  let bits := ofSigned 64 new
  { BlkOut.of
      [outFloat qs (word (binary32.ofInt new (-16))) lim false, outWord qs toti.1 (lim || toti.2) false, outWord [] gap.1 gap.2 false] with
    spec := [word (bits % 2 ^ 32), word (bits / 2 ^ 32)] }

/-! Meanings. -/

/-- PID (06 R180). -/
def execPid (core : Nat) (s : State) : Out := runBlock s core 0x30 pidBlock

/-- PT1 (06 Table 6-11). -/
def execPt1 (core : Nat) (s : State) : Out := runBlock s core 0x31 pt1Block

/-- DEADBAND (06 Table 6-11). -/
def execDeadband (core : Nat) (s : State) : Out := runBlock s core 0x32 deadbandBlock

/-- HYST (06 Table 6-11). -/
def execHyst (core : Nat) (s : State) : Out := runBlock s core 0x33 hystBlock

/-- CURVE (06 R181). -/
def execCurve (core : Nat) (s : State) : Out := runBlock s core 0x34 curveBlock

/-- HEATCURVE (06 R182). -/
def execHeatcurve (core : Nat) (s : State) : Out := runBlock s core 0x35 heatcurveBlock

/-- SPLIT (06 Table 6-11). -/
def execSplit (core : Nat) (s : State) : Out := runBlock s core 0x36 splitBlock

/-- TOTAL (06 R183). -/
def execTotal (core : Nat) (s : State) : Out := runBlock s core 0x37 totalBlock

end Sys2Proof.Machine
end

