-- ==== Sys2Proof/Machine/RecorderRows.lean ====
section
/-! DEFINITION. The recorder as commands, the register window and the ring writer use it; its start (18_event_recorder R448 to R459, 13 Table 13-15). -/
namespace Sys2Proof.Machine

/-- The records of the excerpt in the working pages, ascending in SEQ, as 64 bytes each; an empty place has CODE 0 (18 R459). -/
def excerptRecords (s : State) : List Bytes :=
  let all := (List.range 16).flatMap (fun p =>
    let page := readSpan s.rs.work (pageBase (48 + p)) 8192
    (List.range 128).map (fun i => slice page (64 * i) 64))
  sortBy (fun r => leAt r 0 8) (all.filter (fun r => leAt r 0x14 2 != 0))

/-- The excerpt index at start: one more than the place of the record with the highest SEQ, or 0 (18 R459). -/
def excerptIndex (s : State) : Nat :=
  let places := (List.range 2048).map (fun i =>
    (i, readBytes s.rs.work (pageBase (excerptPage i) + 64 * (i % 128)) 64))
  let held := places.filter (fun p => leAt p.2 0x14 2 != 0)
  match held with
  | [] => 0
  | h :: t => (t.foldl (fun a b => if leAt a.2 0 8 < leAt b.2 0 8 then b else a) h).1 + 1

/-- The recorder starts: FIRSTSEQ from counter 7, which is incremented at once; without grants where it has failed (18 R452). -/
def startRecorder (s : State) : State :=
  let x := excerptIndex s
  if ctrRefuses s 7 then
    let top := maxOf ((excerptRecords s).map (fun r => leAt r 0 8))
    let first := (if (excerptRecords s).isEmpty then 0 else top) + 2 ^ 32
    let s := { s with ev := { s.ev with new := first, firstSeq := first, cursor := first, free := true, started := true, index := x } }
    requestInc s 7 .recorder
  else
    let first := (ctrValue s 7 + 1) * 65536
    let s := { s with ev := { s.ev with new := first, firstSeq := first, cursor := first, started := true, index := x } }
    requestInc s 7 .recorder

/-- The recorder writes: it has started, and the module is not in the hardware safe state (18 R452, 09 R278). -/
def recorderRuns (s : State) : Bool := s.clk.running && !s.ft.hwsafe

/-! Registers (18 Tables 18-7 and 18-8). -/

/-- EVR_STAT. -/
def evrStat (e : Ev) : Nat := b2n e.ovw + 2 * b2n (e.cursor == e.new) + 4 * b2n e.ntf + 8 * b2n (evrCond e)

/-- A word of EVR_REC: the record at the cursor, 0 while NONE is set (18 Table 18-7). -/
def evrRec (e : Ev) (off : Nat) : Nat :=
  match e.recordAt e.cursor with
  | some r => if e.cursor = e.new then 0 else leAt r.bytes off 4
  | none => 0

/-- An access that ends the notification condition is a clear of its source (12 R345, 18 R458). -/
def evrCleared (was s : State) : State := if evrCond was.ev && !evrCond s.ev then resendGroup s 4 else s

/-- EVR_CUR_LO reads the word written and held, until EVR_CUR_HI is written or the cursor has moved since (18 Table 18-7, 00 R14). -/
def evrCurLo (e : Ev) : Nat := if e.heldAt = some e.cursor then e.held else e.cursor % 2 ^ 32

/-- A write of EVR_CUR_HI loads the cursor with the held low word (18 R456). -/
def loadCursorHi (s : State) (value : Word) : State :=
  evrCleared s { s with ev := { s.ev.loadCursor (s.ev.held + 2 ^ 32 * value.toNat) with heldAt := none } }

/-- The cursor moves to the oldest record (18 Table 18-7). -/
def toOldest (s : State) : State := evrCleared s { s with ev := { s.ev with cursor := s.ev.oldest } }

/-- The cursor moves to NEW (18 Table 18-7). -/
def toNew (s : State) : State := evrCleared s { s with ev := { s.ev with cursor := s.ev.new } }

/-- A write of EVR_NOTIFY sets THRESH (18 Table 18-7). -/
def writeThresh (s : State) (v : Nat) : State := evrCleared s { s with ev := { s.ev with thresh := v % 2 ^ 17 } }

/-- A write of EVR_CTRL (18 Table 18-7). -/
def writeEvrCtrl (s : State) (v : Nat) : State := if bit v 1 then toNew s else if bit v 0 then toOldest s else s

/-- A write of EVR_STAT: OVW and NTF are W1C (18 Table 18-8). -/
def writeEvrStat (s : State) (v : Nat) : State :=
  let t := { s with ev := { s.ev with ovw := s.ev.ovw && !bit v 0, ntf := s.ev.ntf && !bit v 2 } }
  if (bit v 0 && s.ev.ovw) || (bit v 2 && s.ev.ntf) then resendGroup t 4 else t

/-! Meanings. -/

/-- EVR_READ: records from a sequence number on (13 Table 13-15). -/
def execEvrRead (mb : Nat) (s : State) : Out :=
  runCommand s mb 0x0B01 (fun b =>
    let f := b.arg0.toNat + 2 ^ 32 * b.arg1.toNat
    let n := b.arg2.toNat
    if n < 1 ∨ 65536 < n then refuse s mb stBadParameter
    else if s.ev.new ≤ f then deliver s mb Reply.ok [] (s.ev.new % 2 ^ 32)
    else if f < s.ev.oldest then
      finish s mb { Reply.of stOverwritten with res0 := s.ev.oldest, res1 := s.ev.oldest / 2 ^ 32 }
    else
      let k := Nat.min n (s.ev.new - f)
      let rs := (List.range k).flatMap (fun i => match s.ev.recordAt (f + i) with | some r => r.bytes | none => [])
      deliver s mb Reply.ok rs (f % 2 ^ 32))

/-- EVR_EXCERPT: the excerpt, oldest first (13 Table 13-15). -/
def execEvrExcerpt (mb : Nat) (s : State) : Out :=
  runCommand s mb 0x0B02 (fun _ => deliver s mb Reply.ok ((excerptRecords s).flatMap id) (mcc s))

/-- EVR_CODE: mode, rate limit and suppressions of a code (13 Table 13-15, 18 R451). -/
def execEvrCode (mb : Nat) (s : State) : Out :=
  runCommand s mb 0x0B03 (fun b =>
    let c := b.arg0.toNat
    if !codeConfigured s c then refuse s mb stBadParameter
    else
      let e := eventOf s c 0
      finish s mb { Reply.ok with res0 := e.mode, res1 := e.rint, res2 := e.depth, res3 := getD 0 s.ev.suppressed c })

/-- The class that a live record of a code carries: 0 for a record that is no fault, else the class of its fault (18 Tables 18-1 and 18-5). -/
def recordClass (s : State) (code cls : Nat) : Nat :=
  if [0x0170, 0x0171, 0x0180, 0x0181, 0x0182, 0x0190, 0x0192, 0x0193, 0x01B0, 0x01B1].contains code then 0 else faultClass s code cls

/-- RECORD_OFFER: a live record is offered under a code; program codes are offered only by EVREC (18 R450, Table 18-3). -/
def execRecordOffer (code cls source : Nat) (words : List Word) (s : State) : Out :=
  if recorderRuns s && !(decide (0x0800 ≤ code ∧ code ≤ 0x0FFF)) then done (offerRecord s s.clk.nt (mcc s) code (recordClass s code cls) source false words)
  else done s

/-- RECORD_WRITE: the first record that waits is written, once its number is granted (18 R452, R453). -/
def execRecordWrite (s : State) : Out :=
  match s.ev.waiting with
  | r :: t => if recorderRuns s && s.ev.started && granted s then done (writeRecord { s with ev := { s.ev with waiting := t } } r) else done s
  | [] => done s

/-- EXCERPT_DIRTY_TIMEOUT: an excerpt page dirty for 60 s is stored (18 R459). -/
def execExcerptDirtyTimeout (page : Nat) (s : State) : Out :=
  match lookup s.ev.dirtied page with
  | none => done s
  | some t =>
    if !recorderRuns s || !bit s.rs.dirty page then done s
    else
      let s := advanceTo s (t + 60000000)
      done (requestStores { s with ev := { s.ev with dirtied := eraseAt s.ev.dirtied page } } [page] .owner)

/-- EVR_CUR_HI_WRITE: the cursor is loaded, clamped to the ring (18 R456). -/
def execEvrCurHiWrite (value : Word) (s : State) : Out := whilePowered s (loadCursorHi s value)

/-- EVR_TO_OLDEST: the cursor moves to the oldest record (18 R455). -/
def execEvrToOldest (s : State) : Out := whilePowered s (toOldest s)

/-- EVR_TO_NEW: the cursor moves to NEW (18 R455). -/
def execEvrToNew (s : State) : Out := whilePowered s (toNew s)

end Sys2Proof.Machine
end

