-- ==== Sys2Proof/Machine/Interface.lean ====
section
/-! DEFINITION. The interface blocks beside the solver's: points, unit states, events and the clock (06_block_library R184, R185, R188, R189; 18_event_recorder R444, R448 to R451). -/
namespace Sys2Proof.Machine

/-- The point that an instance names, as its execution reads it. -/
def Ctx.point (c : Ctx) : Entry := pointRead c.s c.net c.exec (pointIdOf c.net c.inst)

/-- An output of state GOOD without flags. -/
def goodSig (v : Nat) : Sig := { value := word v, quality := 0 }

/-- GETP: the point's value and quality byte, and its age. -/
def getpBlock (c : Ctx) : BlkOut :=
  let e := c.point
  BlkOut.of [{ value := e.value, quality := e.quality }, goodSig e.age]

/-- QUAL. -/
def qualBlock (c : Ctx) : BlkOut :=
  let e := c.point
  let fp := (c.net.pointAt (pointIdOf c.net c.inst)).typ == 3
  BlkOut.of [goodSig (qState e.quality), goodSig (e.quality % 256), goodSig e.age, goodSig (b2n (usableEntry fp e))]

/-- UNITSTAT: Table 2-2's fields as they stood at the boundary of the release. -/
def unitstatBlock (c : Ctx) : BlkOut :=
  let u := (c.param 0).toNat
  let r := readUnitRun c.s c.exec u
  let n := match c.s.net.image with | some n => n | none => c.net
  BlkOut.of [goodSig (n.unitAt u).typ, goodSig (stationState c.net r u), goodSig r.svcSince, goodSig (b2n r.out), goodSig (b2n r.oosOwn)]

/-- PUTP has no output. -/
def putpBlock (_c : Ctx) : BlkOut := BlkOut.of []

/-- The entry that PUTP writes: STATE, LIMIT and OVERRANGE of IN, or GOOD; REPLAY while REPLAY runs; age by R63 (06 R185, 02 R63, R67, 01 R50). -/
def putpEntry (s : State) (c : Ctx) (was : Entry) : Entry :=
  let x := c.input 0
  let q := if c.param 2 == 1 then 0 else qState x.quality + qFlags x.quality
  { value := x.value, quality := setBit q 6 s.rp.running, age := if q % 8 = 0 then 0 else was.age }

/-- PUTP writes the point in the output working image when EN = 1. -/
def putpWrite (c : Ctx) (_o : BlkOut) (s : State) : State :=
  if c.flag 1 then
    let p := pointIdOf c.net c.inst
    { s with pt := { s.pt with working := setD Entry.reset s.pt.working p (putpEntry s c (getD Entry.reset s.pt.working p)) } }
  else s

/-! EVREC. -/

/-- The event table entry of an instance's CODE. -/
def Ctx.event (c : Ctx) : EventEntry := eventOf c.s (c.param 0).toNat 0

/-- The bucket as an EVREC instance holds it: credit in [31:0], tokens in [39:32], suppressed in [63:40] (18 R451). -/
def evrecBucket (c : Ctx) : Bucket :=
  let w := (nth 0 c.spec 1).toNat
  if c.first then { credit := 0, tokens := c.event.depth, supp := w / 256, last := 0 }
  else { credit := (nth 0 c.spec 0).toNat, tokens := w % 256, supp := w / 256, last := 0 }

/-- The bucket as words. -/
def bucketWords (b : Bucket) : List Word := [word b.credit, word (b.tokens % 256 + 256 * b.supp)]

/-- Whether an EVREC is triggered (06 R188). -/
def evrecFires (c : Ctx) : Bool :=
  let on := c.flag 0
  if c.param 1 == 1 then on && !(if c.first then on else c.trig) else on

/-- The refill step, run in every execution (18 R451). -/
def evrecRefilled (c : Ctx) : Bucket :=
  let b := evrecBucket c
  if c.event.rint = 0 then b else b.refill c.event.depth c.event.rint c.dt

/-- Whether the offer step suppresses the record (18 R450). -/
def evrecSuppressed (c : Ctx) : Bool :=
  evrecFires c && c.event.mode != 3 && c.event.rint != 0 && (evrecRefilled c).tokens == 0

/-- The bucket after the execution. -/
def evrecNext (c : Ctx) : Bucket :=
  let b := evrecRefilled c
  if !evrecFires c || c.event.mode == 3 || c.event.rint == 0 then b
  else if b.tokens = 0 then { b with supp := satAdd 24 b.supp 1 }
  else { b with tokens := b.tokens - 1, supp := 0 }

/-- EVREC: DONE and SUPP (06 R188, 18 R448, R451). -/
def evrecBlock (c : Ctx) : BlkOut :=
  let sup := evrecSuppressed c
  let total := satWord 2 ((c.held 1).toNat + b2n sup)
  { outs := [goodSig (b2n (evrecFires c && !sup)), outWord [] total.1 total.2 false], spec := bucketWords (evrecNext c)
    held := false, trig := c.flag 0 }

/-- The payload of a program record (18 R447). -/
def evrecPayload (c : Ctx) : List Word :=
  let v := fun (i : Nat) => c.input (1 + i)
  [(v 0).value, (v 1).value, (v 2).value, (v 3).value,
    word ((v 0).quality % 256 + 256 * ((v 1).quality % 256) + 65536 * ((v 2).quality % 256) + 16777216 * ((v 3).quality % 256)),
    word c.inst.ident]

/-- The CONT body of a SNAPSHOT code: its points as GETP reads them in this execution (18 R448). -/
def evrecPoints (c : Ctx) : Bytes :=
  let pts := nth [] c.net.snapLists c.event.list
  let ents := (List.range 8).map (fun i =>
    let p := nth 0xFFFFFFFF pts i
    if p = 0xFFFFFFFF then { value := 0, quality := 0, age := 0 } else pointRead c.s c.net c.exec p)
  ents.flatMap (fun e => natLe 4 e.value.toNat) ++ ents.flatMap (fun e => natLe 1 e.quality)

/-- The records of an execution whose offer is accepted: release NT, and the matrix-cycle count of the release (18 R444, R448). -/
def evrecRecords (s : State) (c : Ctx) : List Rec :=
  let e := c.event
  let supp := if e.rint = 0 then 0 else (evrecRefilled c).supp
  let r : Rec :=
    { seq := 0, nt := c.exec.start, mcc := wrap32 c.exec.cycle, code := (c.param 0).toNat
      flags := recFlags 0 s.rp.running 0 e.excerpt, source := 1, body := eventBody supp (evrecPayload c) }
  if e.mode = 2 then [r, { r with flags := recFlags 0 s.rp.running 1 e.excerpt, body := evrecPoints c }] else [r]

/-- A sinter span before its first occurrence. -/
def Sinter.start : Sinter := { count := 0, min := nan32, max := nan32, sum := 0, any := false, bins := List.replicate 8 0 }

/-- The bin of a value among seven edges (18 R449). -/
def sinterBin (edges : List Word) (v : Word) : Nat := (edges.takeWhile (fun e => fle e v)).length

/-- An occurrence is accumulated (18 R449). -/
def Sinter.add (x : Sinter) (edges : List Word) (v : Word) : Sinter :=
  let x := { x with count := x.count + 1 }
  if fnan v then x
  else
    { x with
      min := if x.any then fmin x.min v else v, max := if x.any then fmax x.max v else v, sum := fadd x.sum v, any := true
      bins := modifyNth x.bins (sinterBin edges v) (fun b => satAdd 16 b 1) }

/-- What EVREC does beyond its own state: the record, the suppression count, the sinter span. -/
def evrecEffect (c : Ctx) (_o : BlkOut) (s : State) : State :=
  let code := (c.param 0).toNat
  if !evrecFires c then s
  else if c.event.mode = 3 then
    let v := (convWord (inputType c.net c.prog (nth 0 c.inst.inputs 1)) tFp (c.input 1).value).value
    let x := (lookup s.ev.sinter code).getD Sinter.start
    { s with ev := { s.ev with sinter := insertAt s.ev.sinter code (x.add (nth [] c.net.binTables c.event.list) v) } }
  else if evrecSuppressed c then
    { s with ev := { s.ev with suppressed := setD 0 s.ev.suppressed code (satAdd 32 (getD 0 s.ev.suppressed code) 1) } }
  else { s with ev := { s.ev with waiting := s.ev.waiting ++ evrecRecords s c } }

/-! CLOCK. -/

/-- CLOCK (06 R189): from the tick count latched at the boundary of the release. -/
def clockBlock (c : Ctx) : BlkOut :=
  let t := c.exec.tick
  let sec := shownSecond t c.exec.beyond
  let days := sec / 86400
  let d := dateOf days
  let q := if c.exec.valid then 0 else 7
  BlkOut.of ([t / 32768, t % 32768, c.exec.cycle, d.1, d.2.1, d.2.2, sec / 3600 % 24, sec / 60 % 60, sec % 60, weekday days].map
    (fun v => { value := word (v % 2 ^ 32), quality := q }))

/-! Meanings. -/

/-- GETP (06 R185). -/
def execGetp (core : Nat) (s : State) : Out := runBlock s core 0x38 getpBlock

/-- PUTP (06 R185). -/
def execPutp (core : Nat) (s : State) : Out := runEffect s core 0x39 putpBlock putpWrite

/-- QUAL (06 Table 6-12). -/
def execQual (core : Nat) (s : State) : Out := runBlock s core 0x3A qualBlock

/-- UNITSTAT (06 Table 6-12). -/
def execUnitstat (core : Nat) (s : State) : Out := runBlock s core 0x3B unitstatBlock

/-- EVREC (06 R188). -/
def execEvrec (core : Nat) (s : State) : Out := runEffect s core 0x3E evrecBlock evrecEffect

/-- CLOCK (06 R189). -/
def execClock (core : Nat) (s : State) : Out := runBlock s core 0x3F clockBlock

end Sys2Proof.Machine
end

