-- ==== Sys2Proof/Machine/SolveArith.lean ====
section
/-! DEFINITION. The arithmetic of the solver engine: rounding and checking of fixed-point writes, binary32 chains, and what each task kind makes of its blocks (07_solver_engine R190 to R202; 08_solve_programs R239, R240). The shapes of the operand blocks that the record of a task leaves open are those of notes/assumptions/25. -/
namespace Sys2Proof.Machine

/-- A number m × 2^e. -/
structure Dyadic where
  m : Int
  e : Int
deriving DecidableEq, Repr

/-- The exact sum. -/
def Dyadic.add (a b : Dyadic) : Dyadic :=
  let low := if a.e < b.e then a.e else b.e
  { m := a.m * 2 ^ (a.e - low).toNat + b.m * 2 ^ (b.e - low).toNat, e := low }

/-- The exact negation. -/
def Dyadic.neg (a : Dyadic) : Dyadic := { a with m := -a.m }

/-- The exact product. -/
def Dyadic.mul (a b : Dyadic) : Dyadic := { m := a.m * b.m, e := a.e + b.e }

/-- The number rounded half to even onto the multiples of 2^scale, as a raw value (07 R192). -/
def Dyadic.raw (a : Dyadic) (scale : Int) : Int := roundFrac a.m 1 (a.e - scale)

/-- Comparison. -/
def Dyadic.lt (a b : Dyadic) : Bool := decide ((a.add b.neg).m < 0)

/-- The element of a fixed-point block. -/
def fixed (scale : Int) (w : Word) : Dyadic := { m := sint w, e := scale }

/-- What the writes of a task change: block contents, blocks in binary32, flags of the pass, the lowest block written in the guard band, saturations, pivots replaced. -/
structure Writes where
  mem : NMap Word
  fmt : List Nat
  guard : Bool
  numeric : Bool
  low : Option Nat
  sats : Nat
  pivots : Nat

/-- The place of an element of a block in the block contents: its home, and its word address there. -/
def BlockDesc.key (b : BlockDesc) (i : Nat) : Nat := (if b.bulk then 2 ^ 40 else 0) + b.addr / 4 + i

/-- A rounded value is checked: saturation is counted, the guard band sets the guard flag (07 R192). `b` is the block written, none for an operand that is converted. -/
def Writes.check (w : Writes) (b : Option Nat) (r : Int) : Writes :=
  let y := clampInt (-(2 ^ 31)) (2 ^ 31 - 1) r
  let w := if y = r then w else { w with sats := w.sats + 1 }
  if y.natAbs < 2 ^ 29 then w
  else
    { w with
      guard := true
      low := match b, w.low with
        | some i, some j => some (Nat.min i j)
        | some i, none => some i
        | none, x => x }

/-- The word of a rounded value. -/
def satRaw (r : Int) : Word := word (ofSigned 32 (clampInt (-(2 ^ 31)) (2 ^ 31 - 1) r))

/-- A fixed-point element is written (07 R192). -/
def Writes.putFx (w : Writes) (p : SolveImage) (b i : Nat) (r : Int) : Writes :=
  let w := w.check (some b) r
  { w with mem := setD 0 w.mem ((p.blockAt b).key i) (satRaw r) }

/-- A binary32 operand or the result of a binary32 operation is seen: an infinity or a NaN sets the numeric flag (07 R196). -/
def Writes.see (w : Writes) (v : Word) : Writes := { w with numeric := w.numeric || fspecial v }

/-- A binary32 element is written (07 R196). -/
def Writes.putFp (w : Writes) (p : SolveImage) (b i : Nat) (v : Word) : Writes :=
  { w.see v with mem := setD 0 w.mem ((p.blockAt b).key i) v }

/-- The raw value of a binary32 number at a scale before saturation; a NaN is 0, an infinity lies beyond its limit (07 R197). -/
def rawOfFp (scale : Int) (v : Word) : Int :=
  match binary32.unpack v.toNat with
  | .nan => 0
  | .inf neg => if neg then -(2 ^ 31) - 1 else 2 ^ 31
  | .num neg m e => roundPow2 neg m (e - scale)

/-- A binary32 operand is converted to fixed point: a NaN sets both flags, an infinity the numeric flag (07 R196, R197). -/
def Writes.seeFp (w : Writes) (v : Word) : Writes := if fnan v then { w with guard := true, numeric := true } else w.see v

/-- A stored element in the format of the task that reads it (07 R196, R197). -/
def Writes.convert (w : Writes) (fp stored : Bool) (scale : Int) (v : Word) : Writes × Word :=
  match fp, stored with
  | true, true => (w.see v, v)
  | true, false => (w, word (binary32.ofInt (sint v) scale))
  | false, false => (w, v)
  | false, true => ((w.seeFp v).check none (rawOfFp scale v), satRaw (rawOfFp scale v))

/-- A word of a block that changes its format, as a value that no task reads: no flag is set by it. -/
def recoded (fp stored : Bool) (scale : Int) (v : Word) : Word :=
  match fp, stored with
  | true, false => word (binary32.ofInt (sint v) scale)
  | false, true => satRaw (rawOfFp scale v)
  | _, _ => v

/-- Elements converted in order. -/
def Writes.convertAll (w : Writes) (fp stored : Bool) (scale : Int) (vs : List Word) : Writes × List Word :=
  let r := vs.foldl (fun (acc : Writes × List Word) v =>
    let x := acc.1.convert fp stored scale v
    (x.1, x.2 :: acc.2)) (w, [])
  (r.1, r.2.reverse)

/-- The stored elements of a block. -/
def SolveImage.stored (p : SolveImage) (mem : NMap Word) (b : Nat) : List Word :=
  let d := p.blockAt b
  (List.range d.elements).map (fun i => getD 0 mem (d.key i))

/-- Elements are written as they are. -/
def putRaw (p : SolveImage) (b i : Nat) (mem : NMap Word) (vs : List Word) : NMap Word :=
  match vs with
  | [] => mem
  | v :: t => putRaw p b (i + 1) (setD 0 mem ((p.blockAt b).key i) v) t

/-- A block that a task writes takes the format of the task (07 R198). The elements that the task reads first are operands of it, converted with their flags (07 R196, R197); those that it does not read set none. -/
def Writes.prepare (w : Writes) (p : SolveImage) (fp : Bool) (b : Nat) (reads : Nat → Bool) : Writes :=
  if b = noBlock then w
  else
    let d := p.blockAt b
    let stored := w.fmt.contains b
    let r := (indexed (p.stored w.mem b)).foldl (fun (acc : Writes × List Word) q =>
      if reads q.1 then
        let x := acc.1.convert fp stored d.scale q.2
        (x.1, x.2 :: acc.2)
      else (acc.1, recoded fp stored d.scale q.2 :: acc.2)) (w, [])
    { r.1 with
      mem := if stored = fp then w.mem else putRaw p b 0 w.mem r.2.reverse
      fmt := if stored = fp then w.fmt else if fp then b :: w.fmt else w.fmt.filter (fun x => x != b) }

/-- A block in the format of a task. -/
structure Blk where
  desc : BlockDesc
  vals : List Word

/-- Element (i, j); an element that the shape does not store is 0. -/
def Blk.at_ (x : Blk) (i j : Nat) : Word := match x.desc.index i j with | some k => nth 0 x.vals k | none => 0

/-- Element (i, j) of a block of a symmetric matrix: a lower triangle stands for both. -/
def Blk.sym (x : Blk) (i j : Nat) : Word := if x.desc.shape = 1 ∧ i < j then x.at_ j i else x.at_ i j

/-- A block as it stands. -/
def Writes.block (w : Writes) (p : SolveImage) (b : Nat) : Blk := { desc := p.blockAt b, vals := p.stored w.mem b }

/-- The chain of fused multiply-adds from +0 (07 R195). -/
def fmaChain (xs : List (Word × Word)) : Word := xs.foldl (fun s x => ffma x.1 x.2 s) 0

/-- The exact sum of products of raw values (07 R193). -/
def rawSum (xs : List (Word × Word)) : Int := xs.foldl (fun s x => s + sint x.1 * sint x.2) 0

/-- A sum of products, with the exponent of its products. -/
structure ProdSum where
  exp : Int
  items : List (Word × Word)

/-- An element of scale et less sums of products, all exact, rounded at its scale (07 R193, R194). -/
def fxLess (t : Word) (et : Int) (sums : List ProdSum) : Int :=
  (sums.foldl (fun (x : Dyadic) y => x.add { m := -rawSum y.items, e := y.exp }) (fixed et t)).raw et

/-- Element k of block b is written: itself less sums of products, in binary32 one chain over all of them (07 R194, R195). -/
def Writes.putLess (w : Writes) (p : SolveImage) (fp : Bool) (b k : Nat) (t : Word) (sums : List ProdSum) : Writes :=
  if fp then w.putFp p b k (fsub t (fmaChain (sums.flatMap (fun y => y.items))))
  else w.putFx p b k (fxLess t (p.blockAt b).scale sums)

/-- The pairs of two functions over an inner index. -/
def pairs (n : Nat) (f g : Nat → Word) : List (Word × Word) := (List.range n).map (fun k => (f k, g k))

/-- The stored places of a block: row, column and element index. -/
def BlockDesc.places (d : BlockDesc) : List (Nat × Nat × Nat) :=
  (List.range d.cols).flatMap (fun j => (List.range d.rows).filterMap (fun i => (d.index i j).map (fun k => (i, j, k))))

/-! UPDATE and RESIDUAL (07 Table 7-4). -/

/-- TARGET := TARGET − SRC_A × SRC_Bᵀ. -/
def updateTask (p : SolveImage) (fp : Bool) (t : SolveTask) (a b : Blk) (w : Writes) : Writes :=
  let x := w.block p t.target
  x.desc.places.foldl (fun w q =>
    w.putLess p fp t.target q.2.2 (nth 0 x.vals q.2.2)
      [{ exp := a.desc.scale + b.desc.scale, items := pairs a.desc.cols (fun k => a.at_ q.1 k) (fun k => b.at_ q.2.1 k) }]) w

/-- TARGET := TARGET − SRC_A × SRC_B, on NRHS columns. -/
def residualTask (p : SolveImage) (fp : Bool) (t : SolveTask) (a b : Blk) (w : Writes) : Writes :=
  let x := w.block p t.target
  (x.desc.places.filter (fun q => decide (q.2.1 < t.nrhs))).foldl (fun w q =>
    w.putLess p fp t.target q.2.2 (nth 0 x.vals q.2.2)
      [{ exp := a.desc.scale + b.desc.scale, items := pairs a.desc.cols (fun k => a.sym q.1 k) (fun k => b.at_ k q.2.1) }]) w

/-! FACTOR (07 R200; 08 R239, R240). -/

/-- What a task of a FACTOR section does beside its blocks' arithmetic: the expected signs of the rows of its supernode, 2^TAU_EXP, the exponent of δ where the diagonal of its target is regularised with it, and the right-hand sides that it substitutes (07 R201; 08 R239, R240). -/
structure PivotRule where
  negative : Nat → Bool
  tauExp : Int
  delta : Option Int
  rhs : List Nat

/-- One column: L, and L·D, by row. -/
structure Column where
  l : List Word
  ld : List Word

/-- The numerator of row i in column j: T less the products of the columns before (07 R200). In fixed point it is an exact number. -/
def numeratorFx (x : Blk) (ea : Int) (cols : List Column) (i j : Nat) : Dyadic :=
  let xs := cols.map (fun c => (nth 0 c.ld i, nth 0 c.l j))
  (fixed x.desc.scale (x.at_ i j)).add { m := -rawSum xs, e := ea + x.desc.scale }

/-- The numerator in binary32. -/
def numeratorFp (x : Blk) (cols : List Column) (i j : Nat) : Word :=
  fsub (x.at_ i j) (fmaChain (cols.map (fun c => (nth 0 c.ld i, nth 0 c.l j))))

/-- A fixed-point pivot after the rules of R239, and whether it was replaced: τ is 2^(TAU_EXP + 31) in raw units of its block. -/
def pivotFx (r : PivotRule) (j : Nat) (d : Int) : Int × Bool :=
  let tau : Int := 2 ^ (r.tauExp + 31).toNat
  let neg := r.negative j
  if d = 0 ∨ (d.natAbs : Int) < tau ∨ decide (d < 0) ≠ neg then (if neg then -tau else tau, true) else (d, false)

/-- A binary32 pivot after the rules of R239; the same τ. -/
def pivotFp (r : PivotRule) (scale : Int) (j : Nat) (d : Word) : Word × Bool :=
  let tau := word (binary32.ofInt 1 (r.tauExp + scale + 31))
  let neg := r.negative j
  if fnan d then (d, false)
  else if feq d 0 || flt (fabs d) tau || d.getLsbD 31 != neg then (if neg then fneg tau else tau, true)
  else (d, false)

/-- The place of row i, column j of a panel in the block that receives L·D: of the same rows as TARGET, or of the rows below the diagonal block. -/
def ldPlace (x d : BlockDesc) (i j : Nat) : Option Nat :=
  if d.rows = x.rows then d.index i j else if x.cols ≤ i then d.index (i - x.cols) j else none

/-- The columns found so far with one more, from the entries (row, L, L·D) below its diagonal. -/
def addColumn (rows : Nat) (cols : List Column) (out : List (Nat × Word × Word)) : List Column :=
  let at_ := fun (i : Nat) => out.find? (fun q => q.1 == i)
  cols ++ [{ l := (List.range rows).map (fun i => match at_ i with | some q => q.2.1 | none => 0)
             ld := (List.range rows).map (fun i => match at_ i with | some q => q.2.2 | none => 0) }]

/-- The rows of a panel below the diagonal of column j. -/
def rowsBelow (x : Blk) (j : Nat) : List Nat := (List.range x.desc.rows).filter (fun i => decide (j < i))

/-- Column j of a fixed-point FACTOR. A pivot that is replaced is not written (07 R192, R200). -/
def factorColFx (p : SolveImage) (r : PivotRule) (t : SolveTask) (x : Blk) (acc : Writes × List Column) (j : Nat) : Writes × List Column :=
  let et := x.desc.scale
  let ea := (p.blockAt t.srcA).scale
  let eb := (p.blockAt t.srcB).scale
  let d := pivotFx r j ((numeratorFx x ea acc.2 j j).raw et)
  let w := { acc.1 with pivots := acc.1.pivots + b2n d.2 }
  let w := match x.desc.index j j with | some k => w.putFx p t.target k d.1 | none => w
  let dj := sint (satRaw d.1)
  let rec_ := roundFrac (if dj < 0 then -1 else 1) dj.natAbs (-et - eb)
  let w := w.putFx p t.srcB j rec_
  let out := (rowsBelow x j).foldl (fun (a : Writes × List (Nat × Word × Word)) i =>
    let q := (numeratorFx x ea acc.2 i j).raw ea
    let ld := satRaw q
    let w := match ldPlace x.desc (p.blockAt t.srcA) i j with
      | some k => a.1.putFx p t.srcA k q
      | none => a.1.check none q
    let l := ({ m := sint ld * sint (satRaw rec_), e := ea + eb } : Dyadic).raw et
    let w := match x.desc.index i j with | some k => w.putFx p t.target k l | none => w
    (w, (i, satRaw l, ld) :: a.2)) (w, [])
  (out.1, addColumn x.desc.rows acc.2 out.2)

/-- Column j of a binary32 FACTOR. -/
def factorColFp (p : SolveImage) (r : PivotRule) (t : SolveTask) (x : Blk) (acc : Writes × List Column) (j : Nat) : Writes × List Column :=
  let n := numeratorFp x acc.2 j j
  let d := pivotFp r x.desc.scale j n
  let w := { acc.1.see n with pivots := acc.1.pivots + b2n d.2 }
  let w := match x.desc.index j j with | some k => w.putFp p t.target k d.1 | none => w
  let rec_ := fdiv (fofInt 1) d.1
  let w := w.putFp p t.srcB j rec_
  let out := (rowsBelow x j).foldl (fun (a : Writes × List (Nat × Word × Word)) i =>
    let ld := numeratorFp x acc.2 i j
    let w := match ldPlace x.desc (p.blockAt t.srcA) i j with
      | some k => a.1.putFp p t.srcA k ld
      | none => a.1.see ld
    let l := fmul ld rec_
    let w := match x.desc.index i j with | some k => w.putFp p t.target k l | none => w
    (w, (i, l, ld) :: a.2)) (w, [])
  (out.1, addColumn x.desc.rows acc.2 out.2)

/-- δ is added to the diagonal of the copy of K that a block holds: +δ in rows of SIGN 0, −δ in rows of SIGN 1 (08 R240). -/
def addDelta (p : SolveImage) (fp : Bool) (r : PivotRule) (b : Nat) (w : Writes) : Writes :=
  match r.delta with
  | none => w
  | some e =>
    let d := p.blockAt b
    (List.range d.cols).foldl (fun w j =>
      match d.index j j with
      | none => w
      | some k =>
        let v := getD 0 w.mem (d.key k)
        let s : Int := if r.negative j then -1 else 1
        if fp then w.putFp p b k (fadd v (word (binary32.ofInt s (e + d.scale + 31))))
        else w.putFx p b k (((fixed d.scale v).add { m := s, e := e + d.scale + 31 }).raw d.scale)) w

/-! TRSV (07 Table 7-4). -/

/-- An element of the target block in a column. -/
def targetAt (p : SolveImage) (t : SolveTask) (w : Writes) (c i : Nat) : Word := (w.block p t.target).at_ i c

/-- Forward substitution of one column with L, then the scaling by 1/dj where SRC_B gives the reciprocals. -/
def trsvForward (p : SolveImage) (fp : Bool) (t : SolveTask) (l b : Blk) (c : Nat) (w : Writes) : Writes :=
  let d := p.blockAt t.target
  let n := l.desc.cols
  let w := (List.range d.rows).foldl (fun w i =>
    match d.index i c with
    | none => w
    | some k => w.putLess p fp t.target k (getD 0 w.mem (d.key k))
        [{ exp := l.desc.scale + d.scale, items := pairs (Nat.min i n) (fun j => l.at_ i j) (fun j => targetAt p t w c j) }]) w
  if t.srcB = noBlock then w
  else
    (List.range (Nat.min n d.rows)).foldl (fun w j =>
      match d.index j c with
      | none => w
      | some k =>
        let y := getD 0 w.mem (d.key k)
        let r := nth 0 b.vals j
        if fp then w.putFp p t.target k (fmul y r)
        else w.putFx p t.target k ((fixed d.scale y).mul (fixed b.desc.scale r) |>.raw d.scale)) w

/-- Backward substitution of one column with Lᵀ; rows of L below the target's come from SRC_B. -/
def trsvBackward (p : SolveImage) (fp : Bool) (t : SolveTask) (l b : Blk) (c : Nat) (w : Writes) : Writes :=
  let d := p.blockAt t.target
  (List.range (Nat.min l.desc.cols d.rows)).reverse.foldl (fun w j =>
    match d.index j c with
    | none => w
    | some k =>
      let below := rowsBelow l j
      w.putLess p fp t.target k (getD 0 w.mem (d.key k))
        [{ exp := l.desc.scale + d.scale, items := (below.filter (fun i => decide (i < d.rows))).map (fun i => (l.at_ i j, targetAt p t w c i)) },
         { exp := l.desc.scale + b.desc.scale, items := (below.filter (fun i => decide (d.rows ≤ i))).map (fun i => (l.at_ i j, b.at_ (i - d.rows) c)) }]) w

/-- TRSV on NRHS columns. -/
def trsvTask (p : SolveImage) (fp : Bool) (t : SolveTask) (l b : Blk) (w : Writes) : Writes :=
  (List.range t.nrhs).foldl (fun w c => if t.dir then trsvBackward p fp t l b c w else trsvForward p fp t l b c w) w

/-- FACTOR: LDLᵀ of one supernode, column by column; with FUSE, forward substitution of its right-hand sides by the tasks that would do it unfused: L in TARGET, the reciprocals in SRC_B (07 R200, R201; notes/assumptions/25). -/
def factorTask (p : SolveImage) (fp : Bool) (r : PivotRule) (t : SolveTask) (w : Writes) : Writes :=
  let none_ := fun (_ : Nat) => false
  let w := (w.prepare p fp t.srcA none_).prepare p fp t.srcB none_
  let x := w.block p t.target
  let w := ((List.range x.desc.cols).foldl (if fp then factorColFp p r t x else factorColFx p r t x) (w, [])).1
  if !t.fuse then w
  else r.rhs.foldl (fun w b =>
    let u := { t with kind := 2, dir := false, target := b, srcA := t.target }
    trsvTask p fp u (w.block p t.target) (w.block p t.srcB) (w.prepare p fp b (fun k => decide (k / (p.blockAt b).rows < t.nrhs)))) w

/-! VECTOR (07 Table 7-5). -/

/-- The square root of a fixed-point element, rounded half to even onto 2^et. -/
def sqrtFx (a : Word) (ea et : Int) : Int :=
  let x := sint a
  let e := ea - 2 * et
  let num := x.toNat * 2 ^ e.toNat
  let den := 2 ^ (-e).toNat
  let r := isqrt (num / den)
  let mid := den * (4 * r * r + 4 * r + 1)
  if mid < 4 * num ∨ (mid = 4 * num ∧ r % 2 = 1) then (r + 1 : Nat) else (r : Nat)

/-- An element of a fixed-point VECTOR operation that works element by element: its raw value, and whether it sets the guard flag by itself. The limit that 0 / 0 saturates to is free (notes/assumptions/118). -/
def vectorFx (vop : Nat) (et ea eb : Int) (t a c : Word) : Int × Bool :=
  match vop with
  | 0 => ((fixed ea a).raw et, false)
  | 1 => (((fixed et t).add ((fixed eb c).mul (fixed ea a))).raw et, false)
  | 2 => (((fixed et t).mul (fixed ea a)).raw et, false)
  | 3 =>
    if sint a = 0 then
      let up := if sint t = 0 then Config.zeroOverZero et ea else decide (0 < sint t)
      (if up then 2 ^ 31 else -(2 ^ 31) - 1, true)
    else (roundFrac (if sint a < 0 then -(sint t) else sint t) (sint a).natAbs (-ea), false)
  | _ => if sint a < 0 then (0, true) else (sqrtFx a ea et, false)

/-- An element of a binary32 VECTOR operation that works element by element. -/
def vectorFp (vop : Nat) (t a c : Word) : Word :=
  match vop with
  | 0 => a
  | 1 => ffma c a t
  | 2 => fmul t a
  | 3 => fdiv t a
  | _ => fsqrt a

/-- The smaller of two numbers. -/
def Dyadic.min (a b : Dyadic) : Dyadic := if b.lt a then b else a

/-- The larger of two numbers. -/
def Dyadic.max (a b : Dyadic) : Dyadic := if a.lt b then b else a

/-- A reduction in fixed point: MAXABS, DOT or STEP into element 0. -/
def reduceFx (vop : Nat) (et : Int) (t : Word) (a b : Blk) : Int :=
  let t0 := fixed et t
  let ea := a.desc.scale
  let eb := b.desc.scale
  match vop with
  | 5 => (a.vals.foldl (fun m v => m.max { m := (sint v).natAbs, e := ea }) t0).raw et
  | 6 => (t0.add { m := rawSum (a.vals.zip b.vals), e := ea + eb }).raw et
  | _ =>
    ((a.vals.zip b.vals).foldl (fun (m : Dyadic) q =>
      if sint q.2 < 0 then m.min { m := clampInt (-(2 ^ 31)) (2 ^ 31 - 1) (roundFrac (sint q.1) (sint q.2).natAbs (ea - eb - et)), e := et } else m) t0).raw et

/-- A reduction in binary32; the quotients of STEP are results of their own (07 R196). -/
def reduceFp (vop : Nat) (t : Word) (a b : Blk) (w : Writes) : Writes × Word :=
  match vop with
  | 5 => (w, a.vals.foldl (fun m v => fmax m (fabs v)) t)
  | 6 => (w, fadd t (fmaChain (a.vals.zip b.vals)))
  | _ => (a.vals.zip b.vals).foldl (fun (acc : Writes × Word) q =>
      if flt q.2 0 then
        let x := fdiv (fneg q.1) q.2
        (acc.1.see x, fmin acc.2 x)
      else acc) (w, t)

/-- The elements that a VECTOR operation writes. -/
def vectorLength (x a : Nat) : Nat := Nat.min x a

/-- COPY of a binary32 segment into fixed point: one rounding, at the target's scale (07 R192, R197). -/
def copyFpToFx (p : SolveImage) (b : Nat) (vs : List Word) (w : Writes) : Writes :=
  ((indexed vs).take (vectorLength (p.blockAt b).elements vs.length)).foldl (fun w q => (w.seeFp q.2).putFx p b q.1 (rawOfFp (p.blockAt b).scale q.2)) w

/-- VECTOR on one segment. -/
def vectorTask (p : SolveImage) (fp : Bool) (t : SolveTask) (a b : Blk) (w : Writes) : Writes :=
  let x := w.block p t.target
  let et := x.desc.scale
  if 5 ≤ t.vop then
    let t0 := nth 0 x.vals 0
    if fp then
      let r := reduceFp t.vop t0 a b w
      r.1.putFp p t.target 0 r.2
    else w.putFx p t.target 0 (reduceFx t.vop et t0 a b)
  else
    let c := nth 0 b.vals 0
    (List.range (vectorLength x.vals.length a.vals.length)).foldl (fun w i =>
      let v := nth 0 x.vals i
      let u := nth 0 a.vals i
      if fp then w.putFp p t.target i (vectorFp t.vop v u c)
      else
        let r := vectorFx t.vop et a.desc.scale b.desc.scale v u c
        let w := w.putFx p t.target i r.1
        if r.2 then { w with guard := true } else w) w

/-! A task. -/

/-- Sources as a tile has loaded them: the stored elements, and whether they are binary32. -/
structure Loaded where
  a : List Word
  b : List Word
  fmtA : Bool
  fmtB : Bool

/-- The elements of its target that a task reads before it writes them (07 Tables 7-4 and 7-5). -/
def targetReads (p : SolveImage) (t : SolveTask) (lenA k : Nat) : Bool :=
  match t.kind with
  | 0 | 1 => true
  | 2 | 3 => decide (k / (p.blockAt t.target).rows < t.nrhs)
  | _ => if t.vop = 0 ∨ t.vop = 4 then false else if 5 ≤ t.vop then k == 0 else decide (k < lenA)

/-- What a task computes into a target in its format. -/
def taskEffect (p : SolveImage) (fp : Bool) (r : PivotRule) (t : SolveTask) (x : Loaded) (w : Writes) : Writes :=
  if t.kind = 0 then factorTask p fp r t w
  else if t.kind = 4 ∧ t.vop = 0 ∧ !fp ∧ x.fmtA then copyFpToFx p t.target x.a w
  else
    let da := p.blockAt t.srcA
    let db := p.blockAt t.srcB
    let ca := w.convertAll fp x.fmtA da.scale x.a
    let cb := ca.1.convertAll fp x.fmtB db.scale x.b
    let a : Blk := { desc := da, vals := ca.2 }
    let b : Blk := { desc := db, vals := cb.2 }
    match t.kind with
    | 1 => updateTask p fp t a b cb.1
    | 2 => trsvTask p fp t a b cb.1
    | 3 => residualTask p fp t a b cb.1
    | _ => vectorTask p fp t a b cb.1

/-- A task retires: its result is combined with its target, and the target is written. δ comes after the copy that gives its block its contents, and before any other first write (07 R204; 08 R240; notes/assumptions/25). -/
def retireTask (p : SolveImage) (fp : Bool) (r : PivotRule) (t : SolveTask) (x : Loaded) (w : Writes) : Writes :=
  let w := w.prepare p fp t.target (targetReads p t x.a.length)
  if t.kind = 4 ∧ t.vop = 0 then addDelta p fp r t.target (taskEffect p fp r t x w)
  else taskEffect p fp r t x (addDelta p fp r t.target w)

end Sys2Proof.Machine
end

