-- ==== Sys2Proof/Machine/Solver.lean ====
section
/-! DEFINITION. The solver engine and the solves: binding and operands, admission, dispatch, retirement, sections and passes, refinement, iteration boundaries, statuses, publication (07_solver_engine R199 to R216; 08_solve_programs R217 to R258). -/
namespace Sys2Proof.Machine

/-! Roles (08 Table 8-7): 1 START, 2 ASSEMBLE, 3 FACTOR, 4 SOLVE, 5 RESIDUAL, 6 CORRECT, 7 UPDATE, 8 FINISH, 9 CERTIFY. -/

/-- The section table of a solve: the program's, or that of its group (08 R257). -/
def SolveImage.tableOf (p : SolveImage) (scope : Nat) : List Section :=
  if scope = 0 then p.sections
  else match p.groups.find? (fun g => g.unit == scope) with | some g => g.sections | none => p.sections

/-- The section that a solve runs. -/
def currentSection (p : SolveImage) (x : Solve) : Section := sectionOf (p.tableOf x.scope) x.role

/-- The format in which the tasks of a section run: START and ASSEMBLE in that of the solve, the others in that of the pass (07 R211, R212; notes/assumptions/25). -/
def Solve.mode (x : Solve) : Bool := if x.role ≤ 2 then x.stay else x.fp

/-- The solve that a slot runs. -/
def runningSolve (s : State) (n : Nat) : Option (SolveImage × Solve) :=
  match (solveSlot s n).img, (solveSlot s n).solve with
  | some p, some x => if x.status.isNone then some (p, x) else none
  | _, _ => none

/-- The solve of a slot changes. -/
def onSolve (s : State) (n : Nat) (f : Solve → Solve) : State := onSlot s n (fun x => { x with solve := x.solve.map f })

/-- The resident programs in slot order. -/
def residents (s : State) : List SolveImage := s.sv.slots.filterMap (fun x => x.img)

/-! Pivots (08 R239, R240). -/

/-- Numbers without repetition, in order. -/
def distinct (l : List Nat) : List Nat := l.foldl (fun acc x => if acc.contains x then acc else acc ++ [x]) []

/-- The first matrix row of a FACTOR task: the tasks of its section take the rows in list order (notes/assumptions/25). -/
def factorRow (p : SolveImage) (x : Solve) (task : Nat) : Nat := (lookup (p.factorRows (p.tableOf x.scope) x.scope) task).getD 0

/-- The FACTOR task of the section that factors a block. -/
def factorOf (p : SolveImage) (x : Solve) (block : Nat) : Option Nat :=
  (sectionOf (p.tableOf x.scope) 3).indices.find? (fun i => (p.taskAt i).kind == 0 && (p.taskAt i).target == block)

/-- The right-hand sides that a fused FACTOR task substitutes: the targets of the backward substitutions with its L, whose forward tasks are absent (07 R201; notes/assumptions/25). -/
def fusedBlocks (p : SolveImage) (x : Solve) (block : Nat) : List Nat :=
  distinct ((((sectionOf (p.tableOf x.scope) 4).indices.map p.taskAt).filter (fun t => t.kind == 2 && t.dir && t.srcA == block)).map (fun t => t.target))

/-- A task is the first of its section to write its target. -/
def firstWriter (p : SolveImage) (sec : Section) (task : Nat) : Bool :=
  !(sec.indices.any (fun i => decide (i < task) && (p.taskAt i).target == (p.taskAt task).target))

/-- The pivot rules of a task; in DP the first write into a diagonal block in the FACTOR section brings δ (08 R239, R240). -/
def pivotRule (p : SolveImage) (x : Solve) (task : Nat) : PivotRule :=
  let t := p.taskAt task
  let row := match factorOf p x t.target with | some i => factorRow p x i | none => 0
  { negative := fun j => (nth { unit := 0, sign := false, step := 255, kind := 0 } p.owners (row + j)).sign
    tauExp := p.tauExp
    delta := if p.cls = 2 ∧ x.role = 3 ∧ (factorOf p x t.target).isSome ∧ firstWriter p (sectionOf (p.tableOf x.scope) 3) task then some p.deltaExp else none
    rhs := if t.kind = 0 ∧ t.fuse then fusedBlocks p x t.target else [] }

/-! Running a section at once, for the FINISH of an iterate that is returned from outside the normal order. -/

/-- The writes of a solve so far. -/
def writesOf (mem : NMap Word) (fmt : List Nat) : Writes :=
  { mem := mem, fmt := fmt, guard := false, numeric := false, low := none, sats := 0, pivots := 0 }

/-- The sources of a task as they stand. -/
def loadTask (p : SolveImage) (t : SolveTask) (w : Writes) : Loaded :=
  let get := fun (b : Nat) => if b = noBlock then [] else p.stored w.mem b
  { a := get t.srcA, b := get t.srcB, fmtA := w.fmt.contains t.srcA, fmtB := w.fmt.contains t.srcB }

/-- The tasks of a section in ascending list index. -/
def runTasks (p : SolveImage) (x : Solve) (fp : Bool) (l : List Nat) (w : Writes) : Writes :=
  l.foldl (fun w i => let t := p.taskAt i; retireTask p fp (pivotRule p x i) t (loadTask p t w) w) w

/-! Results. -/

/-- An element of a block as binary32 (07 R197). -/
def elementFp (p : SolveImage) (mem : NMap Word) (fmt : List Nat) (b i : Nat) : Word :=
  let d := p.blockAt b
  let v := getD 0 mem (d.key i)
  if fmt.contains b then v else word (binary32.ofInt (sint v) d.scale)

/-- A block as binary32. -/
def blockFp (p : SolveImage) (mem : NMap Word) (fmt : List Nat) (b : Nat) : List Word :=
  (List.range (p.blockAt b).elements).map (elementFp p mem fmt b)

/-- The arithmetic report (07 Table 7-8). -/
def Report.bytes (r : Report) : Bytes :=
  let sat := fun (w x : Nat) => Nat.min (2 ^ w - 1) x
  natLe 2 (sat 16 r.fxPasses) ++ natLe 2 (sat 16 r.fpPasses) ++ natLe 4 (sat 32 r.guardPasses) ++ natLe 4 (r.lowest.getD 0xFFFFFFFF) ++
  natLe 4 (sat 32 r.sats) ++ natLe 4 (sat 32 r.pivots) ++ natLe 2 (sat 16 r.refSteps) ++ natLe 2 (sat 16 r.notConv) ++ natLe 1 r.flags ++ natLe 7 0

/-- A certificate entry (08 Table 8-14). -/
structure CertEntry where
  row : Nat
  contrib : Word
  part : Word

/-- The entries of a certificate: rows with nonzero CONTRIB by descending magnitude, ties in ascending row, up to CERT_MAX (08 R255). -/
def certEntries (p : SolveImage) (mem : NMap Word) (fmt : List Nat) (dual : Bool) : List CertEntry :=
  let all := (indexed (blockFp p mem fmt p.certBlock)).map (fun q =>
    let at_ := Config.rowTerm p.header dual q.1
    ({ row := q.1, part := q.2, contrib := fmul q.2 (elementFp p mem fmt at_.1 at_.2) } : CertEntry))
  let some_ := all.filter (fun e => !feq e.contrib 0)
  (sortBy (fun e => 2 ^ 31 - (fabs e.contrib).toNat) some_).take p.certMax

/-- The certificate as bytes. -/
def certBytes (p : SolveImage) (l : List CertEntry) : Bytes :=
  l.flatMap (fun e =>
    let o := nth { unit := 0, sign := false, step := 255, kind := 0 } p.owners e.row
    natLe 2 o.unit ++ natLe 1 o.step ++ natLe 1 o.kind ++ natLe 4 e.contrib.toNat ++ natLe 4 e.part.toNat ++ natLe 4 e.row)

/-- Statuses whose result vector is new or that of the iterate (08 Table 8-12). -/
def givesVector (status : Nat) : Bool := [0x00, 0x01, 0x04, 0x05, 0x11, 0x12].contains status

/-- The result of a solve that ends with a status; `vec` the RESULT_BLOCK of the returned iterate, if there is one. -/
def resultOf (p : SolveImage) (x : Solve) (status : Nat) (vec : Option (List Word)) (certs : List CertEntry) : Result :=
  { status := status, cls := p.cls, iters := x.iters, seq := wrap32 x.cycle, pub := 0, budget := x.budget, scope := x.scope
    conv := x.conv, notGood := x.notGood, certs := certBytes p certs, certCount := certs.length, report := x.report.bytes, len := p.resultLen
    vector := match vec with | some v => if givesVector status then v.map some else [] | none => []
    fresh := if vec.isSome && givesVector status then
        (if x.scope = 0 then some (0, p.resultLen)
         else match p.groups.find? (fun g => g.unit == x.scope) with | some g => some g.range | none => some (0, p.resultLen))
      else none }

/-- Contexts of a slot whose tasks do not compute are freed; those that compute finish, and their results are discarded (07 R210). -/
def freeContexts (s : State) (n : Nat) : State :=
  { s with sv := { s.sv with
      tiles := s.sv.tiles.map (fun l => l.map (fun c => match c with | some x => if x.slot = n ∧ x.done then none else some x | none => none))
      staged := s.sv.staged.filter (fun q => q.slot != n) } }

/-- A solve ends: its result is held until its publication boundary (08 R252). -/
def holdResult (s : State) (n : Nat) (x : Solve) (r : Result) : State :=
  let s := freeContexts s n
  onSlot { s with sv := { s.sv with order := s.sv.order.filter (fun i => i != n) } } n (fun sl => { sl with
    solve := some { x with status := some r.status }, held := some r
    heldMem := if r.vector.isEmpty then none else some (x.iterMem, x.iterFmt) })

/-- A solve is ended from outside: the last complete iterate is returned, brought to its RESULT_BLOCK by FINISH (07 R210, 08 R248, R249). -/
def endOutside (s : State) (n : Nat) (p : SolveImage) (x : Solve) (status : Nat) : State :=
  if x.iters = 0 then holdResult s n x (resultOf p x status none [])
  else
    let w := runTasks p x x.mode (sectionOf (p.tableOf x.scope) 8).indices (writesOf x.iterMem x.iterFmt)
    holdResult s n x (resultOf p x status (some (blockFp p w.mem w.fmt p.resultBlock)) [])

/-! Sections. -/

/-- A section is entered. -/
def Solve.enter (x : Solve) (role : Nat) : Solve := { x with role := role, admitted := 0, retired := [] }

/-- A pass starts: its factorisation (07 R211, R212). A repeated attempt starts with clear flags. -/
def startPass (s : State) (n : Nat) (p : SolveImage) (x : Solve) (fp again : Bool) : State :=
  let x := if again then { x with guard := false, numeric := false, low := none } else x
  let x := { x.enter 3 with fp := fp, stay := x.stay || (fp && p.cls == 2), refine := [], xs := [], bs := [] }
  let s := onSolve s n (fun _ => x)
  if fp then { s with sv := { s.sv with fpPasses := wrap32 (s.sv.fpPasses + 1) } } else s

/-- A pass has ended and is counted: a fixed-point pass with the guard flag also as such, with its lowest block the first time (07 Table 7-8; notes/assumptions/25). -/
def Solve.countPass (x : Solve) : Solve :=
  let r := x.report
  if x.fp then { x with report := { r with fpPasses := r.fpPasses + 1 } }
  else if x.guard then
    { x with report := { r with
        fxPasses := r.fxPasses + 1, guardPasses := r.guardPasses + 1, lowest := if r.guardPasses = 0 then x.low else r.lowest } }
  else { x with report := { r with fxPasses := r.fxPasses + 1 } }

/-- A fixed-point attempt whose flags send it to binary32; a poisoned one is not repeated (07 R208, R211). -/
def Solve.goesBinary (x : Solve) : Bool := !x.fp && (x.guard || x.numeric) && !x.poison

/-- A pass ends (07 R211, R213, R208; 08 R251). -/
def endPass (s : State) (n : Nat) (p : SolveImage) (x : Solve) : State :=
  let bad := (x.refine.filter (fun r => !r.converged)).length
  let flags := b2n x.guard + 2 * b2n x.numeric + 4 * b2n x.poison
  let x := x.countPass
  if x.goesBinary then startPass s n p x true true
  else
    let x := { x with notConv := bad != 0, report := { x.report with notConv := bad, flags := flags } }
    if x.poison || (x.fp && x.numeric) then holdResult s n x (resultOf p x 0x10 none [])
    else onSolve s n (fun _ => { x.enter 7 with guard := false, numeric := false, low := none })

/-! Refinement (07 R214). The blocks of r are the targets of the RESIDUAL tasks, those of x their SRC_B; b is what a block of r is copied from, or what it holds before (notes/assumptions/25). -/

/-- The RESIDUAL tasks of a section. -/
def residuals (p : SolveImage) (x : Solve) : List SolveTask :=
  ((sectionOf (p.tableOf x.scope) 5).indices.map p.taskAt).filter (fun t => t.kind == 3)

/-- The blocks of r. -/
def residualBlocks (p : SolveImage) (x : Solve) : List Nat := distinct ((residuals p x).map (fun t => t.target))

/-- The blocks of x. -/
def solutionBlocks (p : SolveImage) (x : Solve) : List Nat := distinct ((residuals p x).map (fun t => t.srcB))

/-- The block that a block of r is copied from in the section. -/
def copiedFrom (p : SolveImage) (x : Solve) (r : Nat) : Option Nat :=
  (((sectionOf (p.tableOf x.scope) 5).indices.map p.taskAt).find? (fun t => t.kind == 4 && t.vop == 0 && t.target == r)).map (fun t => t.srcA)

/-- The contents of some blocks. -/
def keepBlocks (p : SolveImage) (mem : NMap Word) (bs : List Nat) : NMap Word :=
  bs.foldl (fun acc b => (List.range (p.blockAt b).elements).foldl (fun acc i =>
    let k := (p.blockAt b).key i
    setD 0 acc k (getD 0 mem k)) acc) []

/-- Elements of some blocks take kept values, those of one column, or of all. -/
def restoreBlocks (p : SolveImage) (kept mem : NMap Word) (bs : List Nat) (col : Option Nat) : NMap Word :=
  bs.foldl (fun mem b =>
    let d := p.blockAt b
    (List.range d.elements).foldl (fun mem i =>
      match col with
      | some c => if i / d.rows = c then setD 0 mem (d.key i) (getD 0 kept (d.key i)) else mem
      | none => setD 0 mem (d.key i) (getD 0 kept (d.key i))) mem) mem

/-- The magnitude of a stored element in units of 2^−300; an infinity or a NaN is above all others. -/
def magnitude (fp : Bool) (scale : Int) (v : Word) : Nat :=
  if fp then
    match binary32.unpack v.toNat with
    | .num _ m e => m * 2 ^ (e + 300).toNat
    | _ => 2 ^ 1000
  else (sint v).natAbs * 2 ^ (scale + 300).toNat

/-- maxabs of column c of some blocks. -/
def maxAbs (p : SolveImage) (mem : NMap Word) (fmt : List Nat) (bs : List Nat) (c : Nat) : Nat :=
  maxOf (bs.flatMap (fun b =>
    let d := p.blockAt b
    ((List.range d.elements).filter (fun i => i / d.rows == c)).map (fun i => magnitude (fmt.contains b) d.scale (getD 0 mem (d.key i)))))

/-- r > limit, with limit = 2^TOL × maxabs(b). -/
def aboveLimit (p : SolveImage) (r b : Nat) : Bool := decide (b < r * 2 ^ (-p.tol).toNat)

/-- The section RESIDUAL is entered: blocks of r without a copy start from b (07 R214). -/
def enterResidual (s : State) (n : Nat) (p : SolveImage) (x : Solve) : State :=
  let own := (residualBlocks p x).filter (fun b => (copiedFrom p x b).isNone)
  let sl := solveSlot s n
  if x.refine.isEmpty then
    let w := own.foldl (fun w b => w.prepare p x.fp b (fun _ => false)) (writesOf sl.mem sl.fmt)
    let x := { x.enter 5 with bs := keepBlocks p w.mem own }
    onSlot s n (fun sl => { sl with mem := w.mem, fmt := w.fmt, solve := some x })
  else onSlot s n (fun sl => { sl with mem := restoreBlocks p x.bs sl.mem own none, solve := some (x.enter 5) })

/-- maxabs of b in a column. -/
def maxAbsB (p : SolveImage) (x : Solve) (mem : NMap Word) (fmt : List Nat) (c : Nat) : Nat :=
  maxOf ((residualBlocks p x).map (fun b =>
    match copiedFrom p x b with
    | some a => maxAbs p mem fmt [a] c
    | none => maxAbs p x.bs fmt [b] c))

/-- One right-hand side after r has been formed. -/
def refineStep (p : SolveImage) (first : Bool) (r : Refine) (mr mb : Nat) : Refine :=
  let above := aboveLimit p mr mb
  if first then { going := above, converged := !above, steps := 0, last := mr }
  else if !r.going then r
  else
    let steps := r.steps + 1
    if r.last ≤ mr then { r with going := false, converged := false, steps := steps }
    else { going := above && decide (steps < p.refineMax), converged := !above, steps := steps, last := mr }

/-- RESIDUAL has ended: refinement goes on with CORRECT, or the pass ends. -/
def afterResidual (s : State) (n : Nat) (p : SolveImage) (x : Solve) : State :=
  let sl := solveSlot s n
  let cols := maxOf ((residuals p x).map (fun t => t.nrhs))
  let first := x.refine.isEmpty
  let new := (List.range cols).map (fun c =>
    refineStep p first (nth { going := false, converged := true, steps := 0, last := 0 } x.refine c)
      (maxAbs p sl.mem sl.fmt (residualBlocks p x) c) (maxAbsB p x sl.mem sl.fmt c))
  let made := if first then 0 else (x.refine.filter (fun r => r.going)).length
  let sols := solutionBlocks p x
  let undone := (indexed new).filter (fun q =>
    let was := nth { going := false, converged := true, steps := 0, last := 0 } x.refine q.1
    !first && (!was.going || (!q.2.going && !q.2.converged && q.2.last == was.last)))
  let mem := undone.foldl (fun m q => restoreBlocks p x.xs m sols (some q.1)) sl.mem
  let x := { x with refine := new, report := { x.report with refSteps := x.report.refSteps + made } }
  let s := onSlot s n (fun sl => { sl with mem := mem })
  if new.any (fun r => r.going) && (p.tableOf x.scope).any (fun t => t.role == 6) then
    onSolve s n (fun _ => { x.enter 6 with xs := keepBlocks p mem sols })
  else endPass s n p x

/-! Iteration boundaries (08 R235, R247, R251). -/

/-- A binary32 pattern as an exact number. -/
def exactOf (w : Word) : Option Dyadic :=
  match binary32.unpack w.toNat with
  | .num neg m e => some { m := if neg then -(m : Int) else m, e := e }
  | _ => none

/-- a ≤ 2^eps × (k + |b|), exactly where all are finite. -/
def withinEps (eps : Int) (a : Word) (k : Nat) (b : Word) : Bool :=
  match exactOf a, exactOf b with
  | some x, some y =>
    let r : Dyadic := ({ m := k, e := 0 } : Dyadic).add { y with m := y.m.natAbs }
    !(Dyadic.lt { r with e := r.e + eps } x)
  | _, _ => fle a (fmul (word (binary32.ofInt 1 eps)) (fadd (fofInt k) (fabs b)))

/-- a ≤ 2^eps × b. -/
def withinProduct (eps : Int) (a b : Word) : Bool :=
  match exactOf a, exactOf b with
  | some x, some y => !(Dyadic.lt { y with e := y.e + eps } x)
  | _, _ => fle a (fmul (word (binary32.ofInt 1 eps)) b)

/-- The tests at an iteration boundary, in the order of R251: the status met, if any (08 R235). -/
def testsMet (p : SolveImage) (conv : List Word) (iters budget : Nat) : Option Nat :=
  let e := fun (i : Nat) => nth 0 conv i
  let small := fun (i : Nat) => withinEps p.epsExp (e i) 1 0
  if p.cls = 2 && withinProduct p.epsExp (e 5) (e 6) && small 4 then some 0x02
  else if p.cls = 2 && withinProduct p.epsExp (e 5) (e 6) && small 7 then some 0x03
  else if p.cls = 2 && small 0 && small 1 && withinEps p.epsExp (e 2) 1 (e 3) then some 0x01
  else if p.cls = 0 && small 4 then some 0x00
  else if p.cls = 1 && small 0 && small 4 then some 0x00
  else if budget ≤ iters then some 0x04
  else none

/-- DEGRADED replaces SOLVED, OPTIMAL and BUDGET where the pass ended not converged (08 R251). -/
def degraded (status : Nat) (notConv : Bool) : Nat :=
  if notConv && [0x00, 0x01, 0x04].contains status then 0x05 else status

/-- The iteration boundary. -/
def iterationEnds (s : State) (n : Nat) (p : SolveImage) (x : Solve) : State :=
  let sl := solveSlot s n
  let conv := (List.range 8).map (elementFp p sl.mem sl.fmt p.convBlock)
  let x := { x with iters := x.iters + 1, conv := conv, iterMem := sl.mem, iterFmt := sl.fmt }
  match testsMet p conv x.iters x.budget with
  | none => onSolve s n (fun _ => { x.enter 2 with fp := x.stay })
  | some v =>
    let v := degraded v x.notConv
    onSolve s n (fun _ => { x.enter (if v = 2 ∨ v = 3 then 9 else 8) with verdict := some v })

/-- FINISH has ended. -/
def finishEnds (s : State) (n : Nat) (p : SolveImage) (x : Solve) : State :=
  let sl := solveSlot s n
  let v := x.verdict.getD 0x04
  let certs := if v = 2 ∨ v = 3 then certEntries p sl.mem sl.fmt (v == 3) else []
  holdResult s n x (resultOf p x v (some (blockFp p sl.mem sl.fmt p.resultBlock)) certs)

/-- The last task of a section has retired (08 R235). -/
def sectionEnds (s : State) (n : Nat) (p : SolveImage) (x : Solve) : State :=
  match x.role with
  | 1 => onSolve s n (fun _ => x.enter 2)
  | 2 => startPass s n p x x.stay false
  | 3 => if x.goesBinary then startPass s n p x.countPass true true else onSolve s n (fun _ => x.enter 4)
  | 4 => if (residuals p x).isEmpty then endPass s n p x else enterResidual s n p x
  | 5 => afterResidual s n p x
  | 6 => enterResidual s n p x
  | 7 => iterationEnds s n p x
  | 9 => onSolve s n (fun _ => x.enter 8)
  | _ => finishEnds s n p x

/-- Sections without a task end at once. -/
def settleSections (fuel : Nat) (s : State) (n : Nat) : State :=
  match fuel with
  | 0 => s
  | f + 1 =>
    match runningSolve s n with
    | none => s
    | some (p, x) => if (currentSection p x).count ≤ x.retired.length then settleSections f (sectionEnds s n p x) n else s

/-- The number of empty sections that can follow one another in a solve. -/
def sectionFuel (p : SolveImage) : Nat := 64 * (p.iterMax + 2)

/-! Operands and binding (08 R218 to R223, R256, R257). -/

/-- The points that a solve of a program may read: its operands, and the boundary points of the ports of its scopable groups. -/
def readPoints (n : NetImage) (p : SolveImage) : List Nat :=
  let bp := (p.groups.filter (fun g => g.scopable)).flatMap (fun g =>
    let d := n.unitAt g.unit
    (List.range d.portCount).flatMap (fun i =>
      (List.range (if p.cls = 1 then 2 else 5)).map (fun r =>
        (nth { group := 0, index := 0, inner := 0, outer := 0, bpFirst := 0 } n.ports (fld d.tspec 0 13 + i)).bpFirst + r)))
  p.operands.map (fun o => o.point) ++ bp

/-- A point in a snapshot: TX and PROGRAM points from the output image, all others from the input image of the cycle (08 R218). -/
def snapEntry (s : State) (n : NetImage) (p : Nat) : Entry :=
  match (n.pointAt p).kind with
  | 0 => Entry.none
  | 2 | 3 => getD Entry.reset s.pt.output p
  | _ => getD Entry.reset (progInput s) p

/-- The snapshot of a slot at the boundary of cycle k. -/
def snapNow (s : State) (n : NetImage) (p : SolveImage) (k : Nat) : Snap :=
  { cycle := k
    ents := (readPoints n p).foldl (fun m q => insertAt m q (snapEntry s n q)) []
    oos := (List.range n.units.length).filter (fun u => (runIn (progUnits s) u).out) }

/-- The snapshots of a boundary: of every SE and HY slot, and of DP slots at a SLOW boundary (08 R218). Earlier ones are kept for requests of executions that overrun; the one of a SLOW boundary whose release is then skipped is dropped. -/
def snapshots (s : State) (n : NetImage) (k : Nat) (slow : Bool) : State :=
  { s with sv := { s.sv with slots := s.sv.slots.map (fun sl =>
      match sl.img with
      | none => sl
      | some p =>
        if p.cls = 2 then (if slow then { sl with snaps := (snapNow s n p k :: sl.snaps).take 2 } else sl)
        else { sl with snaps := (snapNow s n p k :: sl.snaps).take 10 }) } }

/-- The snapshot of a binding boundary. -/
def snapFor (s : State) (n : NetImage) (sl : SolveSlot) (p : SolveImage) (k : Nat) : Snap :=
  match sl.snaps.find? (fun x => x.cycle == k) with
  | some x => x
  | none => match sl.snaps with | x :: _ => x | [] => snapNow s n p k

/-- The entry of a point in a snapshot. -/
def Snap.at_ (x : Snap) (p : Nat) : Entry := (lookup x.ents p).getD Entry.none

/-- A unit is out of service in a snapshot. -/
def Snap.out (x : Snap) (u : Nat) : Bool := x.oos.contains u

/-- Measurements of units in service, and those of them that are not GOOD (08 R223). -/
def measurements (n : NetImage) (p : SolveImage) (x : Snap) : Nat × Nat :=
  let l := (p.operands.filter (fun o => o.meas && !x.out (n.pointAt o.point).unit)).map (fun o => x.at_ o.point)
  (l.length, (l.filter (fun e => qState e.quality != 0)).length)

/-- The group entry of a scope. -/
def SolveImage.group (p : SolveImage) (u : Nat) : Option GroupRec := p.groups.find? (fun g => g.unit == u)

/-- The boundary points of a group, port by port and role by role (08 R257). -/
def boundaryPoints (n : NetImage) (p : SolveImage) (g : GroupRec) : List Nat :=
  let d := n.unitAt g.unit
  (List.range d.portCount).flatMap (fun i =>
    (List.range (if p.cls = 1 then 2 else 5)).map (fun r =>
      (nth { group := 0, index := 0, inner := 0, outer := 0, bpFirst := 0 } n.ports (fld d.tspec 0 13 + i)).bpFirst + r))

/-- The check at binding fails: INPUT_INVALID (08 R220, R223, R257). -/
def inputInvalid (n : NetImage) (p : SolveImage) (x : Snap) (scope : Nat) : Bool :=
  let fpOf := fun (q : Nat) => (n.pointAt q).typ == 3
  let bad := if p.cls = 0 then
      let m := measurements n p x
      m.1 == 0 || decide (p.obsLimit * m.1 < m.2 * 1000)
    else p.operands.any (fun o => !o.meas && !x.out (n.pointAt o.point).unit && !usableEntry (fpOf o.point) (x.at_ o.point))
  bad || (match p.group scope with
    | some g => scope != 0 && (boundaryPoints n p g).any (fun q => !usableEntry (fpOf q) (x.at_ q))
    | none => false)

/-- The weight of a measurement, to the nearest binary32 (08 Table 8-4). -/
def weightOf (out : Bool) (e : Entry) (sigma : Word) : Word :=
  if out then 0
  else
    match qState e.quality, binary32.unpack sigma.toNat with
    | 0, .num _ m x => word (binary32.pack false 1 (m * m) (-2 * x))
    | 1, .num _ m x => if e.age ≤ 15 then word (binary32.pack false 1 (m * m) (-2 * x - e.age)) else 0
    | _, _ => 0

/-- A point's value as binary32 (08 R219). -/
def operandWord (n : NetImage) (p : Nat) (e : Entry) : Word := (convWord (n.pointAt p).sigType tFp e.value).value

/-- The contents of the blocks of a program at its load: the initial data, block by block (08 Table 8-6; notes/assumptions/25). -/
def initialBlocks (p : SolveImage) : NMap Word :=
  ((List.range p.blocks.length).foldl (fun (acc : NMap Word × List Word) b =>
    let n := (p.blockAt b).elements
    (putRaw p b 0 acc.1 (acc.2.take n), acc.2.drop n)) ([], p.initData)).1

/-- The units of a program's scope with a type, and whether they are out of service in a snapshot. -/
def scopeUnits (n : NetImage) (p : SolveImage) (x : Snap) (types : List Nat) : List (Nat × Bool) :=
  ((List.range n.units.length).filter (fun u =>
    decide (p.scopeRoot ≤ u ∧ u ≤ (n.unitAt p.scopeRoot).subtreeEnd) && types.contains (n.unitAt u).typ)).map (fun u => (u, x.out u))

/-- A term at binding: a binary32 value, or what the program compiled. -/
structure TermSet where
  term : Config.SolveTerm
  value : Option Word

/-- The weights of SE, in operand order (08 R223, Table 8-4; a unit out of service gives weight 0 by Table 8-3). -/
def weightTerms (n : NetImage) (p : SolveImage) (x : Snap) : List TermSet :=
  (indexed (p.operands.filter (fun o => o.meas))).map (fun q =>
    { term := .weight q.1, value := some (weightOf (x.out (n.pointAt q.2.point).unit) (x.at_ q.2.point) q.2.sigma) })

/-- A term that is 0 while its unit is out of service. -/
def zeroTerm (f : Nat → Config.SolveTerm) (q : Nat × Bool) : TermSet := { term := f q.1, value := if q.2 then some 0 else none }

/-- A node left with no branch in service: diagonal 1, right-hand side 0 (08 Table 8-3). -/
def nodeTerms (p : SolveImage) (x : Snap) : List TermSet :=
  (List.range p.kktRows).flatMap (fun r =>
    let bs := Config.branchesOf p.header r
    let alone := !bs.isEmpty && bs.all x.out
    if bs.isEmpty then []
    else [{ term := .diagonal r, value := if alone then some (fofInt 1) else none }, { term := .rightSide r, value := if alone then some 0 else none }])

/-- The terms that binding sets, by class (08 Tables 8-3 and 8-4). -/
def boundTerms (n : NetImage) (p : SolveImage) (x : Snap) : List TermSet :=
  match p.cls with
  | 0 => weightTerms n p x
  | 1 =>
    let branches := scopeUnits n p x [1, 6, 4, 5]
    branches.map (zeroTerm .branch) ++ (branches.filter (fun q => q.2)).map (zeroTerm .flow) ++
    (scopeUnits n p x [2, 3]).map (zeroTerm .injection) ++ nodeTerms p x
  | _ => (scopeUnits n p x [2, 3, 4, 5]).map (zeroTerm .upper)

/-- A value written to an element in the format that its block has (07 R197). -/
def putElement (p : SolveImage) (fmt : List Nat) (mem : NMap Word) (at_ : Nat × Nat) (v : Word) : NMap Word :=
  let d := p.blockAt at_.1
  setD 0 mem (d.key at_.2) (recoded (fmt.contains at_.1) true d.scale v)

/-- A term is set at its places. -/
def putTerm (p : SolveImage) (fmt : List Nat) (init mem : NMap Word) (t : TermSet) : NMap Word :=
  (Config.termPlaces p.header t.term).foldl (fun m q =>
    putElement p fmt m q (match t.value with | some v => v | none => elementFp p init [] q.1 q.2)) mem

/-- The block contents with which a solve starts: those of the last iterate published GOOD, the operands, the weights, the terms of units out of service, and the boundary values (08 R219, R221 to R225, R257; notes/assumptions/25). -/
def boundMemory (n : NetImage) (p : SolveImage) (sl : SolveSlot) (x : Snap) (scope : Nat) : NMap Word × List Nat :=
  let ops := p.operands.map (fun o => operandWord n o.point (x.at_ o.point))
  let mem := if p.operands.isEmpty then sl.prior else putRaw p p.operandBlock 0 sl.prior ops
  let fmt := if p.operands.isEmpty ∨ sl.priorFmt.contains p.operandBlock then sl.priorFmt else p.operandBlock :: sl.priorFmt
  let mem := (boundTerms n p x).foldl (putTerm p fmt (initialBlocks p)) mem
  match p.group scope with
  | some g =>
    if scope = 0 then (mem, fmt)
    else
      let vs := (boundaryPoints n p g).map (fun q => operandWord n q (x.at_ q))
      (putRaw p g.bcBlock 0 mem (vs.take (p.blockAt g.bcBlock).elements), if fmt.contains g.bcBlock then fmt else g.bcBlock :: fmt)
  | none => (mem, fmt)

/-- A solve before its first task. -/
def newSolve (cycle scope budget backstop pub notGood : Nat) : Solve :=
  { cycle := cycle, scope := scope, role := 1, iters := 0, fp := false, stay := false, guard := false, numeric := false
    poison := false, low := none, admitted := 0, retired := [], refine := [], xs := [], bs := []
    conv := List.replicate 8 0, iterMem := [], iterFmt := [], notConv := false, verdict := none, status := none
    budget := budget, backstop := backstop, pubCycle := pub, notGood := notGood, report := .zero }

/-- CODE of a request (06 Table 6-13, 08 R256). -/
def requestCode (s : State) (n : NetImage) (en : Bool) (slot cls scope k : Nat) : Nat :=
  let sl := solveSlot s slot
  if !en then 1
  else
    match sl.img with
    | none => 3
    | some p =>
      if p.cls ≠ cls ∨ s.sv.reqs.any (fun r => r.slot == slot) then 3
      else if sl.solve.isSome then 2
      else if scope = 0 ∨ scope = p.scopeRoot then 0
      else
        match p.group scope with
        | some g => if p.cls ≠ 2 ∧ g.scopable ∧ !(snapFor s n sl p k).out scope then 0 else 4
        | none => 4

/-- A solve is bound to the boundary of an execution's release; no context holds a task of the slot's solve before, whose tasks ended within 50 µs (07 R210; 08 R218 to R223, R243 to R248). -/
def bindSolve (s : State) (n : NetImage) (slot scope : Nat) (e : Exec) : State :=
  let sl := solveSlot s slot
  match sl.img with
  | none => s
  | some p =>
    let scope := if scope = p.scopeRoot then 0 else scope
    let x := snapFor s n sl p e.cycle
    let len := cycleLen s
    let backstop := (e.release - 250) + backstopOf len (residents s) p
    let delay := if p.cls = 2 then p.publishDelay else 1
    let sol := newSolve e.cycle scope (budgetOf len (residents s) p) backstop (laterCount (e.cycle + delay) (relCycle s + 1))
      (if p.cls = 0 then (measurements n p x).2 else 0)
    let s := { s with sv := { s.sv with
        order := s.sv.order ++ [slot]
        poison := s.sv.poison.filter (fun q => q.1 != slot)
        tiles := s.sv.tiles.map (fun l => l.map (fun c => match c with | some y => if y.slot = slot then none else some y | none => none)) } }
    if inputInvalid n p x scope then holdResult s slot sol (resultOf p sol 0x13 none [])
    else if backstop < s.clk.nt then holdResult s slot sol (resultOf p sol 0x11 none [])
    else
      let m := boundMemory n p sl x scope
      settleSections (sectionFuel p) (onSlot s slot (fun sl => { sl with mem := m.1, fmt := m.2, solve := some sol })) slot

/-! The window, the tiles and the staging engine (07 R204 to R209). -/

/-- Priority-1 solves before priority-2 solves, each in the order of their requests (07 R209). -/
def servedOrder (s : State) : List Nat :=
  let dp := fun (n : Nat) => match (solveSlot s n).img with | some p => p.cls == 2 | none => false
  let run := s.sv.order.filter (fun n => (runningSolve s n).isSome)
  run.filter (fun n => !dp n) ++ run.filter dp

/-- Window entries that a slot holds. -/
def windowOf (s : State) (n : Nat) : Nat := match runningSolve s n with | some (_, x) => x.admitted - x.retired.length | none => 0

/-- The occupancy of the window. -/
def windowUsed (s : State) : Nat := sumOf ((List.range 4).map (windowOf s))

/-- Tasks are admitted in ascending list index while window entries are free, at most 384 of priority 2 (07 R204, R209). -/
def admitTasks (s : State) : State :=
  let s := (servedOrder s).foldl (fun s n =>
    match runningSolve s n with
    | none => s
    | some (p, x) =>
      let used := windowUsed s
      let dp := sumOf (((List.range 4).filter (fun i => match (solveSlot s i).img with | some q => q.cls == 2 | none => false)).map (windowOf s))
      let room := if p.cls = 2 then Nat.min (512 - used) (384 - dp) else 512 - used
      onSolve s n (fun x => { x with admitted := Nat.min (currentSection p x).count (x.admitted + room) })) s
  { s with sv := { s.sv with winMax := Nat.max s.sv.winMax (windowUsed s) } }

/-- A task is held in a context. -/
def inContext (s : State) (n i : Nat) : Bool :=
  s.sv.tiles.any (fun l => l.any (fun c => match c with | some x => x.slot == n && x.task == i | none => false))

/-- The staging slot that holds a block. -/
def stageOf (s : State) (n b : Nat) : Option StageSlot := s.sv.staged.find? (fun q => q.slot == n && q.block == b)

/-- A bulk-homed block is in a staging slot; a block of the central store needs none (07 R207). -/
def inStage (s : State) (n : Nat) (p : SolveImage) (b : Nat) : Bool :=
  b == noBlock || !(p.blockAt b).bulk || (stageOf s n b).isSome

/-- A task named by another has retired: in the section being run, or in a section before it (07 R199, R203). -/
def hasRetired (p : SolveImage) (x : Solve) (d : Nat) : Bool := !(currentSection p x).indices.contains d || x.retired.contains d

/-- A task is ready (07 Table 7-7), its bulk-homed sources staged. -/
def taskReady (s : State) (n : Nat) (p : SolveImage) (x : Solve) (i : Nat) : Bool :=
  let t := p.taskAt i
  !x.retired.contains i && !inContext s n i && t.deps.all (hasRetired p x) &&
  (match t.accPrev with | none => true | some a => hasRetired p x a || inContext s n a) &&
  inStage s n p t.srcA && inStage s n p t.srcB

/-- The ready task of lowest list index of a slot. -/
def readyTask (s : State) (n : Nat) : Option (SolveImage × Solve × Nat) :=
  match runningSolve s n with
  | none => none
  | some (p, x) =>
    let sec := currentSection p x
    (((List.range x.admitted).map (fun i => sec.first + i)).find? (taskReady s n p x)).map (fun i => (p, x, i))

/-! Poisoned words (07 R208): marks of a slot and an element key; the first read of the element takes 0 and the mark with it. -/

/-- The keys of a slot that are marked. -/
def poisonKeys (s : State) (n : Nat) : List Nat := (s.sv.poison.filter (fun q => q.1 == n)).map (fun q => q.2)

/-- The marks that a read of some blocks takes. -/
def poisonTaken (s : State) (n : Nat) (p : SolveImage) (bs : List Nat) : State :=
  let keys := bs.flatMap (fun b => if b = noBlock then [] else (List.range (p.blockAt b).elements).map (fun i => (p.blockAt b).key i))
  { s with sv := { s.sv with poison := s.sv.poison.filter (fun q => q.1 != n || !keys.contains q.2) } }

/-- The elements of a block with those marked as 0. -/
def poisonMask (p : SolveImage) (keys : List Nat) (b : Nat) (vs : List Word) : List Word :=
  (indexed vs).map (fun q => if keys.contains ((p.blockAt b).key q.1) then 0 else q.2)

/-- The contents of a block with the elements marked as 0. -/
def poisonZero (p : SolveImage) (keys : List Nat) (b : Nat) (mem : NMap Word) : NMap Word :=
  (List.range (p.blockAt b).elements).foldl (fun m i => if keys.contains ((p.blockAt b).key i) then setD 0 m ((p.blockAt b).key i) 0 else m) mem

/-- A context of a tile is set. -/
def setCtx (s : State) (tile ctx : Nat) (c : Option TileCtx) : State :=
  { s with sv := { s.sv with tiles := modifyNth s.sv.tiles tile (fun l => setNth l ctx c) } }

/-- A task is dispatched: the tile loads its sources. -/
def dispatchTask (s : State) (tile ctx n : Nat) (p : SolveImage) (x : Solve) (i : Nat) : State :=
  let sl := solveSlot s n
  let t := p.taskAt i
  let l := loadTask p t (writesOf sl.mem sl.fmt)
  let keys := poisonKeys s n
  let c : TileCtx :=
    { slot := n, task := i, fp := x.mode, srcA := poisonMask p keys t.srcA l.a, srcB := poisonMask p keys t.srcB l.b
      fmtA := l.fmtA, fmtB := l.fmtB, since := s.clk.nt, done := false }
  setCtx (if t.kind = 0 then s else poisonTaken s n p [t.srcA, t.srcB]) tile ctx (some c)

/-- The context of a tile. -/
def ctxAt (s : State) (tile ctx : Nat) : Option TileCtx := nth none (nth [] s.sv.tiles tile) ctx

/-- A block that a task writes: its target, and of FACTOR the blocks of L·D and of the reciprocals (07 Table 7-3). -/
def SolveTask.writes (t : SolveTask) (b : Nat) : Bool := t.target == b || (t.kind == 0 && (t.srcA == b || t.srcB == b))

/-- No task of the section that has not retired needs a block. -/
def stageDone (p : SolveImage) (x : Solve) (b : Nat) : Bool :=
  !((currentSection p x).indices.any (fun i => !x.retired.contains i && (let t := p.taskAt i; t.srcA == b || t.srcB == b || t.target == b)))

/-- A staging slot that no task of the section needs any more, and that holds nothing to copy back, is free (07 R207). -/
def freeStages (s : State) (n : Nat) (p : SolveImage) (x : Solve) : State :=
  { s with sv := { s.sv with staged := s.sv.staged.filter (fun q => q.slot != n || q.dirty || !stageDone p x q.block) } }

/-- A task retires, and its section ends with its last task. A staging slot of its target is to be copied back. -/
def retire (s : State) (n : Nat) (p : SolveImage) (x : Solve) (c : TileCtx) : State :=
  let sl := solveSlot s n
  let t := p.taskAt c.task
  let mem := poisonZero p (poisonKeys s n) t.target sl.mem
  let w := retireTask p c.fp (pivotRule p x c.task) t { a := c.srcA, b := c.srcB, fmtA := c.fmtA, fmtB := c.fmtB } (writesOf mem sl.fmt)
  let counts := decide (x.role ≤ 7)
  let x := { x with
    retired := x.retired ++ [c.task]
    guard := x.guard || (counts && w.guard)
    numeric := x.numeric || (counts && w.numeric)
    low := if counts then (match x.low, w.low with | some i, some j => some (Nat.min i j) | some i, none => some i | none, y => y) else x.low
    report := if counts then { x.report with sats := x.report.sats + w.sats, pivots := x.report.pivots + w.pivots } else x.report }
  let s := poisonTaken s n p [t.target]
  let s := { s with sv := { s.sv with staged := s.sv.staged.map (fun q => if q.slot = n ∧ t.writes q.block then { q with dirty := true } else q) } }
  let s := freeStages (onSlot s n (fun sl => { sl with mem := w.mem, fmt := w.fmt, solve := some x })) n p x
  if x.retired.length < (currentSection p x).count then s else settleSections (sectionFuel p) s n

/-- Bytes of a block. -/
def blockBytes (p : SolveImage) (b : Nat) : Nat := 4 * (p.blockAt b).elements

/-- The blocks that a task needs in staging slots and that are in none. -/
def stageMissing (s : State) (n : Nat) (p : SolveImage) (i : Nat) : List Nat :=
  let t := p.taskAt i
  [t.srcA, t.srcB, t.target].filter (fun b => !inStage s n p b)

/-- The block is one that the staging engine copies next: it works ahead in ascending list index, up to STAGE_AHEAD tasks beyond the lowest unretired task (07 R207). -/
def stageNext (s : State) (n : Nat) (p : SolveImage) (x : Solve) (b : Nat) : Bool :=
  let open_ := (currentSection p x).indices.filter (fun i => !x.retired.contains i)
  match open_ with
  | [] => false
  | lo :: _ =>
    match (open_.filter (fun i => decide (i ≤ lo + p.stageAhead))).find? (fun i => !(stageMissing s n p i).isEmpty) with
    | some i => (stageMissing s n p i).contains b
    | none => false

/-- A target can go back to bulk memory: the last task of its chain has retired. -/
def chainRetired (p : SolveImage) (x : Solve) (b : Nat) : Bool :=
  !((currentSection p x).indices.any (fun i => !x.retired.contains i && (p.taskAt i).writes b))

/-! Publication (08 R250, R252, R253). -/

/-- The class of the fault of a status (08 Table 8-12). -/
def statusClass (status : Nat) : Nat :=
  match status with
  | 0x02 | 0x03 | 0x10 | 0x13 => 2
  | 0x04 | 0x05 | 0x12 => 1
  | 0x11 => 3
  | _ => 0

/-- The quality state of element i of a published result (08 R250, R257). -/
def Result.state (r : Result) (i : Nat) : Nat :=
  match r.fresh with
  | some e => if inExtent e i then 0 else if (nth none r.vector i).isSome then 2 else 7
  | none => if (nth none r.vector i).isSome then 2 else 7

/-- The vector of a result at its publication: elements that the solve gave, the others as published before. -/
def mergedVector (r : Result) (was : Option Result) : List (Option Word) :=
  let old := match was with | some w => w.vector | none => []
  (List.range r.len).map (fun i =>
    match r.fresh with
    | some e => if inExtent e i then nth none r.vector i else nth none old i
    | none => nth none old i)

/-- The entry of a SOLVER point after a publication of its slot; an element never published leaves its value (08 R253). -/
def solverEntry (s : State) (n : NetImage) (r : Result) (p : Nat) : Entry :=
  let d := n.pointAt p
  let i := fld d.source 2 19
  let held := (trackOf s p).entry
  let make := fun (st : Nat) (v : Word) (overrange : Bool) =>
    let x := convWord tFp d.sigType v
    ({ value := x.value, quality := setBit (mkQuality st x.limit (x.overrange || overrange)) 6 s.rp.running, age := if st = 0 then 0 else held.age } : Entry)
  if r.len ≤ i then make 6 nan32 true
  else
    match nth none r.vector i with
    | some v => make (r.state i) v false
    | none => { held with quality := setBit (7 + qFlags held.quality) 6 s.rp.running }

/-- The contents of the last iterate published GOOD, once a result with an iterate of its own is published; a group-scoped SE updates the state only within the range of its group (08 R224, R225, R257). -/
def priorAfter (p : SolveImage) (sl : SolveSlot) (r : Result) : NMap Word × List Nat :=
  match sl.heldMem with
  | none => (sl.prior, sl.priorFmt)
  | some m =>
    if p.cls = 0 ∧ r.scope ≠ 0 then
      let rows := match p.group r.scope with | some g => (List.range g.range.2).map (fun i => g.range.1 + i) | none => []
      (rows.foldl (fun mem i =>
        let q := Config.statePlace p.header i
        putElement p sl.priorFmt mem q (elementFp p m.1 m.2 q.1 q.2)) sl.prior, sl.priorFmt)
    else m

/-- A held result is published at the boundary of cycle k, at its NT. -/
def publishResult (s : State) (n : NetImage) (slot k nt : Nat) (r : Result) : State :=
  let sl := solveSlot s slot
  let r := { r with pub := wrap32 k, vector := mergedVector r sl.pub }
  let prior := match sl.img with | some p => priorAfter p sl r | none => (sl.prior, sl.priorFmt)
  let s := onSlot s slot (fun sl => { sl with
    pub := some r, held := none, heldMem := none, solve := none, prior := prior.1, priorFmt := prior.2 })
  let s := { s with sv := { s.sv with order := s.sv.order.filter (fun i => i != slot) } }
  let s := ((pointsOf n 5).filter (fun p => fld (n.pointAt p).source 0 2 == slot)).foldl (fun s p => putSolver s p (solverEntry s n r p)) s
  let s := if r.status = 0x11 then noteExc s 0 else if r.status = 0x12 then noteExc s 2 else s
  raiseFaultAt s 0x0140 (statusClass r.status) 2 [word (slot + 256 * r.status), word r.seq, word r.pub, word r.iters] nt (wrap32 k) s.rp.running

/-- A solve whose backstop has passed is ended, and a FINISH in progress is completed, before its publication. -/
def overdue (s : State) (slot : Nat) : State :=
  match runningSolve s slot with
  | none => s
  | some (p, x) =>
    if x.role = 8 then
      let rest := (currentSection p x).indices.filter (fun i => !x.retired.contains i)
      let sl := solveSlot s slot
      let w := runTasks p x x.mode rest (writesOf sl.mem sl.fmt)
      finishEnds (onSlot s slot (fun sl => { sl with mem := w.mem, fmt := w.fmt })) slot p x
    else if x.backstop ≤ s.clk.nt then endOutside s slot p x 0x11
    else s

/-- The results due at the boundary of cycle k are published; those of SE and HY wait while an exchange is withheld (08 R252, 01 R37). -/
def publishDueResults (s : State) (n : NetImage) (k nt : Nat) (withheld : Bool) : State :=
  (List.range 4).foldl (fun s slot =>
    match (solveSlot s slot).img, (solveSlot s slot).solve with
    | some p, some x =>
      if countBefore k x.pubCycle || (withheld && p.cls != 2) then s
      else
        let s := overdue s slot
        match (solveSlot s slot).held with
        | some r => publishResult s n slot k nt r
        | none => s
    | _, _ => s) s

/-! SOLVE_REQ and SOLVE_GET (06 R186, R187). -/

/-- The CODE that a SOLVE_REQ gets. -/
def Ctx.code (c : Ctx) : Nat :=
  requestCode c.s c.net (c.flag 0) (c.param 0).toNat (c.param 1).toNat (c.param 2).toNat c.exec.cycle

/-- SOLVE_REQ: ACC and CODE. -/
def solveReqBlock (c : Ctx) : BlkOut := BlkOut.of [goodSig (b2n (c.code == 0)), goodSig c.code]

/-- An accepted request is bound. -/
def solveReqEffect (c : Ctx) (_o : BlkOut) (s : State) : State :=
  if c.code = 0 then bindSolve s c.net (c.param 0).toNat (c.param 2).toNat c.exec else s

/-- SOLVE_GET: an element of the last result published at or before the boundary of the release. -/
def solveGetBlock (c : Ctx) : BlkOut :=
  let i := (c.param 1).toNat
  match nth none c.exec.pubs (c.param 0).toNat with
  | none => BlkOut.of [{ value := 0, quality := 7 }, goodSig 0x100, goodSig 0, goodSig 0]
  | some r =>
    let out : Sig := if r.len ≤ i then { value := nan32, quality := mkQuality 6 false true }
      else { value := (nth none r.vector i).getD 0, quality := r.state i }
    BlkOut.of [out, goodSig r.status, goodSig r.seq, goodSig r.pub]

/-! Meanings. -/

/-- SOLVE_REQ (06 R186). -/
def execSolveReq (core : Nat) (s : State) : Out := runEffect s core 0x3C solveReqBlock solveReqEffect

/-- SOLVE_GET (06 R187). -/
def execSolveGet (core : Nat) (s : State) : Out := runBlock s core 0x3D solveGetBlock

/-- The solver computes: RUN, not the hardware safe state. -/
def solverRuns (s : State) : Bool := cycling s && !s.ft.hwsafe

/-- TASK_DISPATCH: a free context of the tile receives the ready task of lowest list index, by priority (07 R205, R209). -/
def execTaskDispatch (tile : Nat) (s : State) : Out :=
  if !solverRuns s then done s
  else
    let s := admitTasks s
    match (indexed (nth [] s.sv.tiles tile)).find? (fun q => q.2.isNone), (servedOrder s).find? (fun n => (readyTask s n).isSome) with
    | some q, some n =>
      match readyTask s n with
      | some (p, x, i) => done (dispatchTask s tile q.1 n p x i)
      | none => done s
    | _, _ => done s

/-- TASK_COMPUTE_DONE: the task of a context has computed for its compiled cycles; the result of a solve that has ended is discarded (07 R204, R206, R210). -/
def execTaskComputeDone (tile ctx : Nat) (s : State) : Out :=
  match ctxAt s tile ctx with
  | none => done s
  | some c =>
    if c.done || !solverRuns s then done s
    else
      match runningSolve s c.slot with
      | none => done (setCtx s tile ctx none)
      | some (p, _) =>
        let t := p.taskAt c.task
        if inStage s c.slot p t.target then
          done (setCtx (advanceTo s (c.since + (if c.fp then t.cycFp else t.cycFx) / 1000)) tile ctx (some { c with done := true }))
        else done s

/-- TASK_RETIRE: a completed task retires once its ACC_PREV has, and its target is combined with the result (07 R204). -/
def execTaskRetire (tile ctx : Nat) (s : State) : Out :=
  match ctxAt s tile ctx with
  | none => done s
  | some c =>
    if !c.done || !solverRuns s then done s
    else
      match runningSolve s c.slot with
      | none => done (setCtx s tile ctx none)
      | some (p, x) =>
        match (p.taskAt c.task).accPrev with
        | none => done (retire (setCtx s tile ctx none) c.slot p x c)
        | some a => if hasRetired p x a then done (retire (setCtx s tile ctx none) c.slot p x c) else done s

/-- STAGING_COPY: the next bulk-homed block has been copied into a staging slot of up to 240 KiB, or a target back to bulk memory; the values do not change (07 R207; notes/assumptions/24). -/
def execStagingCopy (slot block : Nat) (toBulk : Bool) (s : State) : Out :=
  match runningSolve s slot with
  | none => done s
  | some (p, x) =>
    if !solverRuns s || !(p.blockAt block).bulk then done s
    else
      let moved := fun (s : State) => { s with sv := { s.sv with moved := s.sv.moved + blockBytes p block } }
      if toBulk then
        match stageOf s slot block with
        | some q =>
          if q.dirty && chainRetired p x block then
            done (freeStages (moved { s with sv := { s.sv with staged := s.sv.staged.map (fun y => if y = q then { y with dirty := false } else y) } }) slot p x)
          else done s
        | none => done s
      else if s.sv.staged.length < 256 && stageNext s slot p x block && decide (blockBytes p block ≤ 240 * 1024) then
        done (moved { s with sv := { s.sv with staged := s.sv.staged ++ [{ slot := slot, block := block, dirty := false }] } })
      else done s

/-- SOLVE_BACKSTOP: a solve that has not reached FINISH at its backstop instant ends with TIMEOUT (08 R248). -/
def execSolveBackstop (slot : Nat) (s : State) : Out :=
  match runningSolve s slot with
  | none => done s
  | some (p, x) => if x.role = 8 || !solverRuns s then done s else done (endOutside (advanceTo s x.backstop) slot p x 0x11)

end Sys2Proof.Machine
end

