-- ==== Sys2Proof/Machine/SolveCommands.lean ====
section
/-! DEFINITION. The commands of the solver group (13_command_reference Table 13-10, R371; 07_solver_engine R216; 08_solve_programs R246, R249, R252, R258). -/
namespace Sys2Proof.Machine

/-- The header of a published result (08 Table 8-13). -/
def Result.header (r : Result) : Bytes :=
  let f := fun (i : Nat) => natLe 4 (nth 0 r.conv i).toNat
  let dp := r.cls == 2
  natLe 1 r.status ++ natLe 1 r.cls ++ natLe 2 r.iters ++ natLe 4 r.seq ++ natLe 4 r.pub ++ natLe 2 r.budget ++ natLe 2 r.scope ++
  f 0 ++ (if dp then f 1 else natLe 4 0) ++ (if dp then f 2 else natLe 4 0) ++ (if r.cls = 1 then natLe 4 0 else f 3) ++
  natLe 4 r.notGood ++ natLe 4 r.len ++ natLe 4 r.certCount ++ natLe 4 0 ++ r.report

/-- A published result (08 R252); an element never published reads 0 (notes/assumptions/46). -/
def Result.bytes (r : Result) : Bytes :=
  r.header ++ r.vector.flatMap (fun v => natLe 4 (v.getD 0).toNat) ++ r.certs

/-- The record of the engine (07 Table 7-9). -/
def engineRecord (s : State) : Bytes :=
  let act := packBits ((List.range 4).map (fun n => (runningSolve s n).isSome))
  natLe 4 (mcc s) ++ natLe 4 act ++ s.sv.busy.flatMap (fun b => natLe 4 (b / 256)) ++ natLe 4 s.sv.winMax ++
  natLe 4 (s.sv.moved / 65536) ++ natLe 4 s.sv.singleBit ++ natLe 4 s.sv.fpPasses ++ natLe 8 0

/-- The entry of a slot in SLV_SLOTS. -/
def slotInfo (x : SolveSlot) : Bytes :=
  match x.img with
  | some p => natLe 1 p.cls ++ natLe 3 0 ++ natLe 4 p.programId ++ natLe 4 p.version ++ natLe 4 p.scopeRoot
  | none => natLe 1 0xFF ++ natLe 15 0

/-- The page of SLV_PROGRAM_INFO: the backstop offset counts from Tk, D is rounded down to a whole µs (notes/assumptions/46). -/
def programInfo (s : State) (p : SolveImage) : Bytes :=
  let ps := residents s
  let w := fun (x : Nat) => natLe 4 x
  w p.kktRows ++ w p.factorNnz ++ w p.resultLen ++ w p.calderaRows ++ w p.loopPipes ++ w p.loopFill ++ w (budgetOf (cycleLen s) ps p) ++
  w p.publishDelay ++ w (backstopOf (cycleLen s) ps p) ++ w (twoThousandD (cycleLen s) ps / 2000) ++ natLe 8 p.workMac

/-- A program becomes resident, or its slot empty, with nothing of the one before (08 R246, R258). -/
def placeSolve (s : State) (slot : Nat) (img : Option SolveImage) : State :=
  let s := freeContexts s slot
  let s := { s with sv := { s.sv with order := s.sv.order.filter (fun i => i != slot), poison := s.sv.poison.filter (fun q => q.1 != slot) } }
  onSlot s slot (fun _ =>
    match img with
    | none => SolveSlot.empty
    | some p => { SolveSlot.empty with img := some p, mem := initialBlocks p, prior := initialBlocks p })

/-- An unload or a load that waited takes effect at a boundary: MA02 ends (13 R370, R371; 08 R246). -/
def settleSolveReq (s : State) (n : NetImage) (r : SolveReq) : State :=
  let s := noteExc (placeSolve s r.slot (r.bytes.map (readSolve n))) 5
  replyTo (maEnd s 2 r.slot stOk) r.mb (if r.bytes.isSome then { Reply.ok with res0 := r.slot, res1 := mcc s } else Reply.ok)

/-! Meanings. -/

/-- SLV_ENGINE_STATUS: the record of the last boundary (07 R216). -/
def execSlvEngineStatus (mb : Nat) (s : State) : Out :=
  runCommand s mb 0x0601 (fun _ => finish s mb { Reply.ok with page := if s.sv.record = [] then engineRecord s else s.sv.record })

/-- SLV_SLOTS. -/
def execSlvSlots (mb : Nat) (s : State) : Out :=
  runCommand s mb 0x0602 (fun _ => finish s mb { Reply.ok with page := s.sv.slots.flatMap slotInfo })

/-- SLV_RESULT: the published result of a slot (08 R252). -/
def execSlvResult (mb : Nat) (s : State) : Out :=
  runCommand s mb 0x0603 (fun b =>
    if 4 ≤ b.arg0.toNat then refuse s mb stBadParameter
    else
      match (solveSlot s b.arg0.toNat).pub with
      | none => refuse s mb stNotReady
      | some r => deliver s mb { Reply.ok with res0 := r.status } r.bytes r.pub)

/-- SLV_ABORT: the solve in progress ends with ABORTED; in the same µs as the backstop the status is ABORTED too (08 R249). -/
def execSlvAbort (mb : Nat) (s : State) : Out :=
  runCommand s mb 0x0604 (fun b =>
    let n := b.arg0.toNat
    if 4 ≤ n then refuse s mb stBadParameter
    else
      match runningSolve s n, (solveSlot s n).solve with
      | some (p, x), _ => if x.role = 8 then refuse s mb stNotPermitted else finish (endOutside s n p x 0x12) mb Reply.ok
      | none, some x =>
        if x.status = some 0x11 ∧ x.backstop = s.clk.nt then
          finish (onSlot s n (fun sl => { sl with solve := some { x with status := some 0x12 }, held := sl.held.map (fun r => { r with status := 0x12 }) })) mb Reply.ok
        else refuse s mb stNotPermitted
      | none, none => refuse s mb stNotPermitted)

/-- SLV_PROGRAM_INFO. -/
def execSlvProgramInfo (mb : Nat) (s : State) : Out :=
  runCommand s mb 0x0605 (fun b =>
    if 4 ≤ b.arg0.toNat then refuse s mb stBadParameter
    else
      match (solveSlot s b.arg0.toNat).img with
      | none => refuse s mb stNotReady
      | some p => finish s mb { Reply.ok with page := programInfo s p })

/-- SLV_UNLOAD: the slot is empty from the next boundary, as MA02 (13 R371, 08 R258). -/
def execSlvUnload (mb : Nat) (s : State) : Out :=
  runCommand s mb 0x0606 (fun b =>
    let n := b.arg0.toNat
    if 4 ≤ n then refuse s mb stBadParameter
    else if (solveSlot s n).solve.isSome then refuse s mb stBusy
    else if collides s 2 n then refuse s mb stConflict
    else
      let s := maStart (accept s mb) 2 n
      { s with sv := { s.sv with reqs := s.sv.reqs ++ [{ slot := n, bytes := none, mb := mb, persist := false }] } })

end Sys2Proof.Machine
end

