-- ==== Sys2Proof/Machine/Images.lean ====
section
/-! DEFINITION. Images: uploads and the staging area, the checks of IMG_LOAD and the effect of each kind, IMG_INFO and FW_STAGE (13_command_reference R366, R369 to R371, Tables 13-4 and 13-5). -/
namespace Sys2Proof.Machine

/-! Uploads (13 R366). -/

/-- What a piece of an upload leads to: the state, the status, the bytes held, and the whole data once it is complete. -/
structure Piece where
  state : State
  status : Nat
  held : Nat
  whole : Option Bytes

/-- The partial uploads without those of a kind. -/
def otherUploads (s : State) (kind : Nat) : List Upload := s.im.uploads.filter (fun u => u.kind != kind)

/-- The state with a partial upload of a kind replaced. -/
def setUpload (s : State) (kind : Nat) (u : List Upload) : State := { s with im := { s.im with uploads := otherUploads s kind ++ u } }

/-- A piece without DMA: total in ARG1, offset in ARG2. A wrong offset, total or slot discards the partial upload. -/
def takePiece (s : State) (n kind slot : Nat) : Piece :=
  let b := box s n
  let total := b.arg1.toNat
  let off := b.arg2.toNat
  if b.reqLen.toNat % 4 ≠ 0 then { state := s, status := stBadParameter, held := 0, whole := none }
  else
    let old := s.im.uploads.find? (fun u => u.kind == kind && u.slot == slot && u.total == total && u.bytes.length == off)
    let have_ := if off = 0 then some [] else old.map (fun u => u.bytes)
    match have_ with
    | none => { state := setUpload s kind [], status := stBadParameter, held := 0, whole := none }
    | some p =>
      let bs := p ++ b.request
      if total < bs.length then { state := setUpload s kind [], status := stBadParameter, held := 0, whole := none }
      else if bs.length = total then { state := setUpload s kind [], status := stOk, held := total, whole := some bs }
      else { state := setUpload s kind [{ kind := kind, slot := slot, total := total, bytes := bs }], status := stOk, held := bs.length, whole := none }

/-- The fields of an upload by DMA: ARG1 is MB_DMA_LEN and ARG2 is 0. -/
def dmaUploadOk (b : Mailbox) : Bool := b.arg1 == b.dmaLen && b.arg2 == 0

/-- The command waits for its data (12 R358). -/
def awaitDma (s : State) (n : Nat) : State := onBox (accept s n) n (fun b => { b with dmaWait := true, dmaSince := s.clk.nt })

/-! Staging. -/

/-- The place of an image of a kind and slot. -/
def imgPlace (kind slot : Nat) : Nat := 4 * kind + slot

/-- The staged image of a place. -/
def stagedAt (s : State) (place : Nat) : Option Bytes := lookup s.im.staged place

/-- The staged images without that of a place leave no room for `total` bytes in 64 MiB. -/
def stagingFull (s : State) (place total : Nat) : Bool :=
  decide (67108864 < sumOf ((s.im.staged.filter (fun p => p.1 != place)).map (fun p => p.2.length)) + total)

/-- An upload is complete: the image is staged. -/
def stageImage (s : State) (place : Nat) (bs : Bytes) : State := { s with im := { s.im with staged := insertAt s.im.staged place bs } }

/-- A staged image is taken. -/
def unstage (s : State) (places : List Nat) : State := { s with im := { s.im with staged := s.im.staged.filter (fun p => !places.contains p.1) } }

/-- The image flash receives an image. -/
def toFlash (s : State) (place : Nat) (bs : Bytes) : State := { s with im := { s.im with flash := insertAt s.im.flash place bs } }

/-- IMG_PUT: an image enters the staging area in pieces, or by DMA. -/
def execImgPut (mb : Nat) (s : State) : Out :=
  runCommand s mb 0x0201 (fun b =>
    let kind := b.arg0.toNat
    let slot := b.arg3.toNat
    if kind = 0 ∨ 5 < kind ∨ (if kind = 3 then 3 < slot else slot ≠ 0) then refuse s mb stBadParameter
    else if b.dmaEn then
      if !dmaUploadOk b then refuse s mb stBadParameter
      else if stagingFull s (imgPlace kind slot) b.arg1.toNat then refuse s mb stNoSpace
      else awaitDma s mb
    else
      let x := takePiece s mb kind slot
      if x.status ≠ stOk then refuse x.state mb x.status
      else if stagingFull s (imgPlace kind slot) b.arg1.toNat then refuse s mb stNoSpace
      else
        match x.whole with
        | some bs => finish (stageImage x.state (imgPlace kind slot) bs) mb { Reply.ok with res0 := x.held }
        | none => finish x.state mb { Reply.ok with res0 := x.held })

/-! The checks of IMG_LOAD (13 R370). -/

/-- The result of opening an image for a load: plain bytes, AUTH_FAILED, or BAD_IMAGE. -/
inductive Opened where
  | plain (bs : Bytes)
  | auth
  | bad
deriving DecidableEq, Repr

/-- The largest image of a kind in bytes (02 R79, 05 Table 5-5, 08 Table 8-5, 15 Table 15-11). -/
def kindLimit (kind : Nat) : Nat :=
  match kind with
  | 1 => 33554432
  | 2 => 2097152
  | 3 => 16777216
  | _ => 32832

/-- An image of a kind after decryption and IMAGE_MAC, then the rules of an envelope (steps 5 and 6 of R370). -/
def openFor (s : State) (kind : Nat) (bs : Bytes) : Opened :=
  match openImage s bs with
  | none => .auth
  | some p =>
    let ok := match kind with
      | 1 | 3 => imageMacOk s p 0x1E0
      | 2 => imageMacOk s p 0xE0
      | _ => confMacOk s p
    if !ok then .auth else if envelopeOk kind (kindLimit kind) bs then .plain p else .bad

/-- The plain bytes. -/
def Opened.bytes (o : Opened) : Bytes := match o with | .plain b => b | _ => []

/-- The digest of a network image (02 R80). -/
def netDigestOf (bs : Bytes) : Bytes := sha256 (bs.take 512)

/-- A METER point's source is in use: 0 to 11 are MP01 to MP12, 16 to 47 are HC00 to HC31 (02 Table 2-12). -/
def meterSourceInUse (s : State) (q : Nat) : Bool :=
  if q < 12 then meterInUse s q else if 16 ≤ q ∧ q < 48 then heatInUse s (q - 16) else false

/-- The DIs that heat channels in use take as pulse sources (11 HCCFG). -/
def pulseInputs (s : State) : List Nat := ((heatChannels s).filter (fun n => hcVsrc s n == 0)).map (hcDi s)

/-- A key slot can serve a line: VALID, of the line kind, and key functions enabled. -/
def lineKeyOk (s : State) (slot : Nat) : Bool := keysOn s && slotKind slot == 5 && slotState s slot == 1

/-- A network image passes the checks of its chapter (02 R78 to R86). -/
def netAccepted (s : State) (bs : Bytes) : Bool :=
  netOk bs (lineKeyOk s) (meterSourceInUse s) (pulseInputs s) && clearOfFixed (readNet bs) Config.fixedOffset

/-- The solve programs and the network give budgets and a staging area that suffice (07 R207, 08 R242, R244). -/
def solvesFit (n : NetImage) (ps : List SolveImage) : Bool :=
  budgetsFit n.len ps && decide (sumOf (ps.map (fun p => Config.stagingBytes p.header)) ≤ n.stagingSize)

/-- The lowest slot that is empty. -/
def lowestEmpty (s : State) : Option Nat := (List.range 4).find? (fun i => (solveSlot s i).img.isNone)

/-- The slot that a load names: with 0xFF the lowest empty one, slot 4 standing for none. -/
def loadSlot (s : State) (b : Mailbox) : Nat :=
  if b.arg0 = 3 then (if b.arg1 = 0xFF then (lowestEmpty s).getD 4 else b.arg1.toNat) else 0

/-- The arguments of IMG_LOAD. -/
def loadArgsOk (b : Mailbox) : Bool :=
  let kind := b.arg0.toNat
  decide (1 ≤ kind ∧ kind ≤ 4) && decide (b.arg2.toNat ≤ 1) &&
    (if kind = 3 then decide (b.arg1.toNat ≤ 3) || b.arg1 == 0xFF else b.arg1 == 0)

/-- The activity of a load: none for CYCLE. -/
def loadActivity (kind : Nat) : Nat := match kind with | 1 => 3 | 3 => 2 | _ => 4

/-- The places that a load takes. -/
def loadPlaces (s : State) (kind slot : Nat) : List Nat :=
  if kind = 1 then [imgPlace 1 0, imgPlace 2 0] ++ ((List.range 4).map (imgPlace 3)).filter (fun p => (stagedAt s p).isSome)
  else [imgPlace kind slot]

/-- What a staged place holds, opened for its kind. -/
def openPlace (s : State) (place : Nat) : Opened := openFor s (place / 4) ((stagedAt s place).getD [])

/-- The solve images of a NETWORK load by slot. -/
def takenSolves (s : State) : List (Option Bytes) :=
  (List.range 4).map (fun i => if (stagedAt s (imgPlace 3 i)).isSome then some (openPlace s (imgPlace 3 i)).bytes else none)

/-- The slots of the plain solve images, read against a network. -/
def readSolves (n : NetImage) (l : List (Option Bytes)) : List (Option SolveImage) := l.map (fun x => x.map (readSolve n))

/-- Step 6 of R370: the checks of each image's own chapter. -/
def loadImageOk (s : State) (kind slot : Nat) : Bool :=
  let bs := (openPlace s (imgPlace kind slot)).bytes
  match kind with
  | 1 =>
    let n := readNet bs
    let d := netDigestOf bs
    netAccepted s bs && progOk n d (openPlace s (imgPlace 2 0)).bytes &&
      (indexed (takenSolves s)).all (fun p => match p.2 with | some x => solveOk n d p.1 x | none => true)
  | 2 => match s.net.image with | some n => progOk n s.net.digest bs | none => false
  | 3 => match s.net.image with | some n => solveOk n s.net.digest slot bs | none => false
  | _ => confShape bs && confFits s.net.image bs

/-- The programs that will be resident once the loads and unloads that wait have taken effect, by slot (08 R242, R244). -/
def residentsToCome (s : State) (n : NetImage) : List (Option SolveImage) :=
  s.sv.reqs.foldl (fun l r => setNth l r.slot (r.bytes.map (readSolve n))) (s.sv.slots.map (fun x => x.img))

/-- Step 7 of R370. -/
def loadSpaceOk (s : State) (kind slot : Nat) : Bool :=
  let bs := (openPlace s (imgPlace kind slot)).bytes
  match kind with
  | 1 => solvesFit (readNet bs) ((readSolves (readNet bs) (takenSolves s)).filterMap id)
  | 3 =>
    match s.net.image with
    | some n => solvesFit n (((setNth (residentsToCome s n) slot (some (readSolve n bs)))).filterMap id)
    | none => false
  | _ => true

/-- The status of IMG_LOAD in the order of R370, for arguments in their ranges. -/
def loadStatus (s : State) (kind slot : Nat) : Nat :=
  let opened := (loadPlaces s kind slot).map (openPlace s)
  if kind = 2 ∧ s.ce.swap.isSome then stBusy
  else if kind = 3 ∧ slot < 4 ∧ (solveSlot s slot).solve.isSome then stBusy
  else if kind ≠ 2 ∧ collides s (loadActivity kind) slot then stConflict
  else if kind = 3 ∧ slot = 4 then stNoSpace
  else if (loadPlaces s kind slot).any (fun p => (stagedAt s p).isNone) then stNotReady
  else if opened.any (fun o => o == .auth) then stAuthFailed
  else if opened.any (fun o => o == .bad) || !loadImageOk s kind slot then stBadImage
  else if !loadSpaceOk s kind slot then stNoSpace
  else stOk

/-! The effects. -/

/-- The retained page 0 names the slot of the active program, whose flash place is 8 + slot (15 Table 15-5). -/
def cyclePlace (slot : Nat) : Nat := imgPlace 2 slot

/-- A program image enters a slot with its area filled from the initial data (05 R152). -/
def enterSlot (s : State) (slot : Nat) (bs : Bytes) : State :=
  let p := readProg bs
  setProgSlot s slot { img := some p, bytes := bs, area := initArea p }

/-- The active program starts anew: no execution, no instance run, no swap. -/
def programAnew (s : State) : State :=
  { s with ce := { s.ce with
      fast := s.ce.fast.anew, network := s.ce.network.anew, slow := s.ce.slow.anew
      inst := [], swap := none, poison := s.ce.poison.filter (fun x => x.1 == 4), areaWas := (activeSlot s).area } }

/-- A network image comes into force: units, points, lines, rules, outputs and events are those of the image (02 R64, R81 to R86; 09 R259, R262, R270; 18 R446). From here boundaries lie at its cycle length (notes/assumptions/48). -/
def installNet (s : State) (bs : Bytes) : State :=
  let n := readNet bs
  let s := { s with
    net := { image := some n, bytes := bs, digest := netDigestOf bs }
    un := loadUnits
    pt := loadPoints n
    vn := { s.vn with active := 0, fs := if allSetsHeld s then 2 ^ 64 - 1 else 0, queue := [], doBase := 0 }
    ev := { s.ev with buckets := [], sinter := [] }
    clk := { s.clk with t0 := if s.clk.begun then some s.clk.nt else s.clk.t0, base := if s.clk.begun then s.clk.k else s.clk.base } }
  clearBaselines (offerLevels (linesLoad s n (inRun s)))

/-- The solve slots take their images; a slot without one becomes empty (13 R370). -/
def installSolves (s : State) (n : NetImage) (l : List (Option Bytes)) : State :=
  (indexed (readSolves n l)).foldl (fun s p => placeSolve s p.1 p.2) s

/-- The images that a persistent NETWORK load writes to the flash (notes/assumptions/49). -/
def persistSet (s : State) (x : NetLoad) : State :=
  let s := toFlash (toFlash s (imgPlace 1 0) x.network) (cyclePlace s.ce.active) x.cycle
  (indexed x.solves).foldl (fun s p => match p.2 with | some b => toFlash s (imgPlace 3 p.1) b | none => s) s

/-- The NETWORK load that waits takes effect: network, active program and solve slots at one instant; MA03 ends (13 R370). -/
def applyNetwork (s : State) : State :=
  match s.im.netLoad with
  | none => s
  | some x =>
    let s := installNet { s with im := { s.im with netLoad := none } } x.network
    let n := readNet x.network
    let s := programAnew (enterSlot s s.ce.active x.cycle)
    let s := noteExc (installSolves s n x.solves) 5
    let s := if x.persist then persistSet s x else s
    replyTo (maEnd s 3 0 stOk) x.mb { Reply.ok with res1 := mcc s }

/-- The SOLVE loads and unloads that wait, of the mailboxes meant, take effect (13 R370, R371). -/
def applySolves (s : State) (mine : Nat → Bool) : State :=
  match s.net.image with
  | none => s
  | some n =>
    (s.sv.reqs.filter (fun r => mine r.mb)).foldl (fun s r =>
      let s := settleSolveReq s n r
      match r.bytes with
      | some b => if r.persist then toFlash s (imgPlace 3 r.slot) b else s
      | none => s) { s with sv := { s.sv with reqs := s.sv.reqs.filter (fun r => !mine r.mb) } }

/-- The CYCLE load of a mailbox completes: the image enters the standby slot; with a swap pending by now it is refused, and the staged image is kept (05 R154). -/
def completeCycleLoad (s : State) (mb : Nat) : State :=
  match s.im.cycLoad.find? (fun x => x.mb == mb), s.net.image with
  | some x, some n =>
    let s := { s with im := { s.im with cycLoad := s.im.cycLoad.erase x } }
    let to_ := 1 - s.ce.active
    if s.ce.swap.isSome then replyTo (stageImage s (imgPlace 2 0) x.staged) mb (Reply.of stBusy)
    else if !progOk n s.net.digest x.bytes then replyTo (stageImage s (imgPlace 2 0) x.staged) mb (Reply.of stBadImage)
    else
      let s := enterSlot s to_ x.bytes
      let s := if x.slot.isSome then toFlash s (cyclePlace to_) x.bytes else s
      replyTo s mb { Reply.ok with res0 := to_, res1 := mcc s }
  | _, _ => s

/-- The first two conditions of R467: network image with cycle program, and a configuration image in force. -/
def imagesReady (s : State) : Bool := s.net.image.isSome && (activeProg s).isSome && s.pa.conf.isSome

/-- The NT from which the first two conditions hold is kept. -/
def noteReady (s : State) : State :=
  { s with pwr := { s.pwr with condSince := if imagesReady s then some (s.pwr.condSince.getD s.clk.nt) else none } }

/-- What waits for a boundary applies at once outside RUN, where no matrix cycle runs (notes/assumptions/50). -/
def atOnce (s : State) (f : State → State) : State := if inRun s then s else noteReady (f s)

/-- A configuration image as a persistent load writes it: with the sequence number of R368. -/
def persistentConf (s : State) (bs : Bytes) : Bytes := makeConf s (newestSeq s + 1) (confEntries bs)

/-- A load that passed its checks takes the staged images and goes on its way (13 R370). -/
def beginLoad (s : State) (mb kind slot : Nat) (persist : Bool) : State :=
  let bs := (openPlace s (imgPlace kind slot)).bytes
  let cyc := (openPlace s (imgPlace 2 0)).bytes
  let solves := takenSolves s
  let s' := accept (unstage s (loadPlaces s kind slot)) mb
  match kind with
  | 1 =>
    let s' := maStart s' 3 0
    atOnce { s' with im := { s'.im with netLoad := some { network := bs, cycle := cyc, solves := solves, mb := mb, persist := persist } } } applyNetwork
  | 2 =>
    replyTo { s' with im := { s'.im with cycLoad := s'.im.cycLoad ++ [{ bytes := bs, staged := (stagedAt s (imgPlace 2 0)).getD [], slot := if persist then some 0 else none, mb := mb }] } } mb Reply.ok
  | 3 =>
    let s' := maStart s' 2 slot
    atOnce { s' with sv := { s'.sv with reqs := s'.sv.reqs ++ [{ slot := slot, bytes := some bs, mb := mb, persist := persist }] } } (fun s => applySolves s (fun _ => true))
  | _ =>
    let s' := maStart s' 4 0
    let load : HeldLoad := if persist then { bytes := persistentConf s bs, staged := [], slot := some (writeSlot s), mb := mb } else { bytes := bs, staged := [], slot := none, mb := mb }
    atOnce { s' with im := { s'.im with cfgLoad := some load } } (fun s => applyConfig s (fun _ => true))

/-- IMG_LOAD: the staged image of a kind becomes effective (13 R370). A persistent CONFIG load beyond the last sequence number is refused as CFG_COMMIT is (notes/assumptions/49). -/
def execImgLoad (mb : Nat) (s : State) : Out :=
  runCommand s mb 0x0202 (fun b =>
    let kind := b.arg0.toNat
    let slot := loadSlot s b
    let persist := bit b.arg2.toNat 0
    if !loadArgsOk b then refuse s mb stBadParameter
    else if loadStatus s kind slot ≠ stOk then refuse s mb (loadStatus s kind slot)
    else if kind = 4 ∧ persist ∧ newestSeq s = 0xFFFFFFFF then refuse s mb stNotPermitted
    else beginLoad s mb kind slot persist)

/-! IMG_INFO. -/

/-- Bytes of the header of a kind (02 Table 2-18, 05 Table 5-5, 08 Table 8-5, 15 Table 15-11). -/
def headerLen (kind : Nat) : Nat :=
  match kind with
  | 1 | 3 => 512
  | 2 => 256
  | _ => 64

/-- PROGRAM_ID, PROGRAM_VERSION and TARGET_FW of a header (02 Table 2-18, 05 Table 5-5, 08 Table 8-5, 15 Table 15-11). -/
def headerNames (kind : Nat) (bs : Bytes) : List Nat :=
  match kind with
  | 1 => [0, 0, leAt bs 0x08 4]
  | 2 | 3 => [leAt bs 0x30 4, leAt bs 0x34 4, leAt bs 0x08 4]
  | _ => [0, 0, leAt bs 0x08 4]

/-- The names of an image in IMG_INFO: a firmware image has no PROGRAM_ID and no PROGRAM_VERSION, and what the spec does not let the module read is free (notes/assumptions/44). -/
def shownNames (kind : Nat) (bs : Bytes) : List Nat :=
  if kind = 5 then [0, 0, (Config.hiddenName bs 2).toNat]
  else if !isEnvelope bs then headerNames kind bs
  else if kind = 2 ∨ kind = 3 then (List.range 3).map (fun i => (Config.hiddenName bs i).toNat)
  else [0, 0, (Config.hiddenName bs 2).toNat]

/-- The header of an image in IMG_INFO; that of firmware and of an envelope is free (notes/assumptions/44). -/
def shownHeader (kind : Nat) (bs : Bytes) : Bytes :=
  if kind = 5 || isEnvelope bs then Config.hiddenHeader bs else slice bs 0 (headerLen kind)

/-- An entry of IMG_INFO (13 Table 13-5). -/
def infoEntry (kind place slot : Nat) (bs : Bytes) : Bytes :=
  natLe 4 (Config.placeCode place).toNat ++ natLe 4 slot ++ (shownNames kind bs).flatMap (natLe 4) ++ natLe 12 0 ++ sha256 (shownHeader kind bs)

/-- The images of a kind that are loaded, with their slots. -/
def loadedImages (s : State) (kind : Nat) : List (Nat × Bytes) :=
  let some_ := fun (slot : Nat) (x : Option Bytes) => match x with | some b => [(slot, b)] | none => []
  match kind with
  | 1 => some_ 0 (s.net.image.map (fun _ => s.net.bytes))
  | 2 => some_ 0 (s.ce.slotA.img.map (fun _ => s.ce.slotA.bytes)) ++ some_ 1 (s.ce.slotB.img.map (fun _ => s.ce.slotB.bytes))
  | 3 => (indexed s.sv.slots).flatMap (fun p => some_ p.1 (p.2.img.map (fun x => x.header)))
  | 4 => some_ ((s.pa.conf.map (fun c => c.slot)).getD 0) (s.pa.conf.map (fun c => c.header))
  | _ => some_ s.im.fwSlot (lookup s.im.flash (imgPlace 5 s.im.fwSlot))

/-- The images of a kind at places of a table, with their slots. -/
def placedImages (m : NMap Bytes) (kind : Nat) : List (Nat × Bytes) :=
  (m.filter (fun p => p.1 / 4 == kind)).map (fun p => (p.1 % 4, p.2))

/-- IMG_INFO: an entry for each image of the kind, loaded, in flash and staged (notes/assumptions/44). -/
def execImgInfo (mb : Nat) (s : State) : Out :=
  runCommand s mb 0x0203 (fun b =>
    let kind := b.arg0.toNat
    if kind = 0 ∨ 5 < kind then refuse s mb stBadParameter
    else
      let e := fun (place : Nat) (l : List (Nat × Bytes)) => l.flatMap (fun p => infoEntry kind place p.1 p.2)
      finish s mb { Reply.ok with page := e 0 (loadedImages s kind) ++ e 1 (placedImages s.im.flash kind) ++ e 2 (placedImages s.im.staged kind) })

/-! Firmware (13 R371). -/

/-- FW_STAGE: the staged firmware goes to the slot that does not run; it runs after the next reset. -/
def execFwStage (mb : Nat) (s : State) : Out :=
  runCommand s mb 0x0210 (fun _ =>
    if collides s 7 0 then refuse s mb stConflict
    else
      match stagedAt s (imgPlace 5 0) with
      | none => refuse s mb stNotReady
      | some bs =>
        if !Config.firmwareSigned bs then refuse s mb stAuthFailed
        else if !Config.firmwareOk bs then refuse s mb stBadImage
        else
          let s := maStart (accept (unstage s [imgPlace 5 0]) mb) 7 0
          replyTo { s with im := { s.im with fwHeld := some bs } } mb { Reply.ok with res0 := 1 - s.im.fwSlot })

/-- The firmware is written, and counted (15 Table 15-6, 13 R371). -/
def completeFirmware (s : State) : State :=
  match s.im.fwHeld with
  | none => s
  | some bs =>
    let to_ := 1 - s.im.fwSlot
    let s := toFlash s (imgPlace 5 to_) bs
    requestInc { s with im := { s.im with fwHeld := none, fwNext := to_ } } 6 .plain

end Sys2Proof.Machine
end

