-- ==== Sys2Proof/Machine/Replay.lean ====
section
/-! DEFINITION. Replay: snapshots, records, the commands of MA11 and what a boundary does for it (01_matrix_cycle_walkthrough R45 to R51, Tables 1-11 and 1-12; 13_command_reference Tables 13-16 and 13-17, R372). -/
namespace Sys2Proof.Machine

/-! Snapshots (01 R46, 13 R372). -/

/-- The state of the active program, of its tasks and instances, and the published results as they stand (01 R46, Table 1-12 step 1; notes/assumptions/53). -/
def snapshotNow (s : State) : Snapshot :=
  { cycle := mcc s, digest := imageSetDigest s, area := (activeSlot s).area, inst := s.ce.inst
    tasks := [s.ce.fast, s.ce.network, s.ce.slow]
    pubs := s.sv.slots.map (fun x => x.pub), priors := s.sv.slots.map (fun x => (x.prior, x.priorFmt)) }

/-- A snapshot as the host fetches it: the header of 13 Table 13-17, then the body, whose layout is free. -/
def Snapshot.bytes (x : Snapshot) : Bytes :=
  let body := Config.snapshotBody x
  natLe 2 1 ++ natLe 2 0 ++ natLe 4 x.cycle ++ natLe 8 body.length ++ x.digest ++ sha256 body ++ body

/-- The snapshot that uploaded data hold (13 R372); a body that the firmware cannot read is a bad parameter (notes/assumptions/26). -/
def snapshotFrom (bs : Bytes) : Option Snapshot :=
  let body := bs.drop 0x50
  if bs.length < 0x50 ∨ leAt bs 0 2 ≠ 1 ∨ leAt bs 2 2 ≠ 0 ∨ leAt bs 8 8 ≠ body.length ∨ sha256 body ≠ slice bs 0x30 32 then none
  else (Config.snapshotOf body).map (fun x => { x with cycle := leAt bs 4 4, digest := slice bs 0x10 32 })

/-- RPL_CAPTURE: the snapshot is captured at a boundary that no solve crosses. -/
def execRplCapture (mb : Nat) (s : State) : Out :=
  runCommand s mb 0x0C02 (fun _ =>
    if s.rp.capture.isSome then refuse s mb stBusy
    else
      let s := accept s mb
      { s with rp := { s.rp with capture := some mb } })

/-- A capture that waits is made, if no solve is in progress across the boundary (01 R46). -/
def captureDue (s : State) : State :=
  match s.rp.capture with
  | none => s
  | some mb =>
    if (List.range 4).any (fun n => (runningSolve s n).isSome) then s
    else
      let x := snapshotNow s
      replyTo { s with rp := { s.rp with captured := some x, capture := none } } mb { Reply.ok with res0 := x.bytes.length, res2 := x.cycle }

/-- RPL_SNAP_GET: the last snapshot. -/
def execRplSnapGet (mb : Nat) (s : State) : Out :=
  runCommand s mb 0x0C03 (fun _ =>
    match s.rp.captured with
    | none => refuse s mb stNotReady
    | some x => deliver s mb Reply.ok x.bytes x.cycle)

/-! The start (01 Table 1-12, steps 1 and 2). -/

/-- The state that a start saves and an end restores, or that a snapshot holds, is loaded; executions and solves of the state before are gone. Statistics go on. -/
def loadSnapshot (s : State) (x : Snapshot) (goOn : Bool) : State :=
  let task := fun (i : Nat) (r : TaskRun) =>
    let y := nth r x.tasks i
    if goOn then { y with stat := r.stat } else { y with exec := none, prevOk := y.prevOk && y.exec.isNone, late := false, nextRel := 0, stat := r.stat }
  let s := setActiveArea s x.area
  let s := (List.range 4).foldl freeContexts s
  { s with
    ce := { s.ce with inst := x.inst, fast := task 0 s.ce.fast, network := task 1 s.ce.network, slow := task 2 s.ce.slow, pubNt := none }
    sv := { s.sv with
      order := []
      slots := (indexed s.sv.slots).map (fun p =>
        let q := nth (p.2.prior, p.2.priorFmt) x.priors p.1
        { p.2 with solve := none, held := none, heldMem := none, pub := nth none x.pubs p.1, prior := q.1, priorFmt := q.2, snaps := [] }) } }

/-- A REPLAY request has its snapshot: the live state is saved, and the start waits for its boundary. -/
def beginReplay (s : State) (mb : Nat) (x : Snapshot) : State :=
  let live := snapshotNow s
  { s with rp := { s.rp with
      starting := some (mb, x), saved := some live, savedOut := s.pt.output, feeds := [], fed := some x.cycle
      outputs := [], records := [], count := 0 } }

/-- The status of a REPLAY request on a snapshot (01 R47). -/
def replayStatus (s : State) (x : Snapshot) : Nat := if x.digest ≠ imageSetDigest s then stBadImage else stOk

/-- A REPLAY request on a snapshot, with no collision: it is accepted and MA11 runs, or it is refused (13 R367). -/
def startWith (s : State) (mb : Nat) (x : Snapshot) : State :=
  if replayStatus s x = stOk then beginReplay (maStart (accept s mb) 11 0) mb x else refuse s mb (replayStatus s x)

/-- A REPLAY request on the whole of its pieces. -/
def startPieces (s : State) (mb : Nat) (bs : Bytes) : State :=
  match snapshotFrom bs with
  | none => refuse s mb stBadParameter
  | some x => startWith s mb x

/-- A REPLAY request on the data that its transfer brought: MA11 has run since its acceptance, and ends with a refusal. -/
def startUploaded (s : State) (mb : Nat) (bs : Bytes) : State :=
  let fail := fun (st : Nat) => replyTo (abandonStart s st) mb (Reply.of st)
  match snapshotFrom bs with
  | none => fail stBadParameter
  | some x => if replayStatus s x = stOk then beginReplay s mb x else fail (replayStatus s x)

/-- RPL_START: from the captured snapshot, or from uploaded data, which a transfer brings with MA11 running (01 R45, 13 R366, R367). -/
def execRplStart (mb : Nat) (s : State) : Out :=
  runCommand s mb 0x0C04 (fun b =>
    if 1 < b.arg0.toNat then refuse s mb stBadParameter
    else if b.arg0 = 0 then
      if b.arg1 ≠ 0 ∨ b.arg2 ≠ 0 then refuse s mb stBadParameter
      else if collides s 11 0 then refuse s mb stConflict
      else
        match s.rp.captured with
        | none => refuse s mb stNotReady
        | some x => startWith s mb x
    else if b.dmaEn then
      if !dmaUploadOk b then refuse s mb stBadParameter
      else if collides s 11 0 then refuse s mb stConflict
      else maStart (awaitDma s mb) 11 0
    else
      let x := takePiece s mb 16 0
      if x.status ≠ stOk then refuse x.state mb x.status
      else
        match x.whole with
        | some bs => if collides x.state 11 0 then refuse x.state mb stConflict else startPieces x.state mb bs
        | none => replyTo (accept x.state mb) mb Reply.ok)

/-! Replay input records (01 R48, Table 1-11). -/

/-- The point-image entries of a record, in canonical form. -/
def recordEntries (n i : Nat) (bs : Bytes) : NMap Entry :=
  match n with
  | 0 => []
  | n + 1 =>
    let e : Entry := { value := word32At bs 0, quality := leAt bs 4 1, age := leAt bs 6 2 }
    let t := recordEntries n (i + 1) (bs.drop 8)
    if e = Entry.reset then t else (i, e) :: t

/-- The unit states of a record, in canonical form. -/
def recordUnits (n i : Nat) (bs : Bytes) : NMap UnitRun :=
  match n with
  | 0 => []
  | n + 1 =>
    let w := leAt bs 0 4
    let u : UnitRun := { oosOwn := bit w 4, oosInh := bit w 5, svcSince := leAt bs 4 4, station := bits w 0 3, miss := 0, good := 0 }
    let t := recordUnits n (i + 1) (bs.drop 8)
    if u = UnitRun.reset then t else (i, u) :: t

/-- A record whose fields stand in their ranges for the cycle expected: its status, BAD_PARAMETER or BAD_IMAGE, else OK (01 R47, R48). A nonzero state of a unit from U upwards is accepted: R48's cases do not name it (DESIGN CHOICE, notes/assumptions/101). -/
def recordStatus (s : State) (p : ProgImage) (bs : Bytes) : Nat :=
  let m := leAt bs 0x18 4
  let units := (List.range 16384).map (fun i => leAt bs (0x200040 + 8 * i) 4)
  if bs.length ≠ 0x220040 + 4 * m ∨ leAt bs 0 2 ≠ 1 ∨ leAt bs 2 2 ≠ 0 ∨ leAt bs 0x16 2 ≠ 0 ∨ leAt bs 0x1C 4 ≠ 0 then stBadParameter
  else if some (leAt bs 4 4) ≠ s.rp.fed ∨ m ≠ fastReleases s p then stBadParameter
  else if units.any (fun w => 4 < bits w 0 3 || bit w 3 || w / 64 != 0) then stBadParameter
  else if (List.range 262144).any (fun i => leAt bs (0x45 + 8 * i) 1 != 0) || (List.range m).any (fun i => leAt bs (0x220042 + 4 * i) 2 != 0) then stBadParameter
  else if slice bs 0x20 32 ≠ imageSetDigest s then stBadImage
  else stOk

/-- The record that the data hold. -/
def readFeed (bs : Bytes) : FeedRec :=
  { cycle := leAt bs 4 4, start := leAt bs 8 8, ticks := leAt bs 0x10 6
    dis := (List.range (leAt bs 0x18 4)).map (fun i => leAt bs (0x220040 + 4 * i) 2)
    entries := recordEntries 262144 0 (bs.drop 0x40), units := recordUnits 16384 0 (bs.drop 0x200040) }

/-- A record is queued, or its status. -/
def queueRecord (s : State) (bs : Bytes) : State × Reply :=
  match activeProg s with
  | none => (s, Reply.of stBadParameter)
  | some p =>
    let st := recordStatus s p bs
    if st ≠ stOk then (s, Reply.of st)
    else
      let r := readFeed bs
      ({ s with rp := { s.rp with feeds := s.rp.feeds ++ [r], fed := some (wrap32 (r.cycle + 1)) } }, { Reply.ok with res0 := s.rp.feeds.length + 1 })

/-- RPL_FEED: at most two records wait. -/
def execRplFeed (mb : Nat) (s : State) : Out :=
  runCommand s mb 0x0C05 (fun b =>
    if !runs s 11 then refuse s mb stNotPermitted
    else if 2 ≤ s.rp.feeds.length then refuse s mb stBusy
    else if b.dmaEn then (if dmaUploadOk b then awaitDma s mb else refuse s mb stBadParameter)
    else
      let x := takePiece s mb 17 0
      if x.status ≠ stOk then refuse x.state mb x.status
      else
        match x.whole with
        | some bs => let q := queueRecord x.state bs; finish q.1 mb q.2
        | none => finish x.state mb { Reply.ok with res0 := x.state.rp.feeds.length })

/-- RPL_FEED on the data that a transfer brought: by then MA11 may have ended, or two records wait. -/
def feedUploaded (s : State) (bs : Bytes) : State × Reply :=
  if !runs s 11 then (s, Reply.of stNotPermitted)
  else if 2 ≤ s.rp.feeds.length then (s, Reply.of stBusy)
  else queueRecord s bs

/-! Outputs (01 Table 1-12 step 4, 13 RPL_OUTPUT). -/

/-- Bytes 0x18 to 0x3F of a record as one number, so that comparing numbers compares the bytes in order. -/
def Rec.bodyKey (r : Rec) : Nat := (slice r.body 0 40).foldl (fun a b => a * 256 + b.toNat) 0

/-- The records of a replayed cycle in the order in which RPL_OUTPUT returns them: by NT, then CODE, then the bytes 0x18 to 0x3F (18 R453). -/
def recordsOf (s : State) (cycle : Nat) : List Rec :=
  sortBy Rec.nt (sortBy Rec.code (sortBy Rec.bodyKey (s.rp.records.filter (fun r => r.mcc == cycle))))

/-- What RPL_OUTPUT returns of a replayed cycle; none where its slot has published no result. -/
def outputBytes (s : State) (x : Replayed) (what : Nat) : Option Bytes :=
  match what with
  | 0 => some ((List.range 262144).flatMap (fun p => (imageEntryOf s x.output p).bytes))
  | 5 => some ((recordsOf s x.cycle).flatMap Rec.bytes)
  | i => (nth none x.results (i - 1)).map Result.bytes

/-- RPL_OUTPUT: the outputs of one of the last two replayed cycles. -/
def execRplOutput (mb : Nat) (s : State) : Out :=
  runCommand s mb 0x0C06 (fun b =>
    let k := b.arg0.toNat
    if 5 < b.arg1.toNat then refuse s mb stBadParameter
    else
      match s.rp.outputs.find? (fun x => x.cycle == k) with
      | some x =>
        match outputBytes s x b.arg1.toNat with
        | some bs => deliver s mb Reply.ok bs k
        | none => refuse s mb stNotReady
      | none =>
        match s.rp.outputs with
        | [] => refuse s mb stNotReady
        | x :: _ => refuse s mb (if (x.cycle + 2 ^ 32 - k) % 2 ^ 32 < 2 ^ 31 then stOverwritten else stNotReady))

/-- RPL_END: at the next boundary the live state is restored. -/
def execRplEnd (mb : Nat) (s : State) : Out :=
  runCommand s mb 0x0C07 (fun _ =>
    if !runs s 11 || s.rp.ending.isSome then refuse s mb stNotPermitted
    else
      let s := accept s mb
      { s with rp := { s.rp with ending := some mb } })

/-! Boundaries (01 Table 1-12). -/

/-- Step 2: the replay state is loaded. The output image and the output working image go on from their live contents, which a snapshot does not hold (DESIGN CHOICE, notes/assumptions/102). -/
def startReplay (s : State) : State :=
  match s.rp.starting with
  | none => s
  | some (mb, x) =>
    let s := loadSnapshot s x true
    replyTo { s with rp := { s.rp with starting := none, running := true, cycle := none } } mb Reply.ok

/-- The output image as a replayed cycle leaves it: every output point carries REPLAY (01 R50). -/
def markReplay (s : State) (n : NetImage) : State :=
  let ps := pointsOf n 2 ++ pointsOf n 3
  { s with pt := { s.pt with
      output := ps.foldl (fun m p => let e := getD Entry.reset m p; setD Entry.reset m p { e with quality := setBit e.quality 6 true }) s.pt.output } }

/-- Step 4: a replayed cycle ends with its exchange and its publications, and its outputs are kept for two cycles (notes/assumptions/53). -/
def endReplayed (s : State) (n : NetImage) (r : FeedRec) (withheld : Bool) : State :=
  let s := if withheld then withhold s n else exchange s n
  let s := markReplay s n
  let s := publishDueResults s n (r.cycle + 1) (r.start + cycleLen s) withheld
  let x : Replayed := { cycle := r.cycle, output := s.pt.output, results := s.sv.slots.map (fun q => q.pub) }
  let kept := (s.rp.outputs ++ [x]).drop ((s.rp.outputs.length + 1) - 2)
  { s with rp := { s.rp with
      cycle := none, outputs := kept, count := wrap32 (s.rp.count + 1)
      records := s.rp.records.filter (fun q => kept.any (fun y => y.cycle == q.mcc)) } }

/-- The entries of a record as the program sees them: a SOLVER point published in this replay holds what was published (01 R50). -/
def overlay (s : State) (n : NetImage) (r : FeedRec) : FeedRec :=
  { r with entries := (pointsOf n 5).foldl (fun m p =>
      let t := (trackOf s p).entry
      if bit t.quality 6 then setD Entry.reset m p { t with age := (getD Entry.reset m p).age } else m) r.entries }

/-- Step 3: the next record is taken, if one is queued. -/
def takeRecord (s : State) (n : NetImage) : State :=
  match s.rp.feeds with
  | [] => { s with rp := { s.rp with cycle := none } }
  | r :: t =>
    let r := overlay s n r
    { s with
      rp := { s.rp with cycle := some r, feeds := t }
      ce := { s.ce with latchTick := r.ticks } }

/-- The entry of a SOLVER point once the live results are back: as after a publication of its slot, or as at image load. -/
def restoredEntry (s : State) (n : NetImage) (p : Nat) : Entry :=
  match (solveSlot s (fld (n.pointAt p).source 0 2)).pub with
  | some r => solverEntry s n r p
  | none => { value := (n.paramOf (n.pointAt p)).subst, quality := 7, age := (trackOf s p).entry.age }

/-- Step 5: the live state saved at the start is restored, MA11 ends, and the cycle is marked MAINTENANCE (notes/assumptions/53). -/
def endReplay (s : State) (n : NetImage) : State :=
  match s.rp.ending, s.rp.saved with
  | some mb, some x =>
    let s := loadSnapshot s x false
    let out := s.rp.savedOut
    let s := { s with
      rp := { s.rp with running := false, ending := none, saved := none, savedOut := [], feeds := [], fed := none, cycle := none, starting := none }
      pt := { s.pt with
        output := out
        working := (pointsOf n 2 ++ pointsOf n 3).foldl (fun m p => let e := getD Entry.reset out p; setD Entry.reset m p { e with age := ageOn e.age }) s.pt.working } }
    let s := (pointsOf n 5).foldl (fun s p => putSolver s p (restoredEntry s n p)) s
    replyTo (maEnd (noteExc s 5) 11 0 stOk) mb Reply.ok
  | _, _ => s

end Sys2Proof.Machine
end

