-- ==== Sys2Proof/Machine/CheckValue.lean ====
section
/-! DEFINITION. The host check-value units CV0 to CV7 (16_check_value_units R412 to R417). -/
namespace Sys2Proof.Machine

/-- Unit n. -/
def cvUnit (s : State) (n : Nat) : Cv := nth Cv.reset s.cv n

/-- The state with unit n changed by `f`. -/
def onCv (s : State) (n : Nat) (f : Cv → Cv) : State := { s with cv := modifyNth s.cv n f }

/-- START: r := INIT, and the count 0 (16 Table 16-1). -/
def Cv.start (c : Cv) : Cv := { c with r := c.init % 2 ^ c.width, count := 0 }

/-- Bytes fed (16 R412, R413). -/
def Cv.feed (c : Cv) (bs : Bytes) : Cv :=
  { c with r := crcFeed c.width c.poly c.refin c.r bs, count := wrap32 (c.count + bs.length) }

/-- CV_RESULT (16 R412). -/
def Cv.result (c : Cv) : Nat := crcResult c.width c.refout c.invout c.r

/-- CV_CFG (16 Table 16-2). -/
def Cv.cfg (c : Cv) : Nat := c.width + 256 * b2n c.refin + 512 * b2n c.refout + 1024 * b2n c.invout

/-- A write of CV_CFG: a reserved WIDTH makes the write ignored as a whole; r is taken modulo the new width (16 R416, Table 16-2). -/
def Cv.setCfg (c : Cv) (v : Nat) : Cv :=
  let w := v % 64
  if w = 0 ∨ 32 < w then c
  else { c with width := w, refin := bit v 8, refout := bit v 9, invout := bit v 10, r := c.r % 2 ^ w }

/-- A register of a unit as the host reads it (16 Table 16-1). -/
def Cv.read (c : Cv) (off : Nat) : Nat :=
  match off with
  | 0x00 => c.cfg
  | 0x04 => c.poly
  | 0x08 => c.init
  | 0x1C => c.result
  | 0x20 => c.r
  | 0x24 => c.count
  | _ => 0

/-- A register of a unit as the host writes it (16 Table 16-1). -/
def Cv.write (c : Cv) (off : Nat) (value : Word) : Cv :=
  let v := value.toNat
  match off with
  | 0x00 => c.setCfg v
  | 0x04 => { c with poly := v }
  | 0x08 => { c with init := v }
  | 0x0C => if bit v 0 then c.start else c
  | 0x10 => c.feed (natLe 1 v)
  | 0x14 => c.feed (natLe 2 v)
  | 0x18 => c.feed (natLe 4 v)
  | 0x20 => { c with r := v % 2 ^ c.width }
  | 0x24 => { c with count := v }
  | _ => c

/-! Meanings. -/

/-- CV_START: r takes INIT and the count 0 (16 R414). -/
def execCvStart (unit : Nat) (s : State) : Out := whilePowered s (onCv s unit Cv.start)

/-- CV_FEED8: one byte is fed (16 R412). -/
def execCvFeed8 (unit : Nat) (value : Word) (s : State) : Out := whilePowered s (onCv s unit (fun c => c.write 0x10 value))

/-- CV_FEED16: a half-word is fed, bits [7:0] first (16 R413). -/
def execCvFeed16 (unit : Nat) (value : Word) (s : State) : Out := whilePowered s (onCv s unit (fun c => c.write 0x14 value))

/-- CV_FEED32: a word is fed, bits [7:0] first (16 R413). -/
def execCvFeed32 (unit : Nat) (value : Word) (s : State) : Out := whilePowered s (onCv s unit (fun c => c.write 0x18 value))

/-- CV_CFG_WRITE: the parameters change; r and the count stay but for the new width (16 R416). -/
def execCvCfgWrite (unit : Nat) (value : Word) (s : State) : Out := whilePowered s (onCv s unit (fun c => c.setCfg value.toNat))

end Sys2Proof.Machine
end

