-- ==== Sys2Proof/Machine/Registers.lean ====
section
/-! DEFINITION. The register space as the host reads and writes it, block by block (12_host_link_and_mailboxes R342 to R348, 00_scope R12 to R17; the tables of the blocks' own chapters). -/
namespace Sys2Proof.Machine

/-! The GLB_ block (12 Tables 12-7 to 12-9). -/

/-- GLB_CAPS. -/
def glbCaps (s : State) : Nat := b2n s.part.m40 + 2 * b2n s.pwr.linkSpi + 4 * b2n (msiOn s)

/-- GLB_STAT (12 Table 12-8). -/
def glbStat (s : State) : Nat :=
  s.pwr.pstate + 8 * b2n s.pwr.ready + 16 * b2n s.ft.safe + 32 * b2n s.ft.hwsafe + 64 * b2n (runs s 11) +
  256 * packBits ((s.mb.boxes.drop 1).map (fun b => b.inFlight)) + 2 ^ 23 * b2n (box s 0).inFlight + 2 ^ 24 * Nat.min 15 (acceptedCount s)

/-- GLB_CPL: the oldest entry, and how many are left after it (12 R354). -/
def cplWord (s : State) : Nat :=
  match s.glb.cpl with
  | [] => 0
  | e :: t => e.1 + 128 + 256 * t.length + 65536 * e.2

/-- The oldest completion entry is removed. -/
def popCpl (s : State) : State := { s with glb := { s.glb with cpl := s.glb.cpl.drop 1 } }

/-- The high word of NT is latched (12 Table 12-7). -/
def latchNt (s : State) : State := { s with glb := { s.glb with ntHi := s.clk.nt / 2 ^ 32 } }

/-- A register of the GLB_ block without a read side effect. -/
def glbRead (s : State) (off : Nat) : Nat :=
  match off with
  | 0x000 => 0x51470040
  | 0x004 => if s.pwr.ready || decide (3 ≤ s.pwr.pstate) then 0x00030002 else 0
  | 0x008 => glbCaps s
  | 0x00C => s.part.serial % 2 ^ 32
  | 0x010 => s.part.serial / 2 ^ 32
  | 0x014 => glbStat s
  | 0x018 => s.clk.nt % 2 ^ 32
  | 0x01C => s.glb.ntHi
  | 0x020 => mcc s
  | 0x024 => irqStat s
  | 0x028 => s.glb.irqEn
  | 0x02C => s.glb.irqMap
  | 0x030 => cplWord s
  | 0x034 => s.glb.errPw
  | 0x038 => s.glb.errMb
  | 0x03C => s.glb.errSpi
  | 0x040 => s.glb.errLink
  | 0x044 => s.glb.scratch.toNat
  | _ => 0

/-- A write of GLB_IRQ_STAT clears its W1C bits, and vectors still pending send again (12 Table 12-9, R345). -/
def writeIrqStat (s : State) (v : Nat) : State :=
  let keep := s.glb.irqW1c ^^^ (s.glb.irqW1c &&& (v &&& 0x58FFFF))
  resendAll { s with glb := { s.glb with irqW1c := keep } }

/-- A write of GLB_IRQ_EN (12 R345). -/
def writeIrqEn (s : State) (v : Nat) : State := resendAll { s with glb := { s.glb with irqEn := v % 2 ^ 23 } }

/-- A write of GLB_IRQ_MAP (12 R345). -/
def writeIrqMap (s : State) (v : Nat) : State := resendAll { s with glb := { s.glb with irqMap := v % 2 ^ 24 } }

/-- A write of the GLB_ block. -/
def glbWrite (s : State) (off : Nat) (value : Word) : State :=
  match off with
  | 0x024 => writeIrqStat s value.toNat
  | 0x028 => writeIrqEn s value.toNat
  | 0x02C => writeIrqMap s value.toNat
  | 0x044 => { s with glb := { s.glb with scratch := value } }
  | _ => s

/-! The mailboxes (12 Tables 12-11 and 12-12). -/

/-- MB_STAT. -/
def mbStat (b : Mailbox) : Nat := b.state.code + 16 * b.dmaErr + 65536 * b.status

/-- A register of a mailbox header. -/
def mbRead (b : Mailbox) (off : Nat) : Nat :=
  match off with
  | 0x00 => b.cmd.toNat
  | 0x04 => b.reqLen.toNat
  | 0x08 => b.arg0.toNat
  | 0x0C => b.arg1.toNat
  | 0x10 => b.arg2.toNat
  | 0x14 => b.arg3.toNat
  | 0x18 => b.dmaLo.toNat
  | 0x1C => b.dmaHi.toNat
  | 0x20 => b.dmaLen.toNat
  | 0x24 => b.dmaCtl.toNat
  | 0x28 => b2n b.inFlight
  | 0x2C => mbStat b
  | 0x30 => b.rtag.toNat
  | 0x34 => b.rspLen
  | 0x38 => b.res0
  | 0x3C => b.res1
  | 0x40 => b.res2
  | 0x44 => b.res3
  | 0x48 => b.dmaDone
  | 0x4C => b.dmaNeed
  | 0x50 => b.time
  | _ => 0

/-- A request field takes a value. -/
def Mailbox.setField (b : Mailbox) (off : Nat) (v : Word) : Mailbox :=
  match off with
  | 0x00 => { b with cmd := v }
  | 0x04 => { b with reqLen := v &&& 0x1FFF }
  | 0x08 => { b with arg0 := v }
  | 0x0C => { b with arg1 := v }
  | 0x10 => { b with arg2 := v }
  | 0x14 => { b with arg3 := v }
  | 0x18 => { b with dmaLo := v }
  | 0x1C => { b with dmaHi := v }
  | 0x20 => { b with dmaLen := v }
  | 0x24 => { b with dmaCtl := v &&& 0x1FFF0003 }
  | _ => b

/-- A write of a mailbox header: the request fields belong to the host in IDLE and DONE only (12 R348); GO posts it. -/
def mbWrite (s : State) (n off : Nat) (value : Word) : State :=
  if off = 0x28 then (if value.getLsbD 0 then ringBell s n else s)
  else if 0x24 < off then s
  else if (box s n).inFlight then countMb s
  else onBox s n (fun b => b.setField off value)

/-- A word of a payload page. -/
def pageWord (s : State) (n off : Nat) : Nat := leNat (readBytes (box s n).page off 4)

/-- A write of a payload page (12 R348). -/
def pageWrite (s : State) (n off : Nat) (value : Word) : State :=
  if (box s n).inFlight then countMb s
  else onBox s n (fun b => { b with page := writeBytes b.page off (natLe 4 value.toNat) })

/-! The RS_ block (15 Table 15-8). -/

/-- A register of the RS_ block without its read side effect. -/
def rsRead (s : State) (off : Nat) : Nat :=
  match off with
  | 0x00 => rsStat s
  | 0x04 => s.rs.vhold
  | 0x08 => s.rs.word + 65536 * s.rs.page
  | 0x0C => windowWord s
  | 0x14 => rsCmdStat s
  | 0x18 => s.rs.errWin + 65536 * s.rs.errCmd
  | 0x1C => s.rs.gen % 2 ^ 32
  | 0x20 => s.rs.gen / 2 ^ 32
  | 0x24 => s.rs.valid % 2 ^ 32
  | 0x28 => s.rs.valid / 2 ^ 32
  | 0x2C => s.rs.dirty % 2 ^ 32
  | 0x30 => s.rs.dirty / 2 ^ 32
  | 0x34 => s.rs.ctrSel
  | 0x38 => ctrValue s s.rs.ctrSel
  | 0x3C => ctrCell s s.rs.ctrSel + 256 * b2n (ctrFailed s s.rs.ctrSel)
  | _ => 0

/-- DONE of RS_CMDSTAT is cleared (15 Table 15-10, 12 R345). -/
def clearCmdDone (s : State) : State :=
  if s.rs.cmdDone then resendGroup { s with rs := { s.rs with cmdDone := false } } 6 else s

/-- A write of the RS_ block. -/
def rsWrite (s : State) (off : Nat) (value : Word) : State :=
  match off with
  | 0x08 => { s with rs := { s.rs with word := bits value.toNat 0 11, page := bits value.toNat 16 6 } }
  | 0x0C => writeWindow s value
  | 0x10 => writeRsCmd s value
  | 0x14 => if value.getLsbD 1 then clearCmdDone s else s
  | 0x34 => { s with rs := { s.rs with ctrSel := value.toNat % 256 } }
  | _ => s

/-! The EVR_ block (18 Table 18-7). -/

/-- A register of the EVR_ block. -/
def evrRead (s : State) (off : Nat) : Nat :=
  match off with
  | 0x00 => evrStat s.ev
  | 0x04 => evrCurLo s.ev
  | 0x08 => s.ev.cursor / 2 ^ 32
  | 0x0C => s.ev.oldest % 2 ^ 32
  | 0x10 => s.ev.oldest / 2 ^ 32
  | 0x14 => s.ev.new % 2 ^ 32
  | 0x18 => s.ev.new / 2 ^ 32
  | 0x20 => s.ev.thresh
  | 0x24 => s.ev.lost
  | _ => if 0x40 ≤ off ∧ off < 0x80 then evrRec s.ev (off - 0x40) else 0

/-- A write of the EVR_ block. -/
def evrWrite (s : State) (off : Nat) (value : Word) : State :=
  match off with
  | 0x00 => writeEvrStat s value.toNat
  | 0x04 => { s with ev := { s.ev with held := value.toNat, heldAt := some s.ev.cursor } }
  | 0x08 => loadCursorHi s value
  | 0x1C => writeEvrCtrl s value.toNat
  | 0x20 => writeThresh s value.toNat
  | _ => s

/-! The LN_ and LBW_ blocks (03 Tables 3-6, 3-7, 3-10 to 3-13). -/

/-- LN_STAT. -/
def lnStat (s : State) (n : Nat) : Nat :=
  let l := lineOf s n
  let w := match lineRec s n with | some r => Nat.min 15 (boffWindow r l).length | none => 0
  l.state + 8 * b2n l.lphase + 16 * l.lerr + 256 * l.fcause + 4096 * w + 65536 * l.fhold

/-- The transmitter is enabled (03 Table 3-13, 09 R278). -/
def txEnabled (s : State) (n : Nat) : Bool :=
  let l := lineOf s n
  l.on && !(s.ft.hwsafe && l.muted)

/-- The receiver is enabled (03 Table 3-13). -/
def rxEnabled (s : State) (n : Nat) : Bool :=
  let l := lineOf s n
  (lineRec s n).isSome && l.state != 5 && !l.gsupNow

/-- LN_XCVR (03 Table 3-12). -/
def lnXcvr (s : State) (n : Nat) : Nat :=
  let l := lineOf s n
  b2n l.domto + 2 * b2n l.therm + 4 * b2n l.gsup + 8 * b2n l.busdom + 256 * b2n (txEnabled s n) + 512 * b2n (rxEnabled s n) +
  1024 * b2n l.thermNow + 2048 * b2n l.gsupNow

/-- A register of line n. LN_ALIGN wraps modulo 2^16 where GUARD lets the offset pass 32,767 CLK_C cycles: the spec gives only its 16 bits (DESIGN CHOICE, notes/assumptions/115). -/
def lnRead (s : State) (n off : Nat) : Nat :=
  let l := lineOf s n
  match off with
  | 0x00 => lnStat s n
  | 0x04 => l.tec + 65536 * l.rcv
  | 0x08 => l.abt
  | 0x0C => l.dbt
  | 0x10 => l.ssp
  | 0x14 => l.fmt
  | 0x18 => l.rxok
  | 0x1C => l.txok
  | 0x20 => l.rxerr
  | 0x24 => l.txerr
  | 0x28 => l.drop
  | 0x2C => l.disc
  | 0x30 => l.boff + 65536 * l.fences
  | 0x34 => lnXcvr s n
  | 0x38 => ofSigned 16 l.align
  | 0x3C => l.lastnt
  | _ => 0

/-- A write of LN_XCVR clears latched bits. -/
def lnWrite (s : State) (n off : Nat) (value : Word) : State :=
  if off ≠ 0x34 then s
  else
    let v := value.toNat
    onLine s n (fun l => { l with
      domto := l.domto && !bit v 0, therm := l.therm && !bit v 1, gsup := l.gsup && !bit v 2, busdom := l.busdom && !bit v 3 })

/-- A receive buffer as bytes (03 Table 3-6). -/
def Buf.bytes (b : Buf) : Bytes :=
  let len := dlcLen b.fdf b.dlc
  natLe 4 (b.ident + 2 ^ 29 * b2n b.ide + 2 ^ 30 * b2n b.fdf + 2 ^ 31 * b2n b.brs) ++
  natLe 4 (b.dlc + 16 * b2n b.esi + 32 * b2n b.valid + 256 * len + 2 ^ 17 * b2n b.repl + 2 ^ 18 * b.e2e + 2 ^ 21 * b.window) ++
  natLe 8 b.fvnt ++ slice (b.data.take len) 0 64

/-- The buffers that the selected line has (03 Table 3-7). -/
def lbwCount (s : State) : Nat :=
  match s.net.image with
  | some n => n.buffersOf (bits s.lbw.sel.toNat 0 6)
  | none => 0

/-- A word of the raw buffer window (03 R96, R97). -/
def lbwBuf (s : State) (off : Nat) : Nat :=
  let sel := s.lbw.sel.toNat
  let l := lineOf s (bits sel 0 6)
  let i := 32 * bits sel 8 3 + off / 0x50
  if lbwCount s ≤ i then 0
  else leAt (getD Buf.empty (if bit sel 16 then l.prev else l.cur) i).bytes (off % 0x50) 4

/-- A register of the LBW_ block. -/
def lbwRead (s : State) (off : Nat) : Nat :=
  let sel := s.lbw.sel.toNat
  match off with
  | 0x000 => sel
  | 0x004 => lbwCount s
  | 0x008 => if bit sel 16 then s.lbw.prevCycle else s.lbw.curCycle
  | 0x010 => s.lbw.watch + 256 * b2n s.lbw.ndat
  | _ => if 0x200 ≤ off ∧ off < 0xC00 then lbwBuf s (off - 0x200) else 0

/-- A write of the LBW_ block. -/
def lbwWrite (s : State) (off : Nat) (value : Word) : State :=
  match off with
  | 0x000 => selectBuffers s value
  | 0x010 => watchBuffer s value
  | _ => s

/-! The VNT_, DIO_ and FLT_ blocks (09 Tables 9-5 and 9-9). -/

/-- The number of active rules. -/
def activeCount (s : State) : Nat := ((List.range 1024).filter (bit s.vn.active)).length

/-- A register of the VNT_ and DIO_ block without its read side effect. -/
def vntRead (s : State) (off : Nat) : Nat :=
  match off with
  | 0x000 => b2n s.net.image.isSome + 2 * b2n s.ft.safe + 4 * b2n s.ft.hwsafe + 65536 * activeCount s
  | 0x004 => s.vn.events
  | 0x008 => s.vn.acts
  | 0x00C => s.vn.inj
  | 0x010 => s.vn.injDrop
  | 0x018 => vntFirst s
  | 0x01C => s.vn.firstNt % 2 ^ 32
  | 0x020 => s.vn.fs % 2 ^ 32
  | 0x024 => s.vn.fs / 2 ^ 32
  | 0x028 => dioDin s
  | 0x02C => dioDout s
  | 0x030 => s.vn.doBase
  | 0x034 => packBits ((List.range 16).map (fun n => (doCfg s n).safe)) + 65536 * packBits ((List.range 16).map (fun n => (doCfg s n).inUse))
  | _ =>
    if 0x040 ≤ off ∧ off < 0x0C0 then bits s.vn.active (8 * (off - 0x040)) 32
    else if 0x0C0 ≤ off ∧ off < 0x100 then nth 0 s.vn.pcnt ((off - 0x0C0) / 4)
    else 0

/-- A write of the VNT_ block. -/
def vntWrite (s : State) (off : Nat) (value : Word) : State :=
  if off ≠ 0x014 then s else if value.getLsbD 31 then releaseAll s else releaseRule s (value.toNat % 1024)

/-- FLT_STAT. -/
def fltStat (s : State) : Nat :=
  (match s.ft.stack with | f :: _ => f.cls | [] => 0) + 8 * s.ft.highest + 64 * b2n s.ft.entry.isSome + 128 * b2n s.ft.safe + 256 * b2n s.ft.hwsafe +
  512 * b2n (s.ft.safe || s.ft.hwsafe) + 1024 * b2n s.ft.exitRefused + 2048 * b2n (decide (1 < s.ft.stack.length)) +
  65536 * s.ft.queue.length + 2 ^ 21 * b2n s.ft.ovfLatch.isSome

/-- A register of the FLT_ block. -/
def fltRead (s : State) (off : Nat) : Nat :=
  match off with
  | 0x000 => fltStat s
  | 0x004 => s.ft.pend
  | 0x008 => s.ft.ovf
  | 0x020 => s.ft.lastCode + 65536 * s.ft.lastCls
  | 0x024 => s.ft.lastNt % 2 ^ 32
  | 0x028 => s.ft.lastNt / 2 ^ 32
  | 0x02C => s.ft.safeCause
  | 0x030 => b2n s.ft.safeExit
  | 0x034 => s.ft.hwCause
  | _ => if 0x00C ≤ off ∧ off < 0x020 then nth 0 s.ft.cnt ((off - 0x00C) / 4) else 0

/-- A write of FLT_PEND clears the bits written 1 (09 Table 9-9). -/
def clearPend (s : State) (v : Nat) : State :=
  let hit := s.ft.pend &&& v
  if hit = 0 then s else resendGroup { s with ft := { s.ft with pend := s.ft.pend ^^^ hit } } 2

/-- A write of the FLT_ block. -/
def fltWrite (s : State) (off : Nat) (value : Word) : State :=
  match off with
  | 0x004 => clearPend s value.toNat
  | 0x030 => if value.getLsbD 0 then requestExit s else s
  | _ => s

/-! The register space (12 Table 12-6). -/

/-- A register without a read side effect, by its address. -/
def peekReg (s : State) (addr : Nat) : Nat :=
  if addr < 0x400 then glbRead s addr
  else if addr < 0xC00 then mbRead (box s ((addr - 0x400) / 0x80)) ((addr - 0x400) % 0x80)
  else if 0x1100 ≤ addr ∧ addr < 0x1200 then rsRead s (addr - 0x1100)
  else if 0x1200 ≤ addr ∧ addr < 0x1300 then evrRead s (addr - 0x1200)
  else if 0x2000 ≤ addr ∧ addr < 0x2200 then (cvUnit s ((addr - 0x2000) / 0x40)).read (addr % 0x40)
  else if 0x4000 ≤ addr ∧ addr < 0x5000 then lnRead s ((addr - 0x4000) / 0x40) (addr % 0x40)
  else if 0x5000 ≤ addr ∧ addr < 0x5400 then mtrRead s (addr - 0x5000)
  else if 0x5400 ≤ addr ∧ addr < 0x5800 then hqReadReg s (addr - 0x5400)
  else if 0x6000 ≤ addr ∧ addr < 0x6100 then vntRead s (addr - 0x6000)
  else if 0x7000 ≤ addr ∧ addr < 0x7100 then fltRead s (addr - 0x7000)
  else if 0x8000 ≤ addr ∧ addr < 0x9000 then lbwRead s (addr - 0x8000)
  else if 0x20000 ≤ addr ∧ addr < 0x30000 then pageWord s ((addr - 0x20000) / 0x1000) (addr % 0x1000)
  else 0

/-- The read side effect of an address (access code RS, 00 Table 0-5). -/
def readEffect (s : State) (addr : Nat) : State :=
  match addr with
  | 0x0018 => latchNt s
  | 0x0030 => popCpl s
  | 0x110C => nextWord s
  | 0x6018 => clearFirst s
  | _ => s

/-- A host read of one word: its value, and the state after its side effect (00 R14, R17). -/
def readReg (s : State) (addr : Nat) : Nat × State :=
  if 0x1000 ≤ addr ∧ addr < 0x1100 then readRtc s (addr - 0x1000) else (peekReg s addr, readEffect s addr)

/-- A host write of one word, by the access code of its register (00 R13, R14). -/
def writeReg (s : State) (addr : Nat) (value : Word) : State :=
  if addr % 4 ≠ 0 then s
  else if addr < 0x400 then glbWrite s addr value
  else if addr < 0xC00 then mbWrite s ((addr - 0x400) / 0x80) ((addr - 0x400) % 0x80) value
  else if 0x1000 ≤ addr ∧ addr < 0x1100 then writeRtc s (addr - 0x1000) value
  else if 0x1100 ≤ addr ∧ addr < 0x1200 then rsWrite s (addr - 0x1100) value
  else if 0x1200 ≤ addr ∧ addr < 0x1300 then evrWrite s (addr - 0x1200) value
  else if 0x2000 ≤ addr ∧ addr < 0x2200 then onCv s ((addr - 0x2000) / 0x40) (fun c => c.write (addr % 0x40) value)
  else if 0x4000 ≤ addr ∧ addr < 0x5000 then lnWrite s ((addr - 0x4000) / 0x40) (addr % 0x40) value
  else if addr = 0x5004 then writeMtrCtrl s value.toNat
  else if 0x6000 ≤ addr ∧ addr < 0x6100 then vntWrite s (addr - 0x6000) value
  else if 0x7000 ≤ addr ∧ addr < 0x7100 then fltWrite s (addr - 0x7000) value
  else if 0x8000 ≤ addr ∧ addr < 0x9000 then lbwWrite s (addr - 0x8000) value
  else if 0x20000 ≤ addr ∧ addr < 0x30000 then pageWrite s ((addr - 0x20000) / 0x1000) (addr % 0x1000) value
  else s

/-- The answer to the host's read: its words. -/
def answerWords (s : State) (ws : List Word) : State := { s with link := { s.link with rdata := ws, refused := false } }

/-! Meanings. -/

/-- REGISTER_WRITE: a register takes a write by its access code (00 R14). -/
def execRegisterWrite (addr : Nat) (value : Word) (s : State) : Out := whilePowered s (writeReg s addr value)

/-- GLB_NT_LO_READ: NT [31:0] is returned, and NT [63:32] of the same instant latched (12 Table 12-7). -/
def execGlbNtLoRead (s : State) : Out := whilePowered s (latchNt (answer s (s.clk.nt % 2 ^ 32)))

/-- GLB_CPL_READ: the oldest completion entry is returned and removed (12 R354). -/
def execGlbCplRead (s : State) : Out := whilePowered s (popCpl (answer s (cplWord s)))

/-- GLB_IRQ_STAT_WRITE: W1C bits are cleared, and vectors still pending send again (12 R345). -/
def execGlbIrqStatWrite (value : Word) (s : State) : Out := whilePowered s (writeIrqStat s value.toNat)

/-- GLB_IRQ_EN_WRITE: the enables are set, and vectors still pending send again (12 R345). -/
def execGlbIrqEnWrite (value : Word) (s : State) : Out := whilePowered s (writeIrqEn s value.toNat)

/-- GLB_IRQ_MAP_WRITE: the vector map is set, and vectors still pending send again (12 R345). -/
def execGlbIrqMapWrite (value : Word) (s : State) : Out := whilePowered s (writeIrqMap s value.toNat)

end Sys2Proof.Machine
end

