-- ==== Sys2Proof/Machine/System.lean ====
section
/-! DEFINITION. The system commands: identity, power state, reset, parameters and configuration images (13_command_reference Table 13-3, R368; 15_retained_store R409 to R411; 19 R466 to R468, R475). -/
namespace Sys2Proof.Machine

/-! Parameters (15 R411). -/

/-- PAR_READ: the value in force and its layers. -/
def execParRead (mb : Nat) (s : State) : Out :=
  runCommand s mb 0x0110 (fun b =>
    let p := b.arg0.toNat
    if !parDefined p then refuse s mb stBadParameter
    else
      let set_ := match s.pa.conf with | some c => (lookup c.entries p).isSome | none => false
      finish s mb { Reply.ok with res0 := (parValue s p).toNat, res1 := b2n set_ + 2 * b2n (lookup s.pa.runtime p).isSome + 4 * b2n (p == 0x0101) })

/-- PAR_WRITE: the runtime layer, from which a CFG_DISCARD taken before drops no later change (12 R353); metering and heat parameters are not changeable at run time (10 R315, 11 R317, 13 R368). -/
def execParWrite (mb : Nat) (s : State) : Out :=
  runCommand s mb 0x0111 (fun b =>
    let p := b.arg0.toNat
    if !parDefined p then refuse s mb stBadParameter
    else if p ≠ 0x0101 then refuse s mb stNotPermitted
    else if !parInRange p b.arg1 then refuse s mb stBadParameter
    else finish { s with pa := { s.pa with runtime := insertAt s.pa.runtime p b.arg1, discard := s.pa.discard.filter (fun q => q != p) } } mb { Reply.ok with res0 := mcc s })

/-- CFG_COMMIT: MA04 runs while the image is being written to the slot that does not hold the newest one (13 R368). KS08 makes its IMAGE_MAC; its row lists no KEY_BAD (17 R441). -/
def execCfgCommit (mb : Nat) (s : State) : Out :=
  runCommand s mb 0x0112 (fun _ =>
    if collides s 4 0 then refuse s mb stConflict
    else if newestSeq s = 0xFFFFFFFF then refuse s mb stNotPermitted
    else if keysOn s && slotBad s 8 then refuse s mb stAuthFailed
    else
      let seq := newestSeq s + 1
      let slot := writeSlot s
      let s := maStart (accept s mb) 4 0
      replyTo { s with im := { s.im with flash := eraseAt s.im.flash (16 + slot), cfgCommit := some slot } } mb { Reply.ok with res0 := seq, res1 := slot })

/-- CFG_DISCARD: the runtime changes are dropped at the next boundary. -/
def execCfgDiscard (mb : Nat) (s : State) : Out :=
  runCommand s mb 0x0113 (fun _ =>
    if runs s 4 then refuse s mb stConflict
    else finish { s with pa := { s.pa with discard := s.pa.runtime.map (fun e => e.1) } } mb { Reply.ok with res0 := s.pa.runtime.length })

/-- The runtime changes that a CFG_DISCARD named are dropped (15 R411). -/
def discardDue (s : State) : State :=
  { s with pa := { s.pa with runtime := s.pa.runtime.filter (fun e => !s.pa.discard.contains e.1), discard := [] } }

/-! Identity. -/

/-- The configuration image in force and its sequence number as SYS_INFO shows them: free words where no flash slot holds it (notes/assumptions/52). -/
def confShown (s : State) : Word × Word :=
  match s.pa.conf with
  | some c => if c.slot = 2 then (freeWord s, BitVec.ofNat 32 c.seq) else (BitVec.ofNat 32 c.slot, BitVec.ofNat 32 c.seq)
  | none => (freeWord s, freeWord (drew s))

/-- SYS_INFO. -/
def execSysInfo (mb : Nat) (s : State) : Out :=
  runCommand s mb 0x0101 (fun _ =>
    let w := fun (x : Nat) => natLe 4 x
    let c := confShown s
    let page := w (glbRead s 0x000) ++ w (glbRead s 0x004) ++ w (glbRead s 0x00C) ++ w (glbRead s 0x010) ++ w (glbRead s 0x008) ++
      w s.pwr.pstate ++ w s.im.fwSlot ++ imageSetDigest s ++ w c.1.toNat ++ w c.2.toNat ++ natLe 28 0
    finish (drew (drew s)) mb { Reply.ok with page := page })

/-! Power states (19 R466 to R468). -/

/-- VHOLD stands at 27.0 V or more, or 1,000 ms have passed since the first two conditions held. -/
def holdReady (s : State) : Bool :=
  decide (27000 ≤ s.rs.vhold) ||
    (match s.pwr.condSince with | some t => decide (t + 1000000 ≤ s.clk.nt) | none => false)

/-- The conditions of R467. -/
def mayActivate (s : State) : Bool := imagesReady s && holdReady s

/-- The RETAIN pages in use (15 R401). -/
def retainPages (s : State) : List Nat :=
  match activeProg s with
  | some p => (List.range (Nat.min 32 (ceilDiv p.retainSize 8192))).map (fun i => 16 + i)
  | none => []

/-- Pages of a list that are dirty. -/
def dirtyOf (s : State) (ps : List Nat) : List Nat := ps.filter (fun p => bit s.rs.dirty p)

/-- A transition between RUN, TEST and RECOVERY is in 19 Table 19-4, with its condition. -/
def transitionOk (s : State) (target : Nat) : Bool :=
  match s.pwr.pstate, target with
  | 3, 4 | 3, 5 | 4, 5 | 5, 4 => true
  | 4, 3 | 5, 3 => mayActivate s
  | _, _ => false

/-- SYS_STATE. From RUN the pages of R468 are stored by their owners, and the state is left at the next boundary; RUN is entered by ACTIVATION. -/
def execSysState (mb : Nat) (s : State) : Out :=
  runCommand s mb 0x0102 (fun b =>
    let t := b.arg0.toNat
    if t < 3 ∨ 5 < t then refuse s mb stBadParameter
    else if !transitionOk s t then refuse s mb stNotPermitted
    else if s.ma ≠ [] then refuse s mb stConflict
    else
      let s := accept s mb
      if t = 3 then { s with pwr := { s.pwr with toState := some (3, mb) } }
      else if inRun s then
        requestStores { s with pwr := { s.pwr with toState := some (t, mb) } } (retainPages s ++ dirtyOf s [0, 10]) .owner
      else replyTo (setPstate s t) mb { Reply.ok with res0 := t })

/-- SYS_RESET: OK, and the reset 10,000 CLK_T cycles later (19 R475). -/
def execSysReset (mb : Nat) (s : State) : Out :=
  runCommand s mb 0x0103 (fun b =>
    if b.arg0 ≠ 0xA5A5 then refuse s mb stBadParameter
    else
      let s := finish s mb Reply.ok
      { s with pwr := { s.pwr with sysResetAt := some (s.pwr.sysResetAt.getD (s.clk.nt + 10000)) } })

end Sys2Proof.Machine
end

