-- ==== Sys2Proof/Machine/Boundary.lean ====
section
/-! DEFINITION. The matrix-cycle boundary: the cut, the exchange, the publications, what waits for a boundary, and the leaving of RUN (01_matrix_cycle_walkthrough R34 to R39, R43, R44; 05 R147, R148; 15 R401; 18 R449; 19 R467, R468). -/
namespace Sys2Proof.Machine

/-! The guarantee exceptions (01 R43, Table 1-10). -/

/-- A point of an image carries FORCED. -/
def anyForced (m : NMap Entry) : Bool := m.any (fun p => bit p.2.quality 5)

/-- The exception set of the cycle that closes; FORCED is read from its images, in REPLAY from those of the record's cycle. -/
def exceptionSet (s : State) : Nat := setBit s.ce.exc 3 (anyForced (progInput s) || anyForced s.pt.output)

/-- The record of the cycle that closes, if an exception took effect in it: at the NT of its closing boundary and with its count, in REPLAY those of the replayed cycle, with the replay flag (01 R43, R50; 18 R444, R454). -/
def exceptionRecord (s : State) : State :=
  if exceptionSet s = 0 then s
  else
    match s.rp.cycle with
    | some r => offerRecord s (r.start + cycleLen s) (wrap32 r.cycle) 0x0170 0 0 true [word (exceptionSet s)]
    | none => record s 0x0170 0 [word (exceptionSet s)]

/-! The cut (01 R34 steps 2 and 6). -/

/-- The banks of a line change places, and the new one reads empty (03 R94). -/
def lineCut (l : Line) : Line := { l with prev := l.cur, cur := [] }

/-- The banks of every line. -/
def cutBanks (s : State) : State := { s with ln := s.ln.map (fun p => (p.1, lineCut p.2)) }

/-- The banks are those of the cycle that begins and of the one before (03 Table 3-7). -/
def turnBanks (s : State) : State := { s with lbw := { s.lbw with prevCycle := s.lbw.curCycle, curCycle := mcc s } }

/-- A METER point copies its quantity; out of service it takes that state (10 R301, R302, 11 R326, 02 Table 2-15). -/
def cutMeter (s : State) (n : NetImage) (p : Nat) : State :=
  let r := n.pointAt p
  let src := fld r.source 0 6
  let q := fld r.source 8 8
  let x := if src < 12 then meterValue s (n.paramOf r).subst src q else heatValue s (src - 16) q
  putInput s p x.1 (if unitOut s r.unit then 4 + qFlags x.2 else x.2)

/-- A METER point copies a heat channel. -/
def ofHeat (n : NetImage) (p : Nat) : Bool := decide (16 ≤ fld (n.pointAt p).source 0 6)

/-- The METER points of metering points, or those of heat channels. -/
def cutMeters (s : State) (n : NetImage) (heat : Bool) : State :=
  ((pointsOf n 6).filter (fun p => ofHeat n p == heat)).foldl (fun s p => cutMeter s n p) s

/-- The input cut: RX points, METER points of metering, SOLVER and status points (01 R34). -/
def cut (s : State) (n : NetImage) : State :=
  let s := cutBanks { s with vn := { s.vn with pcntCut := s.vn.pcnt } }
  let s := cutRx s n (pointsOf n 1)
  cutStatus (cutSolver (cutMeters s n false) n) n (pointsOf n 4)

/-- The step of the heat channels on input image k, then the METER points that copy the step of their cut (11 R318, R326; notes/assumptions/42). -/
def cutHeat (s : State) (n : NetImage) : State := cutMeters (heatReads (heatCut s)) n true

/-! What a boundary does for the tasks (01 R37, R42, 05 R144, R148). -/

/-- The images and unit states of the cycle that ends, for the FAST execution that goes on (05 Table 5-2). -/
def keepView (s : State) : State :=
  match s.ce.fast.exec with
  | some e =>
    let v : View := { input := progInput s, output := s.pt.output, units := progUnits s }
    if e.view.isSome then s else onTask s 0 (fun r => { r with exec := some { e with view := some v } })
  | none => s

/-- The exchange is withheld: a NETWORK execution has not completed or missed this boundary as its deadline, or one was stopped and none has completed since (01 R37, 05 R142, notes/assumptions/55). -/
def withholds (s : State) : Bool := s.ce.network.exec.isSome || s.ce.network.late || s.ce.network.stopped

/-- A SLOW execution is past its boundary, or what it wrote late is not yet published. -/
def slowLate (s : State) : Bool :=
  s.ce.slow.late || (match s.ce.slow.exec with | some e => decide (e.deadline ≤ s.clk.nt) | none => false)

/-- The overruns of the boundary mark the cycle that begins (01 Table 1-10). -/
def noteOverruns (s : State) : State :=
  let s := if s.ce.network.exec.isSome then onTask s 1 (fun r => { r with late := true }) else s
  let s := if slowLate s then onTask s 2 (fun r => { r with late := true }) else s
  if withholds s || slowLate s then noteExc s 6 else s

/-- The release instants of a cycle start again. -/
def newReleases (s : State) : State :=
  { s with ce := { s.ce with
      fast := { s.ce.fast with nextRel := 0 }, network := { s.ce.network with nextRel := 0 }, slow := { s.ce.slow with nextRel := 0 } } }

/-- The idle counts close, but at T0, which ends no cycle, and the records of the cycle engine and the solver engine are updated (05 R147, R148, 07 R216). -/
def updateRecords (s : State) : State :=
  let s := swapBoundary { s with ce := { s.ce with idle := if s.clk.k = 0 then s.ce.idle else s.ce.idle.map Idle.close } } s.clk.k
  let s := { s with ce := { s.ce with record := ceRecord s, areaWas := (activeSlot s).area }, sv := { s.sv with record := engineRecord s } }
  { s with sv := { s.sv with busy := List.replicate 16 0, winMax := windowUsed s, moved := 0 } }

/-! The RETAIN set (15 R401). -/

/-- The RETAIN variables of a program in ascending offset. -/
def retainVars (p : ProgImage) : List VarRec := sortBy (fun v => v.offset) (p.vars.filter (fun v => v.retain))

/-- The word of a variable's published copy, or of its working copy if it has none. -/
def VarRec.shown (v : VarRec) : Nat := v.offset / 4 + (if v.exported then v.length else 0)

/-- The RETAIN set as bytes: the published elements, packed in ascending offset (notes/assumptions/54). -/
def retainBytes (p : ProgImage) (m : NMap Word) : Bytes := (retainVars p).flatMap (fun v => wordsLe (areaWords m v.shown v.length))

/-- The set is copied into its pages, which carry the count of the boundary and the program's names. -/
def copyRetain (s : State) : State :=
  match activeProg s with
  | none => s
  | some p =>
    let all := retainBytes p (activeSlot s).area
    (indexed (retainPages s)).foldl (fun s q =>
      let head : PageMeta := { fmt := 1, len := Nat.min 8192 (p.retainSize - 8192 * q.1), w0 := mcc s, w1 := p.programId, w2 := p.version }
      ownerWrite s { page := q.2, off := 0, bytes := slice all (8192 * q.1) 8192, head := head, store := false }) s

/-! Sinter records (18 R449). -/

/-- The body of a SINTER record. -/
def sinterBody (x : Sinter) (first : Nat) : Bytes :=
  natLe 4 x.count ++ natLe 4 first ++ natLe 4 x.min.toNat ++ natLe 4 x.max.toNat ++ natLe 4 x.sum.toNat ++ x.bins.flatMap (natLe 2) ++ natLe 4 0

/-- The spans that end at boundary k are recorded at its NT. -/
def flushSinters (s : State) (k nt : Nat) : State :=
  s.ev.sinter.foldl (fun s q =>
    let e := eventOf s q.1 0
    if e.span = 0 ∨ k % e.span ≠ 0 then s
    else
      let s := { s with ev := { s.ev with sinter := eraseAt s.ev.sinter q.1 } }
      if q.2.count = 0 then s
      else
        let r : Rec :=
          { seq := 0, nt := nt, mcc := wrap32 (k + 2 ^ 32 - 1), code := q.1, flags := recFlags 0 s.rp.running 2 e.excerpt, source := 1
            body := sinterBody q.2 (wrap32 (k + 2 ^ 32 - e.span)) }
        { s with ev := { s.ev with waiting := s.ev.waiting ++ [r] } }) s

/-! The leaving of RUN (19 R468). -/

/-- Solves in progress end without publication, and executions stop (07 R210, 19 R468, R472). -/
def stopEngines (s : State) : State :=
  let s := (List.range 4).foldl freeContexts s
  let stop := fun (r : TaskRun) => { r with exec := none, prevOk := r.prevOk && r.exec.isNone }
  { s with
    sv := { s.sv with order := [], slots := s.sv.slots.map (fun x => { x with solve := none, held := none, heldMem := none }) }
    ce := { s.ce with fast := stop s.ce.fast, network := stop s.ce.network, slow := stop s.ce.slow } }

/-- Every line goes OFFLINE, and its stations are FENCED (03 R102). -/
def linesOff (s : State) : State :=
  let s := (List.range 64).foldl (fun s i => if (lineRec s i).isSome then goOffline s i else s) s
  match s.net.image with
  | some n => stationsMove s n (List.range n.units.length)
  | none => s

/-- At the boundary RUN is left for TEST or RECOVERY: no cut, no exchange, no release; NDAT is set as at every boundary (03 R97). -/
def leaveRun (s : State) (target mb : Nat) : State :=
  let s := stopEngines (linesOff s)
  let s := dropWork (endActivities { discardDue s with lbw := { s.lbw with ndat := true } }) true
  let s := setPstate { s with clk := { s.clk with begun := false, t0 := none } } target
  replyTo s mb { Reply.ok with res0 := target }

/-! The boundary. -/

/-- FHOLD of the fences that stand at a boundary, and the cycles for which bus-offs have counted (03 R100). -/
def countHolds (s : State) : State :=
  { s with ln := s.ln.map (fun p =>
      let l := { p.2 with boffs := p.2.boffs.map (fun c => c + 1) }
      (p.1, if l.state = 4 then { l with fhold := l.fhold - 1 } else l)) }

/-- The fences whose hold has run out end where the transceiver reports no fault (03 R100). -/
def endHolds (s : State) : State :=
  (List.range 64).foldl (fun s i =>
    match lineRec s i with
    | some r => if holdOut r 0 (lineOf s i) then integrate s i else s
    | none => s) s

/-- The requests of the mailboxes meant take effect: line, key, solve program, configuration (13 R370, 17 R439, 03 Table 3-9). -/
def applyOf (s : State) (mine : Nat → Bool) : State :=
  applyConfig (applySolves (commitAtBoundary (settleLines s mine) s.clk.k mine) mine) mine

/-- The unit requests take effect together, with the forces (02 R69, R73). -/
def applyUnits (s : State) (n : NetImage) : State := answerUnits (settleUnits s n (mcc s)) s.un.requests

/-- What a boundary makes effective: the holds of fences, then the requests in the order in which their mailboxes were taken, unit requests with the first of them (12 R353; notes/assumptions/122). -/
def applyRequests (s : State) (n : NetImage) : State :=
  let s := dropOldKeys (discardDue (endHolds (countHolds s))) s.clk.k
  let before := s.mb.order.takeWhile (fun m => !s.un.requests.any (fun r => r.mb == m))
  let after := s.mb.order.drop before.length
  let s := applyUnits (before.foldl (fun (s : State) (m : Nat) => applyOf s (fun x => x == m)) s) n
  applyOf (after.foldl (fun (s : State) (m : Nat) => applyOf s (fun x => x == m)) s) (fun _ => true)

/-- The latched inputs of the cycle (01 Table 1-8). -/
def latchInputs (s : State) : State :=
  { s with
    ce := { s.ce with latchTick := s.rtc.tick, latchValid := timeValid s, latchBeyond := s.rtc.beyond }
    un := { s.un with atBoundary := s.un.run } }

/-- The exchange and the publications of the live cycle (01 R34 steps 3 and 4, 09 R270). -/
def exchangeStep (s : State) (n : NetImage) : State :=
  let hold := withholds s
  let s := if hold then withhold s n else exchange s n
  let s := publishDueResults (forceSolver s n) n s.clk.k s.clk.nt hold
  if runs s 11 || hold then s else { s with vn := { s.vn with doBase := doBases s } }

/-- The boundary in REPLAY: a replayed cycle ends, or none ran (01 Table 1-12). -/
def replayStep (s : State) (n : NetImage) : State :=
  match s.rp.cycle with
  | some r => endReplayed s n r (withholds s)
  | none => s

/-- What the images and the solver do at a boundary that cuts. -/
def cycleData (s : State) (n : NetImage) : State :=
  let s := cut s n
  let s := if s.rp.running then replayStep s n else exchangeStep s n
  noteOverruns (cutHeat s n)

/-- A network image that comes in sets the images itself: no cut and no exchange of the images before it (13 R370; notes/assumptions/49). -/
def cycleImages (s : State) (n : NetImage) : State :=
  let s := turnBanks s
  if s.im.netLoad.isSome then applyNetwork s else cycleData s n

/-- Replay starts, goes on or ends, and a capture is made (01 Table 1-12). -/
def replayTurn (s : State) (n : NetImage) : State :=
  let s := if s.rp.starting.isSome then startReplay s else if s.rp.running && s.rp.ending.isNone then takeRecord s n else s
  captureDue (endReplay s n)

/-- The last part of a boundary: snapshots of the solves, the RETAIN copy, sinter spans, records, watchdog and basic cycle 0 (08 R218, 15 R401, 18 R449, 09 R268, R278, 03 R97, 04 R109). -/
def openCycle (s : State) : State :=
  let s := match s.net.image, activeProg s with
    | some n, some p => if releases s then snapshots s n (relCycle s) (slowDue s p) else s
    | _, _ => s
  let s := copyRetain s
  let s := if releases s then flushSinters s (relCycle s) (relStart s) else s
  let s := updateRecords (newReleases s)
  let s := settleSets { s with
    ft := { s.ft with beat := some s.clk.nt }
    ks := { s.ks with lineBad := s.ks.bad }
    lbw := { s.lbw with ndat := true } }
  startBasic s s.clk.nt

/-- Boundary T0: no cut, no exchange; input image 0 and the unit states latched are those of the activation; what was accepted since then takes effect (19 R467). -/
def firstBoundary (s : State) (n : NetImage) (t : Nat) : State :=
  let s := latchPulses (advanceTo s t)
  let s := { s with
    clk := { s.clk with begun := true, bc := 0 }
    ce := { s.ce with idle := s.ce.idle.map (fun (x : Idle) => { x with running := 0 }) } }
  match s.pwr.toState with
  | some (t, mb) => leaveRun s t mb
  | none =>
    let s := applyRequests (latchInputs s) n
    let s := if s.im.netLoad.isSome then applyNetwork s else s
    openCycle (replayTurn s n)

/-- A later boundary. -/
def nextBoundary (s : State) (n : NetImage) : State :=
  let s := exceptionRecord (keepView (advanceTo s (boundaryNt s (s.clk.k + 1))))
  let s := { s with
    clk := { s.clk with k := s.clk.k + 1, bc := 0 }
    ce := { s.ce with exc := s.ce.excNext, excNext := 0 } }
  match s.pwr.toState with
  | some (t, mb) => leaveRun s t mb
  | none =>
    let s := latchInputs (applyRequests s n)
    let s := cycleImages s n
    openCycle (replayTurn s n)

/-- BOUNDARY (01 R34): in RUN, at T0 or at the end of the current cycle. -/
def execBoundary (s : State) : Out :=
  match s.net.image, s.clk.t0 with
  | some n, some t => if !inRun s || s.ft.hwsafe then done s else if s.clk.begun then done (nextBoundary s n) else done (firstBoundary s n t)
  | _, _ => done s

end Sys2Proof.Machine
end

