-- ==== Sys2Proof/Machine/Cold.lean ====
section
/-! DEFINITION. What a reset and a loss of power keep and clear, and the end of the store of R469 (19_power_startup_maintenance R466, R469, R474, Table 19-7; 10 R312 to R314; 14 R374). -/
namespace Sys2Proof.Machine

/-- A page store and a counter increment in progress complete (19 R474, 15 R396). -/
def finishPrograms (s : State) : State :=
  let s := match s.rs.cur with
    | some c =>
      let s := advanceTo s (c.since + 25)
      { s with rs := { s.rs with cur := none, shadow := insertAt s.rs.shadow c.page c.image } }
    | none => s
  match s.rs.incCur with
  | some i =>
    let s := programCell (advanceTo s (i.since + 4)) i.counter
    { s with rs := { s.rs with incCur := none } }
  | none => s

/-- A shadow page whose programming stops after `m` bytes: the data come first, then the header (15 R393). -/
def tornPage (old : Option Shadowed) (new : Shadowed) (m : Nat) : Option Shadowed :=
  let data := pasteSpan (match old with | some x => x.data | none => []) 0 (Nat.min m 8192) (moveSpan new.data 0 (Nat.min m 8192) 0)
  let h := new.header.take (m - 8192)
  match old with
  | some x => some { header := h ++ x.header.drop (m - 8192), data := data }
  | none => if m ≤ 8192 then none else some { header := h ++ List.replicate (64 - h.length) 0, data := data }

/-- All power is lost in the middle of an operation: a page store has programmed a number of bytes that is open, and the cell of an increment fails its check (15 R393, R402). -/
def tearPrograms (s : State) : State :=
  let s := match s.rs.cur with
    | some c =>
      let m := (freeWord s).toNat % 8257
      let s := drew s
      match tornPage (lookup s.rs.shadow c.page) c.image m with
      | some x => { s with rs := { s.rs with cur := none, shadow := insertAt s.rs.shadow c.page x } }
      | none => { s with rs := { s.rs with cur := none } }
    | none => s
  match s.rs.incCur with
  | some i =>
    let k := 32 * i.counter + (ctrCell s i.counter + 1) % 32
    let v := (cellOf s i.counter ((ctrCell s i.counter + 1) % 32)).value
    { s with rs := { s.rs with incCur := none, cells := setD { value := 0, good := true } s.rs.cells k { value := v, good := false } } }
  | none => s

/-- The transceivers' present conditions outlast a reset. -/
def Line.outside (l : Line) : Line := { Line.reset with thermNow := l.thermNow, gsupNow := l.gsupNow, domNow := l.domNow }

/-- The state after a reset, the internal reset not yet released, in a power state: only the items of Table 19-7, the battery domain and what lies outside the module are kept. -/
def coldState (s : State) (p : Nat) : State :=
  let z := State.reset
  { z with
    part := s.part
    pwr := { Pwr.reset with
      pstate := p, vin := s.pwr.vin, vbat := s.pwr.vbat, vioH := s.pwr.vioH, resetN := s.pwr.resetN, testmode := s.pwr.testmode
      hostsel := s.pwr.hostsel, vhold := s.pwr.vhold, extest := s.pwr.extest }
    ln := (s.ln.map (fun q => (q.1, q.2.outside))).filter (fun q => q.2 != Line.reset)
    vn := { Vent.reset with diRaw := s.vn.diRaw, diFilt := s.vn.diRaw }
    ft := { Ft.reset with hwCause := s.ft.hwCause, hwNew := s.ft.hwNew }
    mt := { Mt.reset with
      watchRing := s.mt.watchRing, watchTotals := s.mt.watchTotals, watchStart := s.mt.watchStart, watchEnd := s.mt.watchEnd
      watchOver := s.mt.watchOver, watchCfg := s.mt.watchCfg, watchThr := s.mt.watchThr, watchScale := s.mt.watchScale, watchNew := s.mt.watchNew }
    im := { z.im with flash := s.im.flash, fwSlot := s.im.fwNext, fwNext := s.im.fwNext }
    rtc := { s.rtc with shadow := none, change := none }
    rs := { Rs.reset with shadow := s.rs.shadow, cells := s.rs.cells }
    ks := { Ks.reset with root := s.ks.root, keydis := s.ks.keydis, slots := s.ks.slots }
    free := s.free
    pending := s.pending }

/-- The RTC domain and the battery domain lose their contents when VIN and VBAT are both absent (14 R374, 10 R313). -/
def domainCheck (s : State) : State :=
  if rtcPowered s then s
  else { s with
    rtc := .reset
    mt := { s.mt with watchRing := [], watchTotals := [], watchStart := 0, watchEnd := 0, watchOver := 0, watchCfg := 0, watchThr := 0, watchScale := [], watchNew := false } }

/-- The module after its supply has gone: OFF or WATCH, or START where VIN has come back by now. FLT_HWCAUSE does not outlast a loss of VIN (09 Table 9-9). -/
def unpowered (s : State) (p : Nat) : State :=
  let c := coldState s (if s.pwr.vin then 2 else p)
  domainCheck { c with ft := { c.ft with hwCause := 0, hwNew := false } }

/-- VIN has failed outside RUN: WATCH if VBAT is present and WATCH_MASK is not 0, else OFF (19 Table 19-4, 10 R312). -/
def powerGone (s : State) : State :=
  let cfg := meterPar s 0x0783
  let thr := meterPar s 0x0784
  let scales := watchScales s (bits cfg.toNat 0 12)
  let watch := s.part.m40 && s.pwr.vbat && bits cfg.toNat 0 12 != 0
  let s := unpowered s (if watch then 1 else 0)
  if s.pwr.pstate = 1 then
    { s with
      pwr := { s.pwr with watchStart := some s.rtc.tick }
      mt := { s.mt with watchCfg := cfg, watchThr := thr, watchScale := scales, watchStart := s.rtc.tick, watchEnd := s.rtc.tick, watchNew := true } }
  else s

/-- The store of R469 has ended: the module goes to WATCH or OFF. -/
def leaveIfStored (s : State) : State :=
  if s.pwr.leaving && !failStores s then powerGone (finishPrograms (commitCutOff s)) else s

/-- A reset takes effect (19 R474, R475). -/
def resetModule (s : State) : State := coldState (finishPrograms (commitCutOff s)) 2

end Sys2Proof.Machine
end

