-- ==== Sys2Proof/Machine/Link.lean ====
section
/-! DEFINITION. The two host links: SPI frames, PCI Express requests, the configuration space, messages, and the link's own resets (12_host_link_and_mailboxes R331 to R346, R359). What the base specification fixes and the manual only names is PRESUMED (notes/assumptions/43). -/
namespace Sys2Proof.Machine

/-! Availability. -/

/-- The SPI link answers: selected, after the end of the reset, with VIO_H good (12 R332, 19 R463). -/
def spiUp (s : State) : Bool := s.clk.running && s.clk.refOk && s.pwr.linkSpi && s.pwr.vioH && s.pcie.trainFrom != 0

/-- The PCI Express link is up (12 R336). -/
def pcieUp (s : State) : Bool := s.clk.running && s.clk.refOk && !s.pwr.linkSpi && s.pcie.up

/-! SPI (12 R338 to R340). -/

/-- An address inside the payload pages. -/
def inPages (a : Nat) : Bool := decide (0x20000 ≤ a ∧ a < 0x30000)

/-- The words of a READ frame: the first at any address, further ones while every address so far lies in the payload pages (12 R339). -/
def spiWords (n : Nat) (s : State) (a : Nat) (first inside : Bool) : List Word × State :=
  match n with
  | 0 => ([], s)
  | n + 1 =>
    let open_ := inside && inPages a
    let r := if first || open_ then readReg s a else (0, s)
    let t := spiWords n r.2 (a + 4) false open_
    (word r.1 :: t.1, t.2)

/-- The words of a WRITE frame, one register write each (12 R339). -/
def spiWrites (s : State) (a : Nat) (ws : List Word) : State :=
  match ws with
  | [] => s
  | w :: t => spiWrites (writeReg s a w) (a + 4) t

/-- SPI_WRITE (12 R338, R339). -/
def execSpiWrite (addr : Nat) (words : List Word) (s : State) : Out :=
  if !spiUp s then done s
  else if addr % 4 ≠ 0 then done (countSpi s)
  else done (spiWrites s addr words)

/-- SPI_READ (12 R338, R339). -/
def execSpiRead (addr count : Nat) (s : State) : Out :=
  if !spiUp s then done s
  else if addr % 4 ≠ 0 then done (countSpi s)
  else
    let r := spiWords count s addr true true
    done (answerWords r.2 r.1)

/-- SPI_RESERVED: the frame is ignored and counted (12 Table 12-4). -/
def execSpiReserved (command : Nat) (s : State) : Out :=
  if !spiUp s || command == 0x02 || command == 0x0B then done s else done (countSpi s)

/-- SPI_FRAME_ABORT: an incomplete write word is discarded; a read has fetched the word that was being shifted (12 R340). -/
def execSpiFrameAbort (isRead : Bool) (addr : Nat) (words : List Word) (s : State) : Out :=
  if !spiUp s then done s
  else if addr % 4 ≠ 0 then done (countSpi s)
  else if isRead then
    let r := spiWords (words.length + 1) s addr true true
    done (countSpi (answerWords r.2 (r.1.take words.length)))
  else done (countSpi (spiWrites s addr words))

/-! The configuration space (12 R334, R335, Tables 12-1 and 12-2). -/

/-- What a word of the configuration space holds beside its writable bits. -/
def cfgFixed (s : State) (off : Nat) : Nat :=
  match off with
  | 0x000 => 0x64401E7B
  | 0x004 => 0x00100000
  | 0x008 => 0x11800001
  | 0x02C => if s.part.m40 then 0x00401E7B else 0x00411E7B
  | 0x034 => 0x40
  | 0x040 => 0x00035001
  | 0x044 => 0x8 + 3 * b2n s.pcie.d3
  | 0x050 => 0x01867005
  | 0x064 => s.pcie.msiPending
  | 0x070 => 0x00020010
  | 0x074 => 0x00008001
  | 0x07C => 0x00000012
  | 0x080 => if !s.pcie.up then 0 else if s.pcie.slow then 0x00110000 else 0x00120000
  | 0x094 => 0x00000010
  | 0x100 => 0x14010001
  | 0x140 => 0x00010003
  | 0x144 => s.part.serial % 2 ^ 32
  | 0x148 => s.part.serial / 2 ^ 32
  | _ => 0

/-- The bits of a word that the host writes. -/
def cfgWritable (off : Nat) : Nat :=
  match off with
  | 0x004 => 0x0546
  | 0x00C => 0xFF
  | 0x010 => 0xFFFC0000
  | 0x03C => 0xFF
  | 0x050 => 0x00710000
  | 0x054 => 0xFFFFFFFC
  | 0x058 => 0xFFFFFFFF
  | 0x05C => 0xFFFF
  | 0x060 => 0xFF
  | 0x078 => 0x70EF
  | 0x080 => 0xCB
  | 0x098 => 0x10
  | 0x108 => 0x001FF010
  | 0x10C => 0x001FF010
  | 0x114 => 0x31C1
  | _ => 0

/-- The bits of a word that a written 1 clears: error bits. -/
def cfgClear (off : Nat) : Nat :=
  match off with
  | 0x004 => 0xF9000000
  | 0x078 => 0x000F0000
  | 0x104 => 0x001FF010
  | 0x110 => 0x31C1
  | _ => 0

/-- What the writable bits of a word hold after a reset of the link. -/
def cfgReset (off : Nat) : Nat :=
  match off with
  | 0x078 => 0x2000
  | 0x10C => 0x00062010
  | 0x114 => 0x2000
  | _ => 0

/-- The kept bits of a word: `cfg` holds their difference from the value after reset. -/
def cfgKept (s : State) (off : Nat) : Nat := cfgLe s.pcie off 4 ^^^ cfgReset off

/-- A word of the configuration space. -/
def cfgRead (s : State) (off : Nat) : Nat := cfgFixed s off ||| cfgKept s off

/-- The kept bits of a word take a value. -/
def setCfg (s : State) (off v : Nat) : State :=
  { s with pcie := { s.pcie with cfg := writeBytes s.pcie.cfg off (natLe 4 (v ^^^ cfgReset off)) } }

/-- Error bits of a word are set. -/
def cfgError (s : State) (off v : Nat) : State := setCfg s off (cfgKept s off ||| v)

/-! Errors of the link (notes/assumptions/43). -/

/-- An error message leaves, and with SERR# Enable sets Signaled System Error, where the error is not masked. -/
def signalError (s : State) (b : Nat) : State :=
  if bit (cfgKept s 0x108) b || !bit (cfgKept s 0x004) 8 then s else cfgError s 0x004 (2 ^ 30)

/-- An uncorrectable error is detected: its bit of Advanced Error Reporting, Fatal or Non-Fatal Error Detected by its severity, and its message. -/
def uncorrectable (s : State) (b : Nat) : State :=
  signalError (cfgError (cfgError s 0x104 (2 ^ b)) 0x078 (2 ^ (if bit (cfgKept s 0x10C) b then 18 else 17))) b

/-- An advisory non-fatal error: Correctable Error Detected and the correctable bit, and its own bit where that one is not masked. -/
def advisory (s : State) (b : Nat) : State :=
  let s := cfgError (cfgError s 0x078 (2 ^ 16)) 0x110 (2 ^ 13)
  if bit (cfgKept s 0x114) 13 then s else cfgError s 0x104 (2 ^ b)

/-- An unsupported request is detected: a refused read of non-fatal severity is advisory. -/
def unsupported (s : State) (posted : Bool) : State :=
  let s := cfgError s 0x078 (2 ^ 19)
  if posted || bit (cfgKept s 0x10C) 20 then uncorrectable s 20 else advisory s 20

/-- The bytes that the enables name. -/
def enabledMask (enables : Nat) : Nat :=
  (if bit enables 0 then 0xFF else 0) + (if bit enables 1 then 0xFF00 else 0) + (if bit enables 2 then 0xFF0000 else 0) + (if bit enables 3 then 0xFF000000 else 0)

/-- Bus Master Enable. -/
def busMaster (s : State) : Bool := bit (cfgLe s.pcie 0x04 4) 2

/-- Memory Space Enable. -/
def memorySpace (s : State) : Bool := bit (cfgLe s.pcie 0x04 4) 1

/-- A transfer stops with an error, and its command ends with ABORTED; a REPLAY request ends with it (12 R359, 13 R367). -/
def dmaFail (s : State) (n err moved : Nat) : State :=
  let s := if (box s n).code = 0x0C04 then abandonStart s stAborted else s
  let s := onBox s n (fun b => { b with dmaErr := err, dmaDone := moved, dmaWait := false })
  replyTo s n (Reply.of stAborted)

/-- The bytes that a transfer moves: the buffer, or the response where that is shorter (12 R358). -/
def Mailbox.moves (b : Mailbox) : Nat :=
  match b.reply with
  | some { body := some x, .. } => Nat.min b.dmaLen.toNat x.length
  | _ => b.dmaLen.toNat

/-- The bytes moved when a transfer is stopped from outside: a free number of words of it (12 R359; notes/assumptions/123). -/
def dmaMoved (s : State) (n : Nat) : Nat := (freeWord s).toNat % ((box s n).moves / 4 + 1) * 4

/-- Every transfer that runs or is pending stops with DMAERR 5 (12 Table 12-16). -/
def dmaStopAll (s : State) : State :=
  (List.range 16).foldl (fun (s : State) (n : Nat) =>
    if (box s n).dmaWait && (box s n).state == .accepted then drew (dmaFail s n 5 (dmaMoved s n)) else s) s

/-- Vectors whose Mask bit was cleared while their Pending bit stood send, if still pending (12 R345). -/
def unmask (s : State) : State :=
  let free := s.pcie.msiPending ^^^ (s.pcie.msiPending &&& msiMask s)
  if free = 0 then s
  else
    { s with
      pcie := { s.pcie with msiPending := s.pcie.msiPending &&& msiMask s }
      link := { s.link with msiDue := s.link.msiDue ||| (free &&& vectorsPending s) } }

/-- A configuration write: the enabled bytes of the writable bits, and the error bits written 1 cleared. D1 and D2 are not supported, and their write to PowerState is discarded. -/
def cfgWrite (s : State) (off : Nat) (value : Word) (enables : Nat) : State :=
  let m := enabledMask enables
  let w := cfgWritable off &&& m
  let c := cfgClear off &&& m &&& value.toNat
  let k := cfgKept s off
  let k := k ^^^ (k &&& w)
  let k := k ||| (value.toNat &&& w)
  let was := busMaster s
  let s := setCfg s off (k ^^^ (k &&& c))
  let s := if was && !busMaster s then dmaStopAll s else s
  let s := if off = 0x044 && bit enables 0 && (value.toNat % 4 == 0 || value.toNat % 4 == 3) then { s with pcie := { s.pcie with d3 := value.toNat % 4 == 3 } } else s
  if off = 0x060 then unmask s else s

/-! Meanings: PCI Express. -/

/-- A request that the endpoint refuses with Unsupported Request, counted (12 R336, R337); its error bits are those of the base specification (R334, R335). -/
def refuseRequest (s : State) (posted : Bool) : State := countLink (unsupported { s with link := { s.link with rdata := [], refused := true } } posted)

/-- A request to BAR0 of `count` DW is served (12 R336, Table 12-3). -/
def barServes (s : State) (addr count most : Nat) : Bool :=
  !s.pcie.d3 && memorySpace s && decide (addr % 4 = 0 ∧ addr < 0x40000 ∧ 1 ≤ count) &&
    (if inPages addr then decide (count ≤ most ∧ addr % 4096 + 4 * count ≤ 4096) else count == 1)

/-- The words of a memory read. -/
def memRead (n : Nat) (s : State) (a : Nat) : List Word × State :=
  match n with
  | 0 => ([], s)
  | n + 1 =>
    let r := readReg s a
    let t := memRead n r.2 (a + 4)
    (word r.1 :: t.1, t.2)

/-- The words of a memory write: one with an incomplete set of byte enables is discarded and counted (00 R12, 12 R337). -/
def memWrite (s : State) (a : Nat) (ws : List (Word × Nat)) : State :=
  match ws with
  | [] => s
  | w :: t => memWrite (if w.2 % 16 = 15 then writeReg s a w.1 else countPw s) (a + 4) t

/-- PCIE_MEM_READ (12 R337). -/
def execPcieMemRead (addr count : Nat) (s : State) : Out :=
  if !pcieUp s then done s
  else if !barServes s addr count 32 then done (refuseRequest s false)
  else
    let r := memRead count s addr
    done (answerWords r.2 r.1)

/-- PCIE_MEM_WRITE (12 R337). -/
def execPcieMemWrite (addr : Nat) (words : List (Word × Nat)) (s : State) : Out :=
  if !pcieUp s then done s
  else if !barServes s addr words.length 64 then done (refuseRequest s true)
  else done (memWrite { s with link := { s.link with refused := false } } addr words)

/-- PCIE_CONFIG_ACCESS: answered from link-up on, in D3hot too (12 R334, R336). -/
def execPcieConfigAccess (write : Bool) (offset : Nat) (value : Word) (enables : Nat) (s : State) : Out :=
  let off := offset / 4 * 4 % 4096
  if !pcieUp s then done s
  else if write then done (cfgWrite { s with link := { s.link with refused := false } } off value enables)
  else done (answer s (cfgRead s off))

/-- PCIE_POWER_STATE: D3hot, or back to D0 with every register kept (12 R336). -/
def execPciePowerState (d3hot : Bool) (s : State) : Out :=
  if !pcieUp s then done s else done { s with pcie := { s.pcie with d3 := d3hot } }

/-- The endpoint after a reset of the link; the error bits of Advanced Error Reporting stay unless PE_RST_N resets it. -/
def linkReset (s : State) (fundamental : Bool) : State :=
  { s with
    pcie := { s.pcie with
      up := false, d3 := false, msiPending := 0
      cfg := if fundamental then [] else s.pcie.cfg.filter (fun p => decide (0x104 ≤ p.1 ∧ p.1 < 0x118)) }
    link := { s.link with msiDue := 0, msiWas := 0 } }

/-- LINK_DOWN: only the link is reset; transfers that run or are pending stop, and all else continues (12 R333, R359, 20 R488). On the SPI link nothing happens. -/
def execLinkDown (why : LinkDown) (s : State) : Out :=
  if s.pwr.linkSpi || !s.clk.running then done s
  else done (dmaStopAll (linkReset s (why == .peRstN)))

/-- PCIE_LINK_UP: training, which starts 20 ms after the end of a reset, completes, at 5 GT/s or at 2.5 GT/s as the other end can, a free value (12 R334, R336; notes/assumptions/43). -/
def execPcieLinkUp (s : State) : Out :=
  if !s.clk.running || !s.clk.refOk || s.pwr.linkSpi || s.pcie.trainFrom == 0 || s.pcie.up then done s
  else
    let s := advanceTo s s.pcie.trainFrom
    done (drew { s with pcie := { s.pcie with up := true, slow := (freeWord s).getLsbD 0 } })

/-- The message of a vector: the address and the data with the vector in its low bits (12 R345). -/
def msiMessage (s : State) (v : Nat) : Nat × Nat :=
  let d := cfgLe s.pcie 0x5C 2
  (cfgLe s.pcie 0x54 8, d - d % msiGranted s + v)

/-- MSI_SEND: the message that a vector owes leaves; none does in D3hot, and a masked vector's waits in its Pending bit (12 R336, R345). -/
def execMsiSend (vector : Nat) (s : State) : Out :=
  if !bit s.link.msiDue vector || !pcieUp s || s.pcie.d3 || !busMaster s || !msiOn s then done s
  else
    let s := { s with link := { s.link with msiDue := setBit s.link.msiDue vector false } }
    if bit (msiMask s) vector then done { s with pcie := { s.pcie with msiPending := setBit s.pcie.msiPending vector true } }
    else done { s with link := { s.link with msi := s.link.msi ++ [msiMessage s vector] } }

/-- The end of a reset in the sense of R331: the strap is latched, and training starts 20 ms later (12 R331, R336, 19 R463). -/
def endOfReset (s : State) : State :=
  { s with
    pwr := { s.pwr with linkSpi := s.pwr.hostsel }
    pcie := { s.pcie with trainFrom := s.clk.nt + 20000 } }

/-- VIO_H_CHANGE: VIO_H becoming good after the release of the internal reset is the end of the reset; its loss affects only the link (12 R333, 19 R463). -/
def execVioHChange (good : Bool) (s : State) : Out :=
  let s := { s with pwr := { s.pwr with vioH := good } }
  if good && s.clk.running && s.pcie.trainFrom == 0 then done (endOfReset s) else done s

end Sys2Proof.Machine
end

