-- ==== Sys2Proof/Machine/Late.lean ====
section
/-! DEFINITION. What ends later than it began: the completion of long commands, page stores and counter increments, bulk transfers, poisoned reads; and the boundary-scan port (12 R349, R356 to R359, 15 R403, 01 R28, 20 R489). -/
namespace Sys2Proof.Machine

/-! Completion of long commands (12 Table 12-13, step 6). -/

/-- Work of other mailboxes has been dropped: HOLD and HALT complete no command (12 R355). -/
def completes (s : State) : Bool := s.clk.running && s.pwr.pstate != 6 && !s.ft.hwsafe

/-- A calibration commit still waits for its page (10 R309). -/
def calPageWaits (s : State) : Bool := beingStored s 10 || s.rs.queue.any (fun q => q.page == 10) || s.rs.waiting.any (fun w => w.page == 10)

/-- The activity of a long command ends with it (19 Table 19-8). -/
def endOwn (s : State) (code status : Nat) : State :=
  match activityOf code with
  | some no => maEnd s no 0 status
  | none => s

/-- What a command does as it completes, before its outcome is taken. -/
def atCompletion (s : State) (mb : Nat) : State :=
  let b := box s mb
  match b.code with
  | 0x0112 => commitConfig s
  | 0x0202 => if b.arg0 = 2 then completeCycleLoad s mb else s
  | 0x0210 => completeFirmware s
  | 0x0713 => { s with mt := { s.mt with calMask := 0, calWorking := s.mt.calStored } }
  | _ => s

/-- What follows the completion: the end of its activity, and a key that takes effect (17 R439, 19 Table 19-8). -/
def afterCompletion (s : State) (b : Mailbox) (status : Nat) : State :=
  if b.code = 0x0A04 then commitCompletes s b.arg0.toNat status else endOwn s b.code status

/-- A command in ACCEPTED enters DONE with its outcome. -/
def completeCommand (s : State) (mb : Nat) : State :=
  let s := atCompletion s mb
  let b := box s mb
  match b.reply with
  | some r => afterCompletion (finish s mb r) b r.status
  | none => s

/-- COMMAND_COMPLETION: a long command whose work has ended enters DONE with its final status (12 R349). -/
def execCommandCompletion (mb at_ : Nat) (s : State) : Out :=
  let b := box s mb
  if b.reply.isNone || b.state != .accepted || b.dmaWait || !completes s || (b.code == 0x0713 && calPageWaits s) then done s
  else done (completeCommand (advanceTo s at_) mb)

/-! Page stores and counter increments (15 R393, R394, R403, R404). -/

/-- PAGE_STORE: the store in progress completes, and the next begins; the last page of the store of R469 ends it. -/
def execPageStore (s : State) : Out :=
  if s.clk.running then done (leaveIfStored (afterRsCmd s (completeStore s))) else done s


/-- What waits for an increment goes on: a calibration commit, a signed reading, an operation of RS_CMD. In HOLD and HALT nothing does (12 R355, 15 R408). -/
def afterIncrement (s : State) (why : IncFor) : State :=
  if !completes s then s
  else
    match why with
    | .calibration mb => replyTo s mb { Reply.ok with res0 := ctrValue s 0 }
    | .reading mb => signReading s mb
    | .rsCmd => endRsCmd s stOk
    | _ => s

/-- COUNTER_INCREMENT: the increment in progress programs its cell, 1,000 CLK_F cycles after it began, and the next operation begins. -/
def execCounterIncrement (s : State) : Out :=
  match s.rs.incCur with
  | none => done s
  | some i =>
    if !s.clk.running then done s
    else
      let s := programCell (advanceTo s (i.since + 4)) i.counter
      done (leaveIfStored (kickStore (afterIncrement { s with rs := { s.rs with incCur := none } } i.why)))

/-! Bulk transfers (12 R356 to R359). -/

/-- A transfer of a mailbox runs or is pending. -/
def transferring (s : State) (mb : Nat) : Bool := (box s mb).dmaWait && (box s mb).state == .accepted && completes s

/-- The command moves data from the host to the module: it has no response to move. -/
def Mailbox.uploads (b : Mailbox) : Bool := match b.reply with | some r => r.body.isNone | none => true

/-- The endpoint may not use the link: Bus Master Enable clear, or the link down. -/
def busLost (s : State) : Bool := !busMaster s || !s.pcie.up

/-- The entries of a scatter list: host address and length (12 Table 12-15). -/
def sgEntries (n : Nat) (list : Bytes) : List (Nat × Nat) := (List.range n).map (fun i => (leAt list (16 * i) 8, leAt list (16 * i + 8) 4))

/-- The rules of a scatter list (12 R356, Table 12-15). -/
def sgOk (b : Mailbox) (list : Bytes) : Bool :=
  b.dmaAddr % 16 == 0 &&
  (sgEntries b.sgCount list).all (fun e => e.1 % 4 == 0 && e.2 % 4 == 0 && decide (4 ≤ e.2 ∧ e.2 ≤ 16777216)) &&
  (List.range b.sgCount).all (fun i => leAt list (16 * i + 12) 4 == 0) &&
  sumOf ((sgEntries b.sgCount list).map (fun e => e.2)) == b.dmaLen.toNat

/-- The segments of the host buffer, in buffer order. -/
def segments (b : Mailbox) (list : Bytes) : List (Nat × Nat) := if b.sg then sgEntries b.sgCount list else [(b.dmaAddr, b.dmaLen.toNat)]

/-- The parts of segments that the first `n` bytes fill. -/
def filled (n : Nat) (l : List (Nat × Nat)) : List (Nat × Nat) :=
  match l with
  | [] => []
  | (a, k) :: t => if n = 0 then [] else (a, Nat.min n k) :: filled (n - k) t

/-- The requests that move `k` bytes at `a`: each at most `most` bytes, and none across a 4 KiB boundary of host memory (12 R357). -/
def splitSpan (fuel most a k : Nat) : List (Nat × Nat) :=
  match fuel with
  | 0 => []
  | f + 1 =>
    if k = 0 then []
    else
      let m := Nat.min k (Nat.min most (4096 - a % 4096))
      (a, m) :: splitSpan f most (a + m) (k - m)

/-- The requests of segments, in their order. -/
def requestsOf (most : Nat) (l : List (Nat × Nat)) : List (Nat × Nat) := l.flatMap (fun e => splitSpan (e.2 + 1) most e.1 e.2)

/-- The most bytes of a write request: Max_Payload_Size as programmed, up to 256 (12 R357). -/
def maxPayload (s : State) : Nat := Nat.min 256 (128 * 2 ^ bits (cfgKept s 0x078) 5 3)

/-- The most bytes of a read request: Max_Read_Request_Size as programmed, up to 512 (12 R357). -/
def maxRead (s : State) : Nat := Nat.min 512 (128 * 2 ^ bits (cfgKept s 0x078) 12 3)

/-- The segments of host memory that a transfer reads: the scatter list, and the buffer of an upload. -/
def readSegments (b : Mailbox) (list : Bytes) (buffer : Bool) : List (Nat × Nat) :=
  (if b.sg then [(b.dmaAddr, 16 * b.sgCount)] else []) ++ (if buffer then segments b list else [])

/-- The requests of a transfer are those that the module has issued: none of writes so far. -/
def issueReads (s : State) (segs : List (Nat × Nat)) : State :=
  { s with link := { s.link with dmaFrom := requestsOf (maxRead s) segs, dmaTo := [], dmaOut := [] } }

/-- A whole upload is acted on (12 R358); the staging area may have been filled since it was accepted (13 Table 13-5). -/
def takeUpload (s : State) (mb : Nat) (data : Bytes) : State :=
  let b := box s mb
  match b.code with
  | 0x0201 =>
    let place := imgPlace b.arg0.toNat b.arg3.toNat
    if stagingFull s place data.length then replyTo s mb (Reply.of stNoSpace)
    else replyTo (stageImage s place data) mb { Reply.ok with res0 := data.length }
  | 0x0C04 => startUploaded s mb data
  | 0x0C05 =>
    let r := feedUploaded s data
    replyTo r.1 mb r.2
  | _ => s

/-- The data of a response leave for the host: the first MB_DMA_LEN bytes of one that is longer, with NO_SPACE (12 R358). -/
def sendBody (s : State) (mb : Nat) (list body : Bytes) : State :=
  let b := box s mb
  let out := body.take b.dmaLen.toNat
  let long := decide (b.dmaLen.toNat < body.length)
  let s := { s with link := { s.link with dmaOut := out, dmaTo := requestsOf (maxPayload s) (filled out.length (segments b list)) } }
  onBox s mb (fun x => { x with
    dmaWait := false, dmaDone := out.length, dmaNeed := if long then body.length else 0
    reply := x.reply.map (fun r => { r with body := none, status := if long then stNoSpace else r.status }) })

/-- The transfer runs to its end: `list` is the scatter list as the host holds it, `data` the host's buffer of an upload. -/
def runTransfer (s : State) (mb : Nat) (list data : Bytes) : State :=
  let b := box s mb
  if b.sg && !sgOk b list then dmaFail (issueReads s (readSegments b list false)) mb 6 0
  else
    let s := issueReads s (readSegments b list b.uploads)
    match b.reply with
    | some { body := some body, .. } => sendBody s mb list body
    | _ => takeUpload (onBox s mb (fun x => { x with dmaWait := false, dmaDone := data.length })) mb data

/-- What the host holds has the lengths of the request: a list of its entries, and for an upload the whole buffer. -/
def hostHolds (b : Mailbox) (list data : Bytes) : Bool :=
  (!b.sg || list.length == 16 * b.sgCount) && (!b.uploads || data.length == b.dmaLen.toNat)

/-- DMA_TRANSFER: a bulk transfer runs and completes; none does in D3hot (12 R336, R357, R358). -/
def execDmaTransfer (mb : Nat) (list data : List Byte) (s : State) : Out :=
  if !transferring s mb || s.pwr.linkSpi || s.pcie.d3 then done s
  else if busLost s then done (dmaFail s mb 5 0)
  else if !hostHolds (box s mb) list data then done s
  else done (runTransfer s mb list data)

/-- The module reads host memory in the transfer: the buffer of an upload, or a scatter list. -/
def Mailbox.readsHost (b : Mailbox) : Bool := b.uploads || b.sg

/-- The error bit of Advanced Error Reporting that a stopped transfer sets: 14 for a timeout, 15 or 20 for Completer Abort or Unsupported Request, 12 for poison (12 Table 12-16; notes/assumptions/43). -/
def aerBit (s : State) (err : Nat) : Nat :=
  match err with
  | 1 => 14
  | 2 => if (freeWord s).getLsbD 0 then 15 else 20
  | _ => 12

/-- The error bits of a transfer stopped by a completion: Received Target Abort or Received Master Abort, and for poison Detected Parity Error and, with Parity Error Response, Master Data Parity Error (12 R334, R335; notes/assumptions/43). -/
def completionError (s : State) (err : Nat) : State :=
  let b := aerBit s err
  match err with
  | 1 => uncorrectable s b
  | 2 => cfgError (cfgError s 0x104 (2 ^ b)) 0x004 (if b = 15 then 2 ^ 28 else 2 ^ 29)
  | _ => cfgError (uncorrectable s b) 0x004 (2 ^ 31 + 2 ^ 24 * b2n (bit (cfgKept s 0x004) 6))

/-- A transfer stops with an error after `moved` bytes, and what Table 12-16 adds. -/
def stopTransfer (s : State) (mb err moved : Nat) : State :=
  let s := if 1 ≤ err ∧ err ≤ 3 then drew (completionError s err) else s
  let s := dmaFail s mb err (Nat.min moved (box s mb).dmaLen.toNat)
  if err = 4 then raiseFault s 0x0111 2 0 [word mb] else s

/-- An error can meet the transfer: 1 to 3 a read of host memory, 4 the data of a response, 5 a bus that is lost (12 Table 12-16). -/
def errorMeets (s : State) (mb err : Nat) : Bool :=
  let b := box s mb
  match err with
  | 1 | 2 | 3 => b.readsHost
  | 4 => !b.uploads
  | 5 => busLost s
  | _ => false

/-- DMA_ERROR: the transfer stops, and its command ends with ABORTED (12 R359). -/
def execDmaError (mb error done_ : Nat) (s : State) : Out :=
  if !transferring s mb || !errorMeets s mb error then done s else done (stopTransfer s mb error done_)

/-- DMA_COMPLETION_TIMEOUT: a read completion is missing for 50 ms, which cannot end sooner than 50 ms after the transfer began to wait, unless the host has disabled the timeout (12 R335, R357). -/
def execDmaCompletionTimeout (mb done_ : Nat) (s : State) : Out :=
  if !transferring s mb || !(box s mb).readsHost || bit (cfgLe s.pcie 0x98 2) 4 then done s
  else done (stopTransfer (advanceTo s ((box s mb).dmaSince + 50000)) mb 1 done_)

/-! Poisoned reads (01 R28, 09 Table 9-7). -/

/-- A poisoned word that the cycle engine or a line DMA engine reads next: 0 to 3 is a core, 4 the line DMA engines. -/
def poisonCentral (s : State) (reader addr : Nat) : State :=
  let s := { s with ce := { s.ce with poison := s.ce.poison ++ [(reader, addr)] } }
  memUncorr (noteExc s 1) (if reader = 4 then 4 else 0) addr

/-- A context that computes has loaded an element of its slot's blocks as a source. -/
def loadedIn (p : SolveImage) (slot key : Nat) (c : TileCtx) : Bool :=
  let t := p.taskAt c.task
  c.slot == slot && !c.done && t.kind != 0 && [t.srcA, t.srcB].any (fun b =>
    b != noBlock && (List.range (p.blockAt b).elements).any (fun i => (p.blockAt b).key i == key))

/-- The element is 0 for the tasks that have just loaded it; where none has, it is marked for the next read (07 R208). -/
def poisonElement (s : State) (slot key : Nat) (p : SolveImage) : State :=
  let zero := fun (c : TileCtx) =>
    let t := p.taskAt c.task
    { c with srcA := poisonMask p [key] t.srcA c.srcA, srcB := poisonMask p [key] t.srcB c.srcB }
  if s.sv.tiles.any (fun l => l.any (fun c => match c with | some x => loadedIn p slot key x | none => false)) then
    { s with sv := { s.sv with tiles := s.sv.tiles.map (fun l => l.map (fun c => c.map (fun x => if loadedIn p slot key x then zero x else x))) } }
  else { s with sv := { s.sv with poison := s.sv.poison ++ [(slot, key)] } }

/-- A poisoned word that a solve of a slot reads: poison and guard flags of its pass, and 0 in its place (07 R208). -/
def poisonSolve (s : State) (slot requester addr : Nat) : State :=
  let s := onSolve s slot (fun x => { x with poison := true, guard := true })
  let s := match Config.placeOf addr, (solveSlot s slot).img with
    | .block home el, some p =>
      let base := (if home = 1 then 2 ^ 40 else 0) + el / 2 * 2
      poisonElement (poisonElement s slot base p) slot (base + 1) p
    | _, _ => s
  memUncorr (noteExc s 1) requester addr

/-- The mailbox whose payload page holds an address. -/
def pageBox (addr : Nat) : Nat := (addr - 0x20000) / 0x1000

/-- A double-bit error meets a read: what the reader does with it, and the fault (01 R28, 09 Table 9-7). -/
def poisoned (s : State) (reader : Reader) (addr : Nat) : State :=
  match reader with
  | .cycleEngine core => if core < 4 then poisonCentral s core addr else s
  | .lineDma => poisonCentral s 4 addr
  | .tile slot => if (solveSlot s slot).solve.isSome then poisonSolve s slot 1 addr else s
  | .staging slot => if (solveSlot s slot).solve.isSome then poisonSolve s slot 2 addr else s
  | .tileMemory slot => if (solveSlot s slot).solve.isSome then poisonSolve s slot 3 addr else s
  | .meteringDsp channel => if !dspRuns s || 48 ≤ channel then s else poisonSample s channel addr
  | .supervisor => raiseFault s 0x0104 5 0 []
  | .ventRules => raiseFault s 0x0105 5 4 []
  | .hostDma mb => if transferring s mb && !(box s mb).uploads then drew (stopTransfer s mb 4 (dmaMoved s mb)) else s
  | .hostPage =>
    if inPages addr then raiseFault (countLink (answer s 0)) 0x0111 2 0 [word (pageBox addr)] else s

/-- POISONED_READ: the reader discards the data, and a fault is raised by requester (01 R28). -/
def execPoisonedRead (reader : Reader) (addr : Nat) (s : State) : Out := if s.clk.running then done (poisoned s reader addr) else done s

/-! The boundary-scan port (20 R489). -/

/-- What the port shifts out after an instruction: IDCODE, the bypass bit; the boundary register is not modelled (notes/assumptions/56). -/
def scanData (op : ScanOp) : Bytes :=
  match op with
  | .idcode => natLe 4 0x1464077D
  | .bypass => [0]
  | _ => []

/-- BOUNDARY_SCAN_ACCESS: with RESET_N high only BYPASS, IDCODE and SAMPLE/PRELOAD execute; EXTEST takes the lands only while RESET_N is low; TRST_N resets the port. -/
def execBoundaryScanAccess (op : ScanOp) (s : State) : Out :=
  match op with
  | .testReset => done { s with pwr := { s.pwr with extest := false }, link := { s.link with jtag := [] } }
  | .extest => if s.pwr.resetN then done s else done { s with pwr := { s.pwr with extest := true }, link := { s.link with jtag := [] } }
  | o => done { s with pwr := { s.pwr with extest := false }, link := { s.link with jtag := scanData o } }

end Sys2Proof.Machine
end

