-- ==== Sys2Proof/Machine/Power.lean ====
section
/-! DEFINITION. Supplies, resets, start-up, activation and the hold sequence (19_power_startup_maintenance R460 to R475, R503; 15 R396, R400, R401; 17 R424 to R426; 10 R314; 09 R277). -/
namespace Sys2Proof.Machine

/-! Supplies. -/

/-- VIN_GOOD: from OFF or WATCH the module starts; `ticks` are those of the RTC since the command before. In the hold sequence, and in the store of R469, the return of VIN shows only at their end (19 R466, R473). -/
def execVinGood (ticks : Nat) (s : State) : Out :=
  if s.pwr.vin then done s
  else if s.pwr.pstate ≤ 1 then
    let s := passTicks s ticks
    let s := if s.pwr.pstate = 1 then { s with mt := { s.mt with watchEnd := s.rtc.tick } } else s
    done (coldState { s with pwr := { s.pwr with vin := true } } 2)
  else done { s with pwr := { s.pwr with vin := true } }

/-- A page is dirty, or becomes it when the store in progress ends. -/
def dirtySoon (s : State) (p : Nat) : Bool := bit s.rs.dirty p || s.rs.waiting.any (fun w => w.page == p)

/-- The rows 3 and 5 to 7 of Table 15-3 that a store outside RUN makes (19 R469). -/
def leavePages (s : State) : List Nat := ([0, 10] ++ (List.range 16).map (· + 48) ++ (List.range 4).map (· + 12)).filter (dirtySoon s)

/-- The stores that a power fail leaves pending: those of owners, which the engine serves after the power-fail pages; commands are dropped (15 R393, R395; notes/assumptions/51). -/
def ownersOnly (s : State) : State := { s with rs := { s.rs with queue := s.rs.queue.filter (fun q => q.who == .owner) } }

/-- The power-fail store is requested, ahead of the owner stores that are pending (15 R393, R396). -/
def failStore (s : State) (pages : List Nat) : State := requestStores (ownersOnly s) pages .powerFail

/-- Step 1 of the hold sequence counts: the sequence, and a VHOLD below 27.0 V (15 Table 15-6). -/
def countHold (s : State) : State :=
  let s := requestInc { s with rs := { s.rs with incs := [] } } 3 .plain
  if s.rs.vhold < 27000 then requestInc s 4 .plain else s

/-- VHOLD at step 1 is kept in page 0 (15 Table 15-5). -/
def keepVhold (s : State) : State :=
  ownerWrite s { page := 0, off := 0x10, bytes := natLe 4 s.rs.vhold, head := { fmt := 1, len := 0x120, w0 := 0, w1 := 0, w2 := 0 }, store := false }

/-- The pages of the power-fail store in the order of Table 15-3, the tail apart: `e` and `h` hold the latches. -/
def failPages (s : State) (e h : Nat) : List Nat :=
  (if s.part.m40 then [e] else []) ++ [h, 0] ++ retainPages s ++
  ([10] ++ (List.range 16).map (· + 48) ++ (List.range 4).map (· + 12)).filter (dirtySoon s)

/-- VIN fails in RUN: step 1 of the hold sequence, and the start of steps 2 to 6 (19 R472, Table 19-6). -/
def beginHold (s : State) : State :=
  let s := { ownersOnly s with pwr := { s.pwr with sysResetAt := none } }
  let s := countHold (keepVhold s)
  let e := nextRotation s 1
  let s := latchMetering s
  let h := nextRotation s 6
  let s := stopEngines (endActivities (dropWork (latchHeat s) false))
  let s := setIrq (setPstate s 6) 20
  let s := { s with
    pwr := { s.pwr with hold := some { since := s.clk.nt, metering := s.part.m40 } }
    ln := s.ln.map (fun (p : Nat × Line) => (p.1, p.2.withdraw s.clk.nt)) }
  requestStores s (failPages s e h) .powerFail

/-- VIN fails in START, TEST or RECOVERY: the store of R469, none before recall has completed. -/
def beginLeave (s : State) : State :=
  let s := { s with pwr := { s.pwr with leaving := true, sysResetAt := none } }
  leaveIfStored (if s.clk.running && !s.pwr.recalling then failStore s (leavePages s) else ownersOnly s)

/-- VIN_FAIL: the hold sequence in RUN; the store of R469 in START, TEST and RECOVERY; OFF in HALT (19 R466, R469, R472). Without VBAT the RTC domain loses its contents (14 R374). -/
def execVinFail (s : State) : Out :=
  if !s.pwr.vin then done s
  else
    let s := domainCheck { s with pwr := { s.pwr with vin := false } }
    match s.pwr.pstate with
    | 3 => done (beginHold s)
    | 2 | 4 | 5 => if s.pwr.leaving then done s else done (beginLeave s)
    | 7 => done (unpowered (finishPrograms (commitCutOff s)) 0)
    | _ => done s

/-- Every line of the module is idle. -/
def linesIdle (s : State) : Bool := s.ln.all (fun p => p.2.onBus.isNone)

/-- Step 7 is done and every line idle (19 Table 19-6). -/
def holdOver (s : State) : Bool :=
  match s.pwr.hold with
  | some h => s.pwr.pstate == 6 && !h.metering && !failStores s && linesIdle s
  | none => false

/-- HOLD_END: the module powers down, or with VIN good restarts through an internal reset (19 R473). -/
def execHoldEnd (s : State) : Out := if holdOver s then done (unpowered (finishPrograms (commitCutOff s)) 0) else done s

/-- VBAT_LOSS: WATCH ends in OFF, and without VIN the RTC domain loses its contents (19 R466, 14 R374). -/
def execVbatLoss (s : State) : Out :=
  let s := { s with pwr := { s.pwr with vbat := false } }
  let s := if s.pwr.pstate = 1 then { s with pwr := { s.pwr with pstate := 0, watchStart := none } } else s
  done (domainCheck s)

/-- VBAT_PRESENT: the RTC domain is supplied again; after a loss of both supplies it holds the values of its Reset columns (14 R374). -/
def execVbatPresent (s : State) : Out := done { s with pwr := { s.pwr with vbat := true } }

/-- VHOLD_CUTOFF: the module has drawn VHOLD down to 8.0 V, and every operation in progress is cut off (19 R462). -/
def execVholdCutoff (s : State) : Out :=
  if s.pwr.vin || s.pwr.pstate ≤ 1 then done s
  else
    let s := tearPrograms (commitCutOff { s with pwr := { s.pwr with vhold := 8000 } })
    if s.pwr.leaving then done (powerGone s) else done (unpowered s 0)

/-! Resets (19 R474, R475). -/

/-- RESET_N low or TESTMODE high. -/
def holdReset (s : State) (cause : ResetCause) : State :=
  match cause with
  | .resetN => { s with pwr := { s.pwr with resetN := false } }
  | .testmode => { s with pwr := { s.pwr with testmode := true } }

/-- A reset takes effect at once: VIN is good, and no hold sequence runs (19 R473, R474). -/
def mayReset (s : State) : Bool := s.pwr.vin && s.pwr.pstate != 6 && !s.pwr.leaving

/-- SYS_RESET still stands: the hardware safe state ends only with RESET_N or the loss of VIN (09 R278). -/
def sysResetStands (s : State) : Bool := mayReset s && !s.ft.hwsafe

/-- RESET: RESET_N low, or TESTMODE high, resets the module to START (19 R474, 20 R488). -/
def execReset (cause : ResetCause) (s : State) : Out :=
  let s := holdReset s cause
  if mayReset s then done (resetModule s) else done s

/-- SYS_RESET_EXPIRY: 10 ms after SYS_RESET the module resets (19 R475). -/
def execSysResetExpiry (s : State) : Out :=
  match s.pwr.sysResetAt with
  | some t => if sysResetStands s then done (resetModule (advanceTo s t)) else done s
  | none => done s

/-- The edges that the oscillator has made while the internal reset stood, a free number (14 R374; notes/assumptions/125). -/
def ticksInReset (s : State) : State := drew (passTicks s (freeWord s).toNat)

/-- INTERNAL_RESET_RELEASE: the PLL has locked, RESET_N is high and TESTMODE low; NT starts at 0, the strap is latched and recall begins (19 R470, 12 R331). -/
def execInternalResetRelease (hostsel : Bool) (s : State) : Out :=
  if s.pwr.pstate != 2 || !s.pwr.vin || s.clk.running then done s
  else
    let s := ticksInReset s
    let s := { s with
      clk := { s.clk with nt := 0, running := true, refOk := true, pllOk := true }
      pwr := { s.pwr with resetN := true, testmode := false, extest := false, hostsel := hostsel } }
    done (if s.pwr.vioH then endOfReset s else s)

/-! Start-up (19 Table 19-5). -/

/-- START goes on: recall has completed, VIN is good. -/
def starting (s : State) : Bool := s.clk.running && s.pwr.pstate == 2 && !s.pwr.recalling && s.pwr.vin && !s.ft.hwsafe

/-- The image digest that BM0 is extended with (17 Table 17-1). -/
def firmwareHash (s : State) : Bytes :=
  match lookup s.im.flash (imgPlace 5 s.im.fwSlot) with
  | some b => sha256 b
  | none => Config.firmwareDigest

/-- A measurement extended with a value (17 R426). -/
def extendBm (v : Bytes) : Bytes := sha256 (List.replicate 32 0 ++ v)

/-- The boot measurements (17 R426, Table 17-1). -/
def measure (s : State) : State :=
  { s with ks := { s.ks with
      bm := [extendBm (firmwareHash s), extendBm (sha256 Config.firmwareKey), extendBm (sha256 Config.lifecycle), List.replicate 32 0] } }

/-- The check of the root region, of the copies that match their digest: a copy that does not is rewritten from its partner, and with neither copy good KEYDIS is programmed (17 R424). -/
def checkRoot (s : State) (copies : Nat) : State :=
  let good := copies % 4 != 0
  { s with ks := { s.ks with root := if good then 3 else 0, keydis := s.ks.keydis || !good } }

/-- KEY_DISABLED at every start while key functions are disabled (17 R425). -/
def noteDisabled (s : State) : State := if keysOn s then s else raiseFault s 0x0161 3 8 [0]

/-- The trim code of page 0 is loaded where PWRLOSS is set (14 R376). -/
def loadTrim (s : State) : State :=
  if s.rtc.pwrLoss then
    let c := page0 s 4
    { s with rtc := { s.rtc with trim := if c = 0xFFFFFFFF then 32 else c % 64, trimNew := none } }
  else s

/-- The mailboxes posted before READY complete with NOT_READY, in the order of their doorbells (12 R351). -/
def answerEarly (s : State) : State :=
  s.mb.bells.foldl (fun s n => refuse s n stNotReady) { s with mb := { s.mb with bells := [] } }

/-- READY_ASSERT: boot measurements, root region and slot checks, the configuration image, the RTC trim, then READY (19 Table 19-5, R471). -/
def execReadyAssert (rootGood : Nat) (badSlots : List (Nat × Nat)) (s : State) : Out :=
  if !starting s || s.pwr.ready then done s
  else
    let s := noteDisabled (foundBad (checkRoot (measure s) rootGood) badSlots)
    let s := loadTrim (selectConfig s)
    done (answerEarly { s with pwr := { s.pwr with ready := true, slotCheckAt := s.clk.nt } })

/-- An image of the flash is refused: recorded as IMAGE_REFUSED (19 R503). -/
def imageRefused (s : State) (kind slot status : Nat) : State := raiseFault s 0x01A4 2 0 [word kind, word slot, word status]

/-- The status of an image of the flash, as IMG_LOAD gives it: absent, not opened, not accepted by its chapter, no space (13 R370). -/
def flashStatus (s : State) (kind place : Nat) (ok space : Bytes → Bool) : Nat :=
  match lookup s.im.flash place with
  | none => stNotReady
  | some b =>
    match openFor s kind b with
    | .auth => stAuthFailed
    | .bad => stBadImage
    | .plain p => if !ok p then stBadImage else if !space p then stNoSpace else stOk

/-- The plain image of a place of the flash. -/
def flashPlain (s : State) (kind place : Nat) : Bytes := (openFor s kind ((lookup s.im.flash place).getD [])).bytes

/-- The solve program of a slot at start-up: a refused one leaves its slot empty (19 R503). -/
def loadSolve (n : NetImage) (s : State) (i : Nat) : State :=
  let place := imgPlace 3 i
  if (lookup s.im.flash place).isNone then s
  else
    let others := s.sv.slots.filterMap (fun x => x.img)
    let st := flashStatus s 3 place (solveOk n s.net.digest i) (fun p => solvesFit n (others ++ [readSolve n p]))
    if st = stOk then placeSolve s i (some (readSolve n (flashPlain s 3 place))) else imageRefused s 3 i st

/-- The program of the standby slot at start-up; a refused one leaves the slot empty. -/
def loadStandby (n : NetImage) (s : State) : State :=
  let i := 1 - s.ce.active
  if (lookup s.im.flash (cyclePlace i)).isNone then s
  else
    let st := flashStatus s 2 (cyclePlace i) (progOk n s.net.digest) (fun _ => true)
    if st = stOk then enterSlot s i (flashPlain s 2 (cyclePlace i)) else imageRefused s 2 0 st

/-- The stored images come into force: true where network and program pass, or no network is stored (19 R503, 15 Table 15-5). -/
def loadStored (s : State) : State × Bool :=
  let place := imgPlace 1 0
  if (lookup s.im.flash place).isNone then (s, true)
  else
    let st := flashStatus s 1 place (netAccepted s) (fun _ => true)
    if st ≠ stOk then (imageRefused s 1 0 st, false)
    else
      let bs := flashPlain s 1 place
      let n := readNet bs
      let a := if page0 s 0 = 1 then 1 else 0
      let st := flashStatus s 2 (cyclePlace a) (progOk n (netDigestOf bs)) (fun _ => true)
      if st ≠ stOk then (imageRefused s 2 0 st, false)
      else
        let cyc := flashPlain s 2 (cyclePlace a)
        let s := installNet { s with ce := { s.ce with active := a } } bs
        let s := programAnew (enterSlot s a cyc)
        ((List.range 4).foldl (loadSolve n) (loadStandby n s), true)

/-- The records of a watch are copied to the event recorder (10 R314). -/
def copyWatch (s : State) : State :=
  if s.part.m40 && s.mt.watchNew then
    let s' := s.mt.watchRing.foldl (fun s b => record s 0x0192 5 (bytesToWords b)) s
    { s' with mt := { s'.mt with watchNew := false } }
  else s

/-- The record of the hardware safe state that ended with the start: no raised fault (09 R277). -/
def tellHwCause (s : State) : State :=
  if !s.ft.hwNew then s
  else
    let r : Rec :=
      { seq := 0, nt := s.clk.nt, mcc := mcc s, code := 0x0107, flags := recFlags 5 false 0 true, source := 0, body := eventBody 0 [word s.ft.hwCause] }
    { s with ev := { s.ev with waiting := s.ev.waiting ++ [r] }, ft := { s.ft with hwNew := false } }

/-- The state after start-up, where it is not RUN (19 Table 19-4). -/
def settleStart (s : State) (passed : Bool) : State :=
  let s := noteReady { s with pwr := { s.pwr with startDone := true } }
  if !passed || s.pa.conf.isNone then setPstate s 5
  else if parValue s 0x0101 == 1 || s.net.image.isNone then setPstate s 4
  else s

/-- STARTUP_COMPLETE: the stored images are loaded and checked, the energy and heat records and the recorder's sequence restored (19 Table 19-5, R503). -/
def execStartupComplete (s : State) : Out :=
  if !starting s || !s.pwr.ready || s.pwr.startDone then done s
  else
    let r := loadStored (startRecorder s)
    let s := restoreHeat (restoreMetering (restoreCalibration r.1))
    done (settleStart (recordTold (tellHwCause (copyWatch s))) r.2)

/-! The RETAIN set (15 R401). -/

/-- The pages that a program's RETAIN set takes. -/
def pagesFor (p : ProgImage) : List Nat := (List.range (Nat.min 32 (ceilDiv p.retainSize 8192))).map (fun i => 16 + i)

/-- The program under which the set was copied: the active one, or one of the image flash, by the names that page 16 carries. -/
def retainSource (s : State) (q : ProgImage) : Option ProgImage :=
  let h := headOf s 16
  if h.w1 = q.programId ∧ h.w2 = q.version then some q
  else
    (([0, 1].filterMap (fun i => lookup s.im.flash (cyclePlace i))).find? (fun b => leAt b 0x30 4 == h.w1 && leAt b 0x34 4 == h.w2)).map readProg

/-- The set is whole: every page in use is valid, and all carry the same three words. -/
def setWhole (s : State) (p : ProgImage) : Bool :=
  let h := headOf s 16
  (pagesFor p).all (fun k => (lookup s.rs.head k).isSome && (headOf s k).w0 == h.w0 && (headOf s k).w1 == h.w1 && (headOf s k).w2 == h.w2)

/-- The variables of a set with their words, as the bytes hold them in ascending offset. -/
def unpack (vs : List VarRec) (bs : Bytes) : List (VarRec × List Word) :=
  match vs with
  | [] => []
  | v :: t => (v, bytesToWords (slice bs 0 (4 * v.length))) :: unpack t (bs.drop (4 * v.length))

/-- What the stored set gives a variable of the program that starts (05 Table 5-13). -/
def carriedWords (same : Bool) (src : ProgImage) (set_ : List (VarRec × List Word)) (v : VarRec) : Option (List Word) :=
  let from_ := if same then some v else match carriedVar src v with | some w => if varCarries w v then some w else none | none => none
  match from_ with
  | some w => (set_.find? (fun x => x.1.ident == w.ident)).map (fun x => x.2.map (fun y => (convertCarried w.sigType v.sigType y).getD y))
  | none => none

/-- A variable takes words, its published copy with it (notes/assumptions/54). -/
def putVar (m : NMap Word) (v : VarRec) (ws : List Word) : NMap Word :=
  let m := setWords m (v.offset / 4) ws
  if v.exported then setWords m (v.offset / 4 + v.length) ws else m

/-- What the stored set gives each RETAIN variable of a program. -/
def retained (s : State) (q : ProgImage) : List (VarRec × Option (List Word)) :=
  match retainSource s q with
  | some p =>
    if setWhole s p then
      let set_ := unpack (retainVars p) ((pagesFor p).flatMap (fun k => readSpan s.rs.work (pageBase k) 8192))
      let same := p.programId == q.programId && p.version == q.version
      (retainVars q).map (fun v => (v, carriedWords same p set_ v))
    else (retainVars q).map (fun v => (v, none))
  | none => (retainVars q).map (fun v => (v, none))

/-- The RETAIN set is restored into the active program; variables not carried keep their initial data, with a WARN (15 R401, 05 R153). -/
def restoreRetain (s : State) : State :=
  match activeProg s with
  | none => s
  | some q =>
    let vs := retained s q
    let area := vs.foldl (fun (m : NMap Word) x => match x.2 with | some ws => putVar m x.1 ws | none => m) (activeSlot s).area
    let lost := vs.filter (fun x => x.2.isNone)
    let s := setActiveArea s area
    match lost with
    | [] => s
    | x :: _ => raiseFault s 0x01A3 2 7 [word x.1.ident, word lost.length]

/-! Activation (19 R467). -/

/-- The module waits to enter RUN: after start-up, or by SYS_STATE. -/
def waitsForRun (s : State) : Bool :=
  s.clk.running && s.pwr.vin && !s.ft.hwsafe &&
    ((s.pwr.pstate == 2 && s.pwr.startDone) ||
      ((s.pwr.pstate == 4 || s.pwr.pstate == 5) && (match s.pwr.toState with | some (3, _) => true | _ => false)))

/-- A line at activation: its buffers and references are empty, and in use it integrates; the recovery window stands (03 R100). -/
def activateLine (n : NetImage) (s : State) (i : Nat) : State :=
  if n.lineUsed i then
    integrate (onLine s i (fun l => { l with
      cur := [], prev := [], delivered := [], alive := [], e2eRef := [], lastGood := [] })) i
  else s

/-- Every station enters ABSENT; one that is effectively out of service stays OUT_OF_SERVICE (03 R102). -/
def absentStations (s : State) : State :=
  let m := s.un.run.foldl (fun (m : NMap UnitRun) p => setD UnitRun.reset m p.1 { p.2 with station := if p.2.out then 4 else 2, miss := 0, good := 0 }) []
  { s with un := { run := m, atBoundary := m, requests := [] } }

/-- A command of a mailbox that R355 dropped: the mailbox is IDLE with STATUS ABORTED. -/
def freeDropped (s : State) : State :=
  { s with mb := { s.mb with
      boxes := (indexed s.mb.boxes).map (fun p =>
        if p.1 != 0 && p.2.inFlight && !s.mb.bells.contains p.1 then { p.2 with state := .idle, status := stAborted } else p.2) } }

/-- The matrix starts: count 0, and T0 the first multiple of 1,000 µs from 25,000 µs on. -/
def startMatrix (s : State) : State :=
  { s with
    clk := { s.clk with t0 := some ((s.clk.nt + 25000 + 999) / 1000 * 1000), base := 0, k := 0, begun := false, bc := 0 }
    lbw := { s.lbw with curCycle := 0, prevCycle := 0 } }

/-- The cycle program starts from its initial data with the RETAIN set, and every solve slot with no published result. -/
def freshPrograms (s : State) : State :=
  let s := programAnew (enterSlot s s.ce.active (activeSlot s).bytes)
  let run := fun (r : TaskRun) => { r with stopped := false, nextRel := 0 }
  let s := { s with ce := { s.ce with
    fast := run s.ce.fast, network := run s.ce.network, slow := run s.ce.slow, pubNt := none, exc := 0, excNext := 0 } }
  restoreRetain ((List.range 4).foldl (fun s i => match (solveSlot s i).img with | some p => placeSolve s i (some p) | none => s) s)

/-- The rules get ACTIVE 0, DO base values and fail-safe sets as at a start, the recorder's buckets full. -/
def freshVent (s : State) : State :=
  settleSets (offerLevels { s with
    vn := { s.vn with active := 0, doBase := 0 }
    ev := { s.ev with buckets := [], sinter := [] } })

/-- The activation of the loaded network image, in one step. -/
def activate (s : State) (n : NetImage) : State :=
  let reply := s.pwr.toState
  let s := freshVent (absentStations (startMatrix { s with pwr := { s.pwr with toState := none } }))
  let s := { s with pt := loadPoints n }
  let s := freshPrograms s
  let s := freeDropped (setPstate s 3)
  let s := (List.range 64).foldl (activateLine n) s
  match reply with
  | some (t, mb) => replyTo s mb { Reply.ok with res0 := t }
  | none => s

/-- ACTIVATION: the network image is activated, and the module enters RUN (19 R467). -/
def execActivation (s : State) : Out :=
  match s.net.image with
  | some n => if waitsForRun s && mayActivate s then done (activate s n) else done s
  | none => done s

/-- ACTIVATION_TIMEOUT: 1,000 ms after the first two conditions held, activation proceeds without VHOLD at 27.0 V (19 R467). -/
def execActivationTimeout (s : State) : Out :=
  match s.net.image, s.pwr.condSince with
  | some n, some t => if waitsForRun s && imagesReady s then done (activate (advanceTo s (t + 1000000)) n) else done s
  | _, _ => done s

end Sys2Proof.Machine
end

