-- ==== Sys2Proof/Machine/Dispatch.lean ====
section
/-! DEFINITION. The effect of every command: one arm per constructor, each a direct call of its meaning. -/
namespace Sys2Proof.Machine

/-- The effect of a command on everything but the queue. -/
def exec (i : Instr) (s : State) : Host.Outcome State Fault Refusal :=
  match i with
  | .boundary => Sys2Proof.Machine.execBoundary s
  | .safeExitDecision => Sys2Proof.Machine.execSafeExitDecision s
  | .fenceHoldExpiry line => Sys2Proof.Machine.execFenceHoldExpiry line s
  | .recoveryWindowExpiry line => Sys2Proof.Machine.execRecoveryWindowExpiry line s
  | .networkRelease => Sys2Proof.Machine.execNetworkRelease s
  | .fastRelease => Sys2Proof.Machine.execFastRelease s
  | .taskDeadline task => Sys2Proof.Machine.execTaskDeadline task s
  | .taskStop task => Sys2Proof.Machine.execTaskStop task s
  | .barrierRelease task => Sys2Proof.Machine.execBarrierRelease task s
  | .swapStart => Sys2Proof.Machine.execSwapStart s
  | .nop core => Sys2Proof.Machine.execNop core s
  | .add core => Sys2Proof.Machine.execAdd core s
  | .sub core => Sys2Proof.Machine.execSub core s
  | .mul core => Sys2Proof.Machine.execMul core s
  | .div core => Sys2Proof.Machine.execDiv core s
  | .mod core => Sys2Proof.Machine.execMod core s
  | .abs core => Sys2Proof.Machine.execAbs core s
  | .neg core => Sys2Proof.Machine.execNeg core s
  | .min core => Sys2Proof.Machine.execMin core s
  | .max core => Sys2Proof.Machine.execMax core s
  | .limit core => Sys2Proof.Machine.execLimit core s
  | .sqrt core => Sys2Proof.Machine.execSqrt core s
  | .scale core => Sys2Proof.Machine.execScale core s
  | .conv core => Sys2Proof.Machine.execConv core s
  | .cmp core => Sys2Proof.Machine.execCmp core s
  | .and core => Sys2Proof.Machine.execAnd core s
  | .or core => Sys2Proof.Machine.execOr core s
  | .xor core => Sys2Proof.Machine.execXor core s
  | .not core => Sys2Proof.Machine.execNot core s
  | .sel core => Sys2Proof.Machine.execSel core s
  | .mux core => Sys2Proof.Machine.execMux core s
  | .sr core => Sys2Proof.Machine.execSr core s
  | .rs core => Sys2Proof.Machine.execRs core s
  | .bitget core => Sys2Proof.Machine.execBitget core s
  | .bitset core => Sys2Proof.Machine.execBitset core s
  | .rtrig core => Sys2Proof.Machine.execRtrig core s
  | .ftrig core => Sys2Proof.Machine.execFtrig core s
  | .ton core => Sys2Proof.Machine.execTon core s
  | .tof core => Sys2Proof.Machine.execTof core s
  | .tp core => Sys2Proof.Machine.execTp core s
  | .tonL core => Sys2Proof.Machine.execTonL core s
  | .ctu core => Sys2Proof.Machine.execCtu core s
  | .ctd core => Sys2Proof.Machine.execCtd core s
  | .ctud core => Sys2Proof.Machine.execCtud core s
  | .ramp core => Sys2Proof.Machine.execRamp core s
  | .rate core => Sys2Proof.Machine.execRate core s
  | .pid core => Sys2Proof.Machine.execPid core s
  | .pt1 core => Sys2Proof.Machine.execPt1 core s
  | .deadband core => Sys2Proof.Machine.execDeadband core s
  | .hyst core => Sys2Proof.Machine.execHyst core s
  | .curve core => Sys2Proof.Machine.execCurve core s
  | .heatcurve core => Sys2Proof.Machine.execHeatcurve core s
  | .split core => Sys2Proof.Machine.execSplit core s
  | .total core => Sys2Proof.Machine.execTotal core s
  | .getp core => Sys2Proof.Machine.execGetp core s
  | .putp core => Sys2Proof.Machine.execPutp core s
  | .qual core => Sys2Proof.Machine.execQual core s
  | .unitstat core => Sys2Proof.Machine.execUnitstat core s
  | .solveReq core => Sys2Proof.Machine.execSolveReq core s
  | .solveGet core => Sys2Proof.Machine.execSolveGet core s
  | .evrec core => Sys2Proof.Machine.execEvrec core s
  | .clock core => Sys2Proof.Machine.execClock core s
  | .taskDispatch tile => Sys2Proof.Machine.execTaskDispatch tile s
  | .taskComputeDone tile ctx => Sys2Proof.Machine.execTaskComputeDone tile ctx s
  | .taskRetire tile ctx => Sys2Proof.Machine.execTaskRetire tile ctx s
  | .stagingCopy slot block toBulk => Sys2Proof.Machine.execStagingCopy slot block toBulk s
  | .solveBackstop slot => Sys2Proof.Machine.execSolveBackstop slot s
  | .basicCycleStart => Sys2Proof.Machine.execBasicCycleStart s
  | .referenceFrame line at_ => Sys2Proof.Machine.execReferenceFrame line at_ s
  | .referenceFrameTimeout line => Sys2Proof.Machine.execReferenceFrameTimeout line s
  | .txWindowStart line window => Sys2Proof.Machine.execTxWindowStart line window s
  | .txFrameDone line at_ result => Sys2Proof.Machine.execTxFrameDone line at_ result s
  | .retrySend line window at_ => Sys2Proof.Machine.execRetrySend line window at_ s
  | .injectionSend line at_ => Sys2Proof.Machine.execInjectionSend line at_ s
  | .frameReceived line at_ frame => Sys2Proof.Machine.execFrameReceived line at_ frame s
  | .rxWindowEnd line window => Sys2Proof.Machine.execRxWindowEnd line window s
  | .lineError line kind dataPhase transmitting how => Sys2Proof.Machine.execLineError line kind dataPhase transmitting how s
  | .lineIntegrated line => Sys2Proof.Machine.execLineIntegrated line s
  | .busOffRecovery line => Sys2Proof.Machine.execBusOffRecovery line s
  | .xcvrFault line fault => Sys2Proof.Machine.execXcvrFault line fault s
  | .ventEvent => Sys2Proof.Machine.execVentEvent s
  | .diChange input level at_ => Sys2Proof.Machine.execDiChange input level at_ s
  | .diFilterExpiry input => Sys2Proof.Machine.execDiFilterExpiry input s
  | .faultRaised code cls words => Sys2Proof.Machine.execFaultRaised code cls words s
  | .faultHandling => Sys2Proof.Machine.execFaultHandling s
  | .safeEntryWatchdog => Sys2Proof.Machine.execSafeEntryWatchdog s
  | .clockLoss pll => Sys2Proof.Machine.execClockLoss pll s
  | .lockstepMismatch => Sys2Proof.Machine.execLockstepMismatch s
  | .poisonedRead reader addr => Sys2Proof.Machine.execPoisonedRead reader addr s
  | .scrubPass => Sys2Proof.Machine.execScrubPass s
  | .heartbeat => Sys2Proof.Machine.execHeartbeat s
  | .supWdog => Sys2Proof.Machine.execSupWdog s
  | .meterTick samples poisoned => Sys2Proof.Machine.execMeterTick samples poisoned s
  | .fundamentalCycle set period points => Sys2Proof.Machine.execFundamentalCycle set period points s
  | .lockTimeout set => Sys2Proof.Machine.execLockTimeout set s
  | .meterSecond => Sys2Proof.Machine.execMeterSecond s
  | .periodicSave => Sys2Proof.Machine.execPeriodicSave s
  | .meteringStop => Sys2Proof.Machine.execMeteringStop s
  | .watchSecond irms => Sys2Proof.Machine.execWatchSecond irms s
  | .watchLimit => Sys2Proof.Machine.execWatchLimit s
  | .spiWrite addr words => Sys2Proof.Machine.execSpiWrite addr words s
  | .spiRead addr count => Sys2Proof.Machine.execSpiRead addr count s
  | .spiReserved command => Sys2Proof.Machine.execSpiReserved command s
  | .spiFrameAbort isRead addr words => Sys2Proof.Machine.execSpiFrameAbort isRead addr words s
  | .pcieMemRead addr count => Sys2Proof.Machine.execPcieMemRead addr count s
  | .pcieMemWrite addr words => Sys2Proof.Machine.execPcieMemWrite addr words s
  | .pcieConfigAccess write offset value enables => Sys2Proof.Machine.execPcieConfigAccess write offset value enables s
  | .pciePowerState d3hot => Sys2Proof.Machine.execPciePowerState d3hot s
  | .linkDown why => Sys2Proof.Machine.execLinkDown why s
  | .msiSend vector => Sys2Proof.Machine.execMsiSend vector s
  | .glbNtLoRead => Sys2Proof.Machine.execGlbNtLoRead s
  | .glbCplRead => Sys2Proof.Machine.execGlbCplRead s
  | .glbIrqStatWrite value => Sys2Proof.Machine.execGlbIrqStatWrite value s
  | .glbIrqEnWrite value => Sys2Proof.Machine.execGlbIrqEnWrite value s
  | .glbIrqMapWrite value => Sys2Proof.Machine.execGlbIrqMapWrite value s
  | .mbDoorbell mb at_ => Sys2Proof.Machine.execMbDoorbell mb at_ s
  | .mailboxTake at_ => Sys2Proof.Machine.execMailboxTake at_ s
  | .commandCompletion mb at_ => Sys2Proof.Machine.execCommandCompletion mb at_ s
  | .dmaTransfer mb list data => Sys2Proof.Machine.execDmaTransfer mb list data s
  | .dmaError mb error done => Sys2Proof.Machine.execDmaError mb error done s
  | .dmaCompletionTimeout mb done => Sys2Proof.Machine.execDmaCompletionTimeout mb done s
  | .sysInfo mb => Sys2Proof.Machine.execSysInfo mb s
  | .sysState mb => Sys2Proof.Machine.execSysState mb s
  | .sysReset mb => Sys2Proof.Machine.execSysReset mb s
  | .sysResetExpiry => Sys2Proof.Machine.execSysResetExpiry s
  | .parRead mb => Sys2Proof.Machine.execParRead mb s
  | .parWrite mb => Sys2Proof.Machine.execParWrite mb s
  | .cfgCommit mb => Sys2Proof.Machine.execCfgCommit mb s
  | .cfgDiscard mb => Sys2Proof.Machine.execCfgDiscard mb s
  | .imgPut mb => Sys2Proof.Machine.execImgPut mb s
  | .imgLoad mb => Sys2Proof.Machine.execImgLoad mb s
  | .imgInfo mb => Sys2Proof.Machine.execImgInfo mb s
  | .fwStage mb => Sys2Proof.Machine.execFwStage mb s
  | .unitRead mb => Sys2Proof.Machine.execUnitRead mb s
  | .unitService mb => Sys2Proof.Machine.execUnitService mb s
  | .ptRead mb => Sys2Proof.Machine.execPtRead mb s
  | .ptDir mb => Sys2Proof.Machine.execPtDir mb s
  | .ptForce mb => Sys2Proof.Machine.execPtForce mb s
  | .ptRelease mb => Sys2Proof.Machine.execPtRelease mb s
  | .ptForces mb => Sys2Proof.Machine.execPtForces mb s
  | .lnService mb => Sys2Proof.Machine.execLnService mb s
  | .mxRead mb => Sys2Proof.Machine.execMxRead mb s
  | .stnRead mb => Sys2Proof.Machine.execStnRead mb s
  | .ceStatus mb => Sys2Proof.Machine.execCeStatus mb s
  | .ceSwap mb => Sys2Proof.Machine.execCeSwap mb s
  | .ceSwapCancel mb => Sys2Proof.Machine.execCeSwapCancel mb s
  | .ceVarRead mb => Sys2Proof.Machine.execCeVarRead mb s
  | .slvEngineStatus mb => Sys2Proof.Machine.execSlvEngineStatus mb s
  | .slvSlots mb => Sys2Proof.Machine.execSlvSlots mb s
  | .slvResult mb => Sys2Proof.Machine.execSlvResult mb s
  | .slvAbort mb => Sys2Proof.Machine.execSlvAbort mb s
  | .slvProgramInfo mb => Sys2Proof.Machine.execSlvProgramInfo mb s
  | .slvUnload mb => Sys2Proof.Machine.execSlvUnload mb s
  | .mtrRead mb => Sys2Proof.Machine.execMtrRead mb s
  | .mtrReadSigned mb => Sys2Proof.Machine.execMtrReadSigned mb s
  | .mtrRecord mb => Sys2Proof.Machine.execMtrRecord mb s
  | .mtrLoss mb => Sys2Proof.Machine.execMtrLoss mb s
  | .mtrAckLoss mb => Sys2Proof.Machine.execMtrAckLoss mb s
  | .mtrCalBegin mb => Sys2Proof.Machine.execMtrCalBegin mb s
  | .mtrCalSet mb => Sys2Proof.Machine.execMtrCalSet mb s
  | .mtrCalMeasure mb => Sys2Proof.Machine.execMtrCalMeasure mb s
  | .mtrCalCommit mb => Sys2Proof.Machine.execMtrCalCommit mb s
  | .mtrCalCancel mb => Sys2Proof.Machine.execMtrCalCancel mb s
  | .mtrWatchRead mb => Sys2Proof.Machine.execMtrWatchRead mb s
  | .mtrWatchClear mb => Sys2Proof.Machine.execMtrWatchClear mb s
  | .hqRead mb => Sys2Proof.Machine.execHqRead mb s
  | .hqReadSigned mb => Sys2Proof.Machine.execHqReadSigned mb s
  | .hqRecord mb => Sys2Proof.Machine.execHqRecord mb s
  | .hqAckLoss mb => Sys2Proof.Machine.execHqAckLoss mb s
  | .timeGet mb => Sys2Proof.Machine.execTimeGet mb s
  | .timeSet mb => Sys2Proof.Machine.execTimeSet mb s
  | .timeAdjust mb => Sys2Proof.Machine.execTimeAdjust mb s
  | .timeChangeApply => Sys2Proof.Machine.execTimeChangeApply s
  | .alarmSet mb => Sys2Proof.Machine.execAlarmSet mb s
  | .timeTrim mb => Sys2Proof.Machine.execTimeTrim mb s
  | .alarmFire => Sys2Proof.Machine.execAlarmFire s
  | .beyondReached => Sys2Proof.Machine.execBeyondReached s
  | .oscStop => Sys2Proof.Machine.execOscStop s
  | .oscRestart => Sys2Proof.Machine.execOscRestart s
  | .batlowCheck millivolts => Sys2Proof.Machine.execBatlowCheck millivolts s
  | .rtcRegisterRead offset => Sys2Proof.Machine.execRtcRegisterRead offset s
  | .rtcTickHiRead => Sys2Proof.Machine.execRtcTickHiRead s
  | .rtcBlockWrite offset value => Sys2Proof.Machine.execRtcBlockWrite offset value s
  | .rtcShadowTimeout => Sys2Proof.Machine.execRtcShadowTimeout s
  | .rsStore mb => Sys2Proof.Machine.execRsStore mb s
  | .rsInfo mb => Sys2Proof.Machine.execRsInfo mb s
  | .ctrRead mb => Sys2Proof.Machine.execCtrRead mb s
  | .pageStore => Sys2Proof.Machine.execPageStore s
  | .counterIncrement => Sys2Proof.Machine.execCounterIncrement s
  | .rsCmdStore value => Sys2Proof.Machine.execRsCmdStore value s
  | .rsCmdCtrInc value => Sys2Proof.Machine.execRsCmdCtrInc value s
  | .rsWdataRead => Sys2Proof.Machine.execRsWdataRead s
  | .rsWdataWrite value => Sys2Proof.Machine.execRsWdataWrite value s
  | .recallComplete => Sys2Proof.Machine.execRecallComplete s
  | .keyInfo mb => Sys2Proof.Machine.execKeyInfo mb s
  | .keyStage mb => Sys2Proof.Machine.execKeyStage mb s
  | .keyVerify mb => Sys2Proof.Machine.execKeyVerify mb s
  | .keyCommit mb => Sys2Proof.Machine.execKeyCommit mb s
  | .keyDiscard mb => Sys2Proof.Machine.execKeyDiscard mb s
  | .attest mb => Sys2Proof.Machine.execAttest mb s
  | .keyPublic mb => Sys2Proof.Machine.execKeyPublic mb s
  | .keySlotCheck bad => Sys2Proof.Machine.execKeySlotCheck bad s
  | .evrRead mb => Sys2Proof.Machine.execEvrRead mb s
  | .evrExcerpt mb => Sys2Proof.Machine.execEvrExcerpt mb s
  | .evrCode mb => Sys2Proof.Machine.execEvrCode mb s
  | .recordOffer code cls source words => Sys2Proof.Machine.execRecordOffer code cls source words s
  | .recordWrite => Sys2Proof.Machine.execRecordWrite s
  | .excerptDirtyTimeout page => Sys2Proof.Machine.execExcerptDirtyTimeout page s
  | .evrCurHiWrite value => Sys2Proof.Machine.execEvrCurHiWrite value s
  | .evrToOldest => Sys2Proof.Machine.execEvrToOldest s
  | .evrToNew => Sys2Proof.Machine.execEvrToNew s
  | .maStatus mb => Sys2Proof.Machine.execMaStatus mb s
  | .rplCapture mb => Sys2Proof.Machine.execRplCapture mb s
  | .rplSnapGet mb => Sys2Proof.Machine.execRplSnapGet mb s
  | .rplStart mb => Sys2Proof.Machine.execRplStart mb s
  | .rplFeed mb => Sys2Proof.Machine.execRplFeed mb s
  | .rplOutput mb => Sys2Proof.Machine.execRplOutput mb s
  | .rplEnd mb => Sys2Proof.Machine.execRplEnd mb s
  | .lbwSelWrite value => Sys2Proof.Machine.execLbwSelWrite value s
  | .lbwWatchWrite value => Sys2Proof.Machine.execLbwWatchWrite value s
  | .vntRelease value => Sys2Proof.Machine.execVntRelease value s
  | .vntReleaseAll => Sys2Proof.Machine.execVntReleaseAll s
  | .vntFirstRead => Sys2Proof.Machine.execVntFirstRead s
  | .safeExit => Sys2Proof.Machine.execSafeExit s
  | .mtrSnap => Sys2Proof.Machine.execMtrSnap s
  | .mtrRelease => Sys2Proof.Machine.execMtrRelease s
  | .cvStart unit => Sys2Proof.Machine.execCvStart unit s
  | .cvFeed8 unit value => Sys2Proof.Machine.execCvFeed8 unit value s
  | .cvFeed16 unit value => Sys2Proof.Machine.execCvFeed16 unit value s
  | .cvFeed32 unit value => Sys2Proof.Machine.execCvFeed32 unit value s
  | .cvCfgWrite unit value => Sys2Proof.Machine.execCvCfgWrite unit value s
  | .registerWrite addr value => Sys2Proof.Machine.execRegisterWrite addr value s
  | .vinGood ticks => Sys2Proof.Machine.execVinGood ticks s
  | .vinFail => Sys2Proof.Machine.execVinFail s
  | .holdEnd => Sys2Proof.Machine.execHoldEnd s
  | .vbatLoss => Sys2Proof.Machine.execVbatLoss s
  | .vioHChange good => Sys2Proof.Machine.execVioHChange good s
  | .reset cause => Sys2Proof.Machine.execReset cause s
  | .readyAssert rootGood badSlots => Sys2Proof.Machine.execReadyAssert rootGood badSlots s
  | .activation => Sys2Proof.Machine.execActivation s
  | .activationTimeout => Sys2Proof.Machine.execActivationTimeout s
  | .xcvrFaultCleared line fault => Sys2Proof.Machine.execXcvrFaultCleared line fault s
  | .busdom line => Sys2Proof.Machine.execBusdom line s
  | .vbatPresent => Sys2Proof.Machine.execVbatPresent s
  | .vholdCutoff => Sys2Proof.Machine.execVholdCutoff s
  | .vholdMeasure millivolts => Sys2Proof.Machine.execVholdMeasure millivolts s
  | .pcieLinkUp => Sys2Proof.Machine.execPcieLinkUp s
  | .internalResetRelease hostsel => Sys2Proof.Machine.execInternalResetRelease hostsel s
  | .startupComplete => Sys2Proof.Machine.execStartupComplete s
  | .boundaryScanAccess op => Sys2Proof.Machine.execBoundaryScanAccess op s

end Sys2Proof.Machine
end

