-- ==== Sys2Proof/Safety.lean ====
section
/-! DEFINITION. The terms that statements about the block use: what a command does, when a mailbox command is carried out, when a block instance runs, and the invariant of the interrupt messages. -/
namespace Sys2Proof.Machine

/-- Command `c` takes state `s` to `t`, once the vectors that have become pending owe their messages (12 R345). -/
def Does (c : Instr) (s t : State) : Prop := exec c s = .next (settle t)

/-- Command `c` ends the command of mailbox `mb` with a status that refuses it, and does nothing else (12 R352). -/
def Refuses (c : Instr) (s : State) (mb status : Nat) : Prop := Does c s (finish s mb (Reply.of status))

/-- Command `c` ends the command of mailbox `mb` with OK and its results, and does nothing else. -/
def Answers (c : Instr) (s : State) (mb : Nat) (r : Reply) : Prop := Does c s (finish s mb r)

/-- Every vector that is pending is known as pending, and none other: no message is owed twice for one cause (12 R345). -/
abbrev MsiSettled (s : State) : Prop := s.link.msiWas = vectorsPending s

/-- The command of code `code` stands in EXEC in mailbox `mb`, in a power state that serves the mailbox, and names no argument word that it does not have (12 R351, 13 R362). -/
abbrev Taken (s : State) (mb code : Nat) : Prop :=
  executes s mb code = true ∧ (box s mb).unnamedZero (((ruleOf code).map (fun r => r.args)).getD 15) = true

/-- Core `core` is about to execute an instance of block `code`, in a cycle that runs, and `c` is what the instance sees (05 R132 to R140). -/
def AtBlock (s : State) (core code : Nat) (c : Ctx) : Prop :=
  core < 4 ∧ cycling s = true ∧ s.ft.hwsafe = false ∧
  ∃ n p t e i, s.net.image = some n ∧ activeProg s = some p ∧ nextInst s p core = some (t, e, i) ∧
    (p.instAt i).block = code ∧ c = ctxOf s n p core t e i

/-- A command that runs a block instance on a core, with the block's code and its function. -/
structure BlockRow where
  cmd : Nat → Instr
  code : Nat
  block : Ctx → BlkOut

/-- The arithmetic blocks (06 R172 to R174). -/
def arithmeticRows : List BlockRow :=
  [⟨.nop, 0x00, fun _ => BlkOut.of []⟩, ⟨.add, 0x01, addBlock⟩, ⟨.sub, 0x02, subBlock⟩, ⟨.mul, 0x03, mulBlock⟩,
   ⟨.div, 0x04, divBlock⟩, ⟨.mod, 0x05, modBlock⟩, ⟨.abs, 0x06, absBlock⟩, ⟨.neg, 0x07, negBlock⟩, ⟨.min, 0x08, minBlock⟩,
   ⟨.max, 0x09, maxBlock⟩, ⟨.limit, 0x0A, limitBlock⟩, ⟨.sqrt, 0x0B, sqrtBlock⟩, ⟨.scale, 0x0C, scaleBlock⟩,
   ⟨.conv, 0x0D, convBlock⟩]

/-- The logic and selection blocks (06 R175). -/
def logicRows : List BlockRow :=
  [⟨.cmp, 0x10, cmpBlock⟩, ⟨.and, 0x11, bitBlock (· &&& ·)⟩, ⟨.or, 0x12, bitBlock (· ||| ·)⟩, ⟨.xor, 0x13, bitBlock (· ^^^ ·)⟩,
   ⟨.not, 0x14, notBlock⟩, ⟨.sel, 0x15, selBlock⟩, ⟨.mux, 0x16, muxBlock⟩, ⟨.sr, 0x17, srBlock⟩, ⟨.rs, 0x18, rsBlock⟩,
   ⟨.bitget, 0x19, bitgetBlock⟩, ⟨.bitset, 0x1A, bitsetBlock⟩]

/-- The edges, timers, counters, RAMP and RATE (06 R176 to R178). -/
def timeRows : List BlockRow :=
  [⟨.rtrig, 0x20, rtrigBlock⟩, ⟨.ftrig, 0x21, ftrigBlock⟩, ⟨.ton, 0x22, tonBlock⟩, ⟨.tof, 0x23, tofBlock⟩, ⟨.tp, 0x24, tpBlock⟩,
   ⟨.tonL, 0x25, tonLBlock⟩, ⟨.ctu, 0x26, ctuBlock⟩, ⟨.ctd, 0x27, ctdBlock⟩, ⟨.ctud, 0x28, ctudBlock⟩, ⟨.ramp, 0x29, rampBlock⟩,
   ⟨.rate, 0x2A, rateBlock⟩]

/-- The control blocks (06 R179 to R183). -/
def controlRows : List BlockRow :=
  [⟨.pid, 0x30, pidBlock⟩, ⟨.pt1, 0x31, pt1Block⟩, ⟨.deadband, 0x32, deadbandBlock⟩, ⟨.hyst, 0x33, hystBlock⟩,
   ⟨.curve, 0x34, curveBlock⟩, ⟨.heatcurve, 0x35, heatcurveBlock⟩, ⟨.split, 0x36, splitBlock⟩, ⟨.total, 0x37, totalBlock⟩]

/-- The interface blocks that only read (06 R184, R185, R187, R189). -/
def readingRows : List BlockRow :=
  [⟨.getp, 0x38, getpBlock⟩, ⟨.qual, 0x3A, qualBlock⟩, ⟨.unitstat, 0x3B, unitstatBlock⟩, ⟨.solveGet, 0x3D, solveGetBlock⟩,
   ⟨.clock, 0x3F, clockBlock⟩]

/-- Every mailbox command, by its code (13 Tables 13-3 to 13-16, 10 Table 10-11, 11 Table 11-6). -/
def mailboxRows : List (Nat × (Nat → Instr)) :=
  [(0x0101, .sysInfo), (0x0102, .sysState), (0x0103, .sysReset), (0x0110, .parRead), (0x0111, .parWrite), (0x0112, .cfgCommit),
   (0x0113, .cfgDiscard), (0x0201, .imgPut), (0x0202, .imgLoad), (0x0203, .imgInfo), (0x0210, .fwStage), (0x0301, .unitRead),
   (0x0302, .unitService), (0x0303, .ptRead), (0x0304, .ptDir), (0x0310, .ptForce), (0x0311, .ptRelease), (0x0312, .ptForces),
   (0x0401, .lnService), (0x0402, .mxRead), (0x0403, .stnRead), (0x0501, .ceStatus), (0x0502, .ceSwap), (0x0503, .ceSwapCancel),
   (0x0504, .ceVarRead), (0x0601, .slvEngineStatus), (0x0602, .slvSlots), (0x0603, .slvResult), (0x0604, .slvAbort),
   (0x0605, .slvProgramInfo), (0x0606, .slvUnload)] ++
  [(0x0701, .mtrRead), (0x0702, .mtrReadSigned), (0x0703, .mtrRecord), (0x0704, .mtrLoss), (0x0705, .mtrAckLoss),
   (0x0710, .mtrCalBegin), (0x0711, .mtrCalSet), (0x0712, .mtrCalMeasure), (0x0713, .mtrCalCommit), (0x0714, .mtrCalCancel),
   (0x0720, .mtrWatchRead), (0x0721, .mtrWatchClear), (0x0741, .hqRead), (0x0742, .hqReadSigned), (0x0743, .hqRecord),
   (0x0744, .hqAckLoss), (0x0801, .timeGet), (0x0802, .timeSet), (0x0803, .timeAdjust), (0x0804, .alarmSet), (0x0805, .timeTrim)] ++
  [(0x0901, .rsStore), (0x0902, .rsInfo), (0x0903, .ctrRead), (0x0A01, .keyInfo), (0x0A02, .keyStage), (0x0A03, .keyVerify),
   (0x0A04, .keyCommit), (0x0A05, .keyDiscard), (0x0A06, .attest), (0x0A07, .keyPublic), (0x0B01, .evrRead), (0x0B02, .evrExcerpt),
   (0x0B03, .evrCode), (0x0C01, .maStatus), (0x0C02, .rplCapture), (0x0C03, .rplSnapGet), (0x0C04, .rplStart), (0x0C05, .rplFeed),
   (0x0C06, .rplOutput), (0x0C07, .rplEnd)]

end Sys2Proof.Machine
end

