-- ==== Sys2Proof/Certificates/Slice0/Obligations.lean ====
section
/-! DEFINITION. The statements about the block, for the provers. Each docstring names the rules of spec/ that it rests on; what a statement owes to a choice of the model is named with its log entry. -/
open Sys2Proof Sys2Proof.Machine

/-! The queue, the step and the messages. -/

/-- Step takes the command at the front of the queue and runs it on the state with the rest of the queue (notes/assumptions/1). -/
def Obligations.StepRunsTheFrontCommand : Prop :=
  ∀ (s : State) (c : Instr) (rest : List Instr), s.pending = c :: rest → step s = exec c { s with pending := rest }

/-- With no command waiting, one cycle of CLK_T passes: NT counts one up, and the RTC, the idle and the busy counts count their time; without CLK_T one edge of the RTC oscillator comes while that is supplied and runs, and else nothing changes (01 R24, 14 R373, R374; the model's choice, notes/assumptions/2). -/
def Obligations.StepWithoutACommandIsOneClockCycle : Prop :=
  ∀ s : State, s.pending = [] →
    (s.clk.running = true → s.clk.refOk = true →
      step s = .next { s with
        clk := { s.clk with nt := s.clk.nt + 1 }, rtc := if s.pwr.vin ∨ s.pwr.vbat then s.rtc.run 1 else s.rtc
        ce := { s.ce with idle := idleRun s 1 }, sv := { s.sv with busy := busyRun s 1 } }) ∧
    (s.clk.running = false ∨ s.clk.refOk = false →
      ((s.pwr.vin = true ∨ s.pwr.vbat = true) → s.rtc.oscFail = false → step s = .next { s with rtc := s.rtc.newTrim.count 1 }) ∧
      (s.pwr.vin = false → s.pwr.vbat = false → step s = .next s) ∧
      (s.rtc.oscFail = true → step s = .next s))

/-- Every command answers a next state, on every state: the module has no command that stops it. -/
def Obligations.EveryCommandAnswersANextState : Prop :=
  ∀ (c : Instr) (s : State), ∃ t : State, exec c s = .next t

/-- Every step keeps the interrupt messages settled: the vectors known as pending are those that the sources, the enables and the map make pending (12 R345; the record of what is known is the model's, notes/assumptions/43). -/
def Obligations.EveryStepKeepsMessagesSettled : Prop :=
  ∀ s t : State, MsiSettled s → step s = .next t → MsiSettled t

/-- The state right after reset is settled. -/
def Obligations.ResetIsSettled : Prop := MsiSettled State.reset

/-- What reset leaves, by the Reset columns of the register tables: power state START, READY clear, NT 0, every line OFFLINE, interrupts disabled with the default map, no completion entry, every mailbox IDLE, SET and ARMED clear, VNT and fault state empty, CRC-32 in every check-value unit, no staged key, no activity. -/
def Obligations.ResetLeavesTheStatedValues : Prop :=
  State.reset.pwr.pstate = 2 ∧ State.reset.pwr.ready = false ∧ State.reset.clk.nt = 0 ∧ State.reset.clk.t0 = none ∧
  (∀ l, (lineOf State.reset l).state = 5 ∧ (lineOf State.reset l).tec = 0 ∧ (lineOf State.reset l).rcv = 0) ∧
  State.reset.glb.irqEn = 0 ∧ State.reset.glb.irqMap = 0x00FAC688 ∧ State.reset.glb.cpl = [] ∧ irqStat State.reset = 0 ∧
  State.reset.mb.boxes = List.replicate 16 Mailbox.reset ∧ Mailbox.reset.state = .idle ∧ State.reset.mb.bells = [] ∧
  State.reset.vn.active = 0 ∧ State.reset.vn.doBase = 0 ∧ State.reset.ft.safe = false ∧ State.reset.ft.hwsafe = false ∧
  State.reset.ft.pend = 0 ∧ State.reset.ft.cnt = [0, 0, 0, 0, 0] ∧
  State.reset.cv = List.replicate 8 Cv.reset ∧ Cv.reset.poly = 0x04C11DB7 ∧ Cv.reset.init = 0xFFFFFFFF ∧ Cv.reset.width = 32 ∧
  State.reset.rs.dirty = 0 ∧ State.reset.rs.cmdBusy = false ∧ State.reset.ev.thresh = 0 ∧ State.reset.ks.staged = none ∧
  State.reset.ma = [] ∧ State.reset.pt.forces = [] ∧ State.reset.pa.runtime = []

/-- MSI: a vector that becomes pending is owed a message, or sets its Pending bit while it is masked; messages owed and Pending bits stay; nothing else changes (12 R345). -/
def Obligations.ANewVectorOwesItsMessage : Prop :=
  ∀ (s : State) (v : Nat),
    ((settle s).link.msiDue.testBit v = (s.link.msiDue.testBit v ||
      ((vectorsPending s).testBit v && !s.link.msiWas.testBit v && !(msiMask s).testBit v))) ∧
    ((settle s).pcie.msiPending.testBit v = (s.pcie.msiPending.testBit v ||
      ((vectorsPending s).testBit v && !s.link.msiWas.testBit v && (msiMask s).testBit v))) ∧
    settle s = { s with
      link := { s.link with msiDue := (settle s).link.msiDue, msiWas := vectorsPending s }
      pcie := { s.pcie with msiPending := (settle s).pcie.msiPending } }

/-- HOST_IRQ_N is asserted exactly while the module runs and a bit of GLB_IRQ_STAT AND GLB_IRQ_EN is set, whichever link is selected and whether or not MSI is enabled; it is released in reset and when the module is unpowered (12 R346). -/
def Obligations.HostIrqFollowsTheEnabledSources : Prop :=
  (∀ s : State, hostIrq s = true ↔ s.clk.running = true ∧ ∃ b, (irqStat s).testBit b = true ∧ s.glb.irqEn.testBit b = true) ∧
  (∀ s : State, s.clk.running = false → hostIrq s = false) ∧
  (∀ (s : State) (spi : Bool) (p : Pcie), hostIrq { s with pwr := { s.pwr with linkSpi := spi }, pcie := p } = hostIrq s) ∧
  hostIrq State.reset = false ∧ (∀ (s : State) (p : Nat), hostIrq (coldState s p) = false)

/-! Block instances. -/

/-- Every arithmetic, logic, selection, edge, timer, counter and control command runs its instance: the outputs and the state that its block makes of what the instance sees are stored, and the core goes on to its next entry (06 Tables 6-6, 6-8, 6-9 and 6-11). -/
def Obligations.TheBlocksRun : Prop :=
  (∀ row ∈ arithmeticRows, ∀ (s : State) (core : Nat) (c : Ctx), AtBlock s core row.code c →
    Does (row.cmd core) s (endInst s c core (row.block c))) ∧
  (∀ row ∈ logicRows, ∀ (s : State) (core : Nat) (c : Ctx), AtBlock s core row.code c →
    Does (row.cmd core) s (endInst s c core (row.block c))) ∧
  (∀ row ∈ timeRows, ∀ (s : State) (core : Nat) (c : Ctx), AtBlock s core row.code c →
    Does (row.cmd core) s (endInst s c core (row.block c))) ∧
  (∀ row ∈ controlRows, ∀ (s : State) (core : Nat) (c : Ctx), AtBlock s core row.code c →
    Does (row.cmd core) s (endInst s c core (row.block c)))

/-- The same of the interface blocks; PUTP also writes its point in the output working image, EVREC also offers its record, SOLVE_REQ also requests its solve (06 Table 6-12). -/
def Obligations.InterfaceBlocksRun : Prop :=
  (∀ row ∈ readingRows, ∀ (s : State) (core : Nat) (c : Ctx), AtBlock s core row.code c →
    Does (row.cmd core) s (endInst s c core (row.block c))) ∧
  (∀ (s : State) (core : Nat) (c : Ctx), AtBlock s core 0x39 c →
    (c.flag 1 = true → Does (.putp core) s (endInst { s with pt := { s.pt with
      working := setD Entry.reset s.pt.working (pointIdOf c.net c.inst)
        (putpEntry s c (getD Entry.reset s.pt.working (pointIdOf c.net c.inst))) } } c core (BlkOut.of []))) ∧
    (c.flag 1 = false → Does (.putp core) s (endInst s c core (BlkOut.of [])))) ∧
  (∀ (s : State) (core : Nat) (c : Ctx), AtBlock s core 0x3E c →
    Does (.evrec core) s (endInst (evrecEffect c (evrecBlock c) s) c core (evrecBlock c))) ∧
  (∀ (s : State) (core : Nat) (c : Ctx), AtBlock s core 0x3C c →
    Does (.solveReq core) s (endInst (solveReqEffect c (solveReqBlock c) s) c core (solveReqBlock c)))

/-- The frame of the block commands that have no effect beyond their own state: the cycle engine and the count of free values change, nothing else but the messages owed. -/
def Obligations.BlockCommandsChangeOnlyTheCycleEngine : Prop :=
  ∀ row ∈ arithmeticRows ++ logicRows ++ timeRows ++ controlRows ++ readingRows, ∀ (s t : State) (core : Nat),
    exec (row.cmd core) s = .next t →
    t = { s with
      ce := t.ce, free := t.free
      link := { s.link with msiDue := t.link.msiDue, msiWas := t.link.msiWas }
      pcie := { s.pcie with msiPending := t.pcie.msiPending } }

/-- An instance whose outputs are bound to no variable leaves each of its outputs in the output's slot, with REPLAY as it stands and bit 7 clear (06 R165, R166, R168). -/
def Obligations.OutputsReachTheirSlots : Prop :=
  ∀ (s : State) (c : Ctx) (core : Nat) (o : BlkOut) (j : Nat),
    c.inst.block ≠ 0 → poisonOf s core = none → (∀ e, bindingElem (nth 0xFFFFFFFF c.inst.outs e) = none) →
    o.outs.length = c.inst.outputs → j < o.outs.length →
    (slotSig (activeSlot (endInst s c core o)).area c.inst j).value = (nth { value := 0, quality := 0 } o.outs j).value ∧
    (slotSig (activeSlot (endInst s c core o)).area c.inst j).quality =
      setBit ((nth { value := 0, quality := 0 } o.outs j).quality % 128) 6 s.rp.running

/-- Integer and FIX32 results of ADD, SUB, ABS and NEG: the exact number, saturated once, with LIMIT where it was (06 R170, Table 6-6). -/
def Obligations.ExactResultsSaturateOnce : Prop :=
  (∀ (typ : Nat) (x : Int),
    let l := typeLimits typ
    (l.1 ≤ x → x ≤ l.2 → intOf typ (satWord typ x).1 = x ∧ (satWord typ x).2 = false) ∧
    (x < l.1 → intOf typ (satWord typ x).1 = l.1 ∧ (satWord typ x).2 = true) ∧
    (l.2 < x → intOf typ (satWord typ x).1 = l.2 ∧ (satWord typ x).2 = true)) ∧
  (∀ c : Ctx, c.typ ≠ 3 →
    let num := fun i => intOf c.typ (c.input i).value
    let out := fun n x => [outWord (quals (c.first_ n)) (satWord c.typ x).1 (satWord c.typ x).2 false]
    (addBlock c).outs = out (c.param 0).toNat (((List.range (c.param 0).toNat).map num).sum) ∧
    (subBlock c).outs = out 2 (num 0 - num 1) ∧
    (absBlock c).outs = out 1 (num 0).natAbs ∧
    (negBlock c).outs = out 1 (-(num 0)))

/-- A DIV or MOD whose divisor is 0, and INT32 DIV of −2^31 by −1 (06 R173). The divisor of FP32 is 0 where it equals 0. -/
def Obligations.ZeroDivisorsGiveTheStatedResults : Prop :=
  ∀ c : Ctx,
    let a := (c.input 0).value
    let b := (c.input 1).value
    let qs := quals (c.first_ 2)
    let x := intOf c.typ a
    (c.typ ≠ 3 → intOf c.typ b = 0 →
      (0 < x → (divBlock c).outs = [outWord qs (word (ofSigned 32 (typeLimits c.typ).2)) true true]) ∧
      (x < 0 → (divBlock c).outs = [outWord qs (word (ofSigned 32 (typeLimits c.typ).1)) true true]) ∧
      (x = 0 → (divBlock c).outs = [outWord qs 0 false true]) ∧
      (modBlock c).outs = [outWord qs 0 false true]) ∧
    (c.typ = 3 → feq b 0 = true →
      (divBlock c).outs = [outFloat qs (fdiv a b) false true] ∧ (modBlock c).outs = [outFloat qs 0 false true]) ∧
    (c.typ = 1 → a = 0x80000000 → b = 0xFFFFFFFF → (divBlock c).outs = [outWord qs 0x7FFFFFFF true false])

/-- SEL, MUX, SR, RS and NOT (06 Table 6-8). -/
def Obligations.SelectionBlocksSelect : Prop :=
  ∀ c : Ctx,
    (c.flag 0 = true → (selBlock c).outs = [outWord [(c.input 0).quality, (c.input 2).quality] (c.input 2).value false false]) ∧
    (c.flag 0 = false → (selBlock c).outs = [outWord [(c.input 0).quality, (c.input 1).quality] (c.input 1).value false false]) ∧
    (∀ k, (c.input 0).value.toNat = k → k < (c.param 0).toNat →
      (muxBlock c).outs = [outWord [(c.input 0).quality, (c.input (1 + k)).quality] (c.input (1 + k)).value false false]) ∧
    (∀ n, (c.param 0).toNat = n + 1 → n + 1 ≤ (c.input 0).value.toNat →
      (muxBlock c).outs = [outWord [(c.input 0).quality, (c.input (1 + n)).quality] (c.input (1 + n)).value true false]) ∧
    (c.flag 0 = true → (srBlock c).outs = [outBool (quals (c.first_ 2)) true]) ∧
    (c.flag 0 = false → c.flag 1 = true → (srBlock c).outs = [outBool (quals (c.first_ 2)) false]) ∧
    (c.flag 1 = true → (rsBlock c).outs = [outBool (quals (c.first_ 2)) false]) ∧
    (c.flag 1 = false → c.flag 0 = true → (rsBlock c).outs = [outBool (quals (c.first_ 2)) true]) ∧
    (c.flag 0 = false → c.flag 1 = false →
      (srBlock c).outs = [outBool (quals (c.first_ 2)) ((c.held 0).getLsbD 0)] ∧
      (rsBlock c).outs = [outBool (quals (c.first_ 2)) ((c.held 0).getLsbD 0)])

/-- The cyclic TON keeps its phase: while it runs and its count does not saturate, whole periods and the remainder add up to the time that has passed, and Q is set when a period is complete; IN = 0 clears it. A TP of PT 0 has no execution with Q set (06 R177). -/
def Obligations.TimersKeepTheirPhase : Prop :=
  (∀ (t : Timer) (pt dt : Nat), t.run = true → 0 < pt → t.elapsed + dt < 2 ^ 64 →
    (tonStep t true true pt dt).2.2 * pt + (tonStep t true true pt dt).1.elapsed = t.elapsed + dt ∧
    (tonStep t true true pt dt).1.elapsed < pt ∧
    (tonStep t true true pt dt).2.1 = decide (0 < (tonStep t true true pt dt).2.2)) ∧
  (∀ (t : Timer) (cyclic : Bool) (pt dt : Nat),
    (tonStep t false cyclic pt dt).2.1 = false ∧ (tonStep t false cyclic pt dt).1.elapsed = 0 ∧
    (tonStep t false cyclic pt dt).1.run = false) ∧
  (∀ (t : Timer) (on : Bool) (dt : Nat), (tpStep t on 0 dt).run = false)

/-! Boundaries and tasks. -/

/-- The boundary that ends a cycle in RUN, with no change of the power state due: NT stands at Tk+1, the count is one up, and the steps of a boundary follow in their order (01 Table 1-7): what is requested takes effect, the inputs are latched, the images of the closed cycle are cut and exchanged, results are published, the new cycle opens. At T0 there is no closed cycle to cut, no idle time has been counted, and the DI pulse counts are those of T0 (05 R147, 11 R319). -/
def Obligations.BoundaryClosesACycleAndOpensTheNext : Prop :=
  (∀ (s : State) (n : NetImage) (t : Nat), s.net.image = some n → s.clk.t0 = some t → inRun s = true → s.ft.hwsafe = false →
    s.clk.begun = true → s.pwr.toState = none →
    let u := exceptionRecord (keepView (advanceTo s (boundaryNt s (s.clk.k + 1))))
    let v := { u with clk := { u.clk with k := u.clk.k + 1, bc := 0 }, ce := { u.ce with exc := u.ce.excNext, excNext := 0 } }
    (advanceTo s (boundaryNt s (s.clk.k + 1))).clk.nt = max s.clk.nt (t + (s.clk.k + 1 - s.clk.base) * n.len) ∧
    Does .boundary s (openCycle (replayTurn (cycleImages (latchInputs (applyRequests v n)) n) n))) ∧
  (∀ (s : State) (n : NetImage) (t : Nat), s.net.image = some n → s.clk.t0 = some t → inRun s = true → s.ft.hwsafe = false →
    s.clk.begun = false → s.pwr.toState = none →
    let u := latchPulses (advanceTo s t)
    let w := { u with
      clk := { u.clk with begun := true, bc := 0 }
      ce := { u.ce with idle := u.ce.idle.map (fun (x : Idle) => { x with running := 0 }) } }
    let v := applyRequests (latchInputs w) n
    (v.im.netLoad = none → Does .boundary s (openCycle (replayTurn v n))) ∧
    (v.im.netLoad.isSome = true → Does .boundary s (openCycle (replayTurn (applyNetwork v) n))))

/-- At Tk + 250 µs a swap that has taken place completes, the exports are published, and the NETWORK task is released, and with it the SLOW task in every cycle k with k mod S = 0; at a FAST release instant the FAST task is released (05 R129, R131, R138). A release of a task with no execution in progress, and no output of a late one to be exchanged, latches its start NT and starts an execution, unless its lists are empty, so a command of a release whose instant is still to come answers a state in which the execution runs; a release while the execution runs is skipped: it counts as an overrun and starts nothing (05 R129, R140, R142). -/
def Obligations.TasksAreReleasedAtTheirInstants : Prop :=
  (∀ (s : State) (p : ProgImage), releases s = true → s.ce.network.nextRel = 0 →
    let t := cycleStart s + 250
    let u := publishDue (swapCompletes (advanceTo s t)) t
    activeProg u = some p → p.present 1 = true →
    let v := releaseTask u p 1 250 (boundaryNt u (u.clk.k + 1))
    (slowDue v p = true → Does .networkRelease s (releaseTask v p 2 250 (boundaryNt v (v.clk.k + p.slowFactor)))) ∧
    (slowDue v p = false → Does .networkRelease s v)) ∧
  (∀ (s : State) (p : ProgImage), slowDue s p = true ↔ (p.present 2 = true ∧ relCycle s % p.slowFactor = 0)) ∧
  (∀ (s : State) (p : ProgImage), activeProg s = some p → releases s = true → s.ce.fast.nextRel < fastReleases s p →
    let off := 250 + s.ce.fast.nextRel * p.fastPeriod
    let t := cycleStart s + off
    let u := advanceTo s t
    let v := if s.ce.fast.nextRel = 0 then publishDue u t else publishTask u 0
    Does .fastRelease s (releaseTask v p 0 off (Nat.min (t + p.fastPeriod) (boundaryNt v (v.clk.k + 1))))) ∧
  (∀ (s : State) (p : ProgImage) (c : Nat), releases s = true → s.ce.network.nextRel = 0 → activeProg s = some p → p.present 1 = true →
    s.ce.network.exec = none → s.ce.network.late = false → c ∈ p.cores 1 → p.coreList 1 c ≠ [] →
    ∃ (t : State) (e : Exec), exec .networkRelease s = .next t ∧ t.ce.network.exec = some e ∧ e.start = relStart s + 250 ∧
      e.cycle = relCycle s ∧ e.deadline = boundaryNt s (s.clk.k + 1) ∧ e.pos = [0, 0, 0, 0] ∧ t.ce.network.nextRel = 1 ∧
      t.ce.network.prevStart = some (relStart s + 250) ∧ t.ce.pubNt = some (cycleStart s + 250)) ∧
  (∀ (s : State) (p : ProgImage) (c : Nat), releases s = true → s.ce.network.nextRel = 0 → activeProg s = some p → slowDue s p = true →
    s.ce.network.exec = none → s.ce.network.late = false → s.ce.slow.exec = none → c ∈ p.cores 2 → p.coreList 2 c ≠ [] →
    ∃ (t : State) (e : Exec), exec .networkRelease s = .next t ∧ t.ce.slow.exec = some e ∧ e.start = relStart s + 250 ∧
      e.deadline = boundaryNt s (s.clk.k + p.slowFactor)) ∧
  (∀ (s : State) (p : ProgImage) (c : Nat), activeProg s = some p → releases s = true → s.ce.fast.nextRel < fastReleases s p →
    s.ce.fast.exec = none → c ∈ p.cores 0 → p.coreList 0 c ≠ [] →
    let off := 250 + s.ce.fast.nextRel * p.fastPeriod
    ∃ (t : State) (e : Exec), exec .fastRelease s = .next t ∧ t.ce.fast.exec = some e ∧ e.start = relStart s + off ∧
      e.cycle = relCycle s ∧ e.deadline = Nat.min (cycleStart s + off + p.fastPeriod) (boundaryNt s (s.clk.k + 1)) ∧
      (s.rp.cycle = none → e.di = s.vn.diFilt) ∧
      t.ce.fast.nextRel = s.ce.fast.nextRel + 1 ∧ t.ce.fast.prevStart = some (relStart s + off)) ∧
  (∀ (s : State) (p : ProgImage) (offset deadline c : Nat), activeProg s = some p → s.ce.network.exec = none → s.ce.network.late = false →
    c ∈ p.cores 1 → p.coreList 1 c ≠ [] →
    ∃ e : Exec, (releaseTask s p 1 offset deadline).ce.network.exec = some e ∧ e.start = relStart s + offset ∧ e.deadline = deadline ∧
      e.cycle = relCycle s ∧ e.pos = [0, 0, 0, 0] ∧ e.skipped = 0 ∧
      e.dt = (match s.ce.network.prevStart with | some x => relStart s + offset - x | none => 0) ∧
      (releaseTask s p 1 offset deadline).ce.network.prevStart = some (relStart s + offset)) ∧
  (∀ (s : State) (p : ProgImage) (e : Exec) (offset deadline : Nat), s.ce.network.exec = some e → s.ce.network.stat.recent < 2 →
    (releaseTask s p 1 offset deadline).ce.network.exec = some { e with skipped := e.skipped + 1, missed := true } ∧
    (releaseTask s p 1 offset deadline).ce.network.stat.overruns = (s.ce.network.stat.overruns + 1) % 2 ^ 32 ∧
    (releaseTask s p 1 offset deadline).ce.network.prevStart = s.ce.network.prevStart)

/-- An execution past its deadline is marked, and NETWORK and SLOW outputs become late; at 8 skipped releases it is stopped with a SAFE fault; a barrier lets every core of the task go on once all stand at it (05 R134, R142, R145). -/
def Obligations.DeadlineStopAndBarrier : Prop :=
  (∀ (s : State) (task : TaskClass) (e : Exec), (taskRun s (taskNo task)).exec = some e → e.missed = false → cycling s = true →
    Does (.taskDeadline task) s
      (onTask (advanceTo s e.deadline) (taskNo task) (fun r => { r with late := task != .fast, exec := some { e with missed := true } }))) ∧
  (∀ (s : State) (task : TaskClass) (e : Exec), (taskRun s (taskNo task)).exec = some e → 8 ≤ e.skipped → cycling s = true →
    let u := onTask s (taskNo task) (fun r => { r with exec := none, prevOk := false, stopped := true, late := r.late && taskNo task != 1 })
    Does (.taskStop task) s (raiseFault u 0x0121 4 1 [word (taskNo task), word (taskRun u (taskNo task)).stat.recent])) ∧
  (∀ (s : State) (task : TaskClass) (p : ProgImage) (e : Exec) (b : Nat), activeProg s = some p → (taskRun s (taskNo task)).exec = some e →
    cycling s = true → p.cores (taskNo task) ≠ [] →
    (∀ c ∈ p.cores (taskNo task), (p.coreList (taskNo task) c)[nth 0 e.pos c]? = some (.barrier b)) →
    let pos := (p.cores (taskNo task)).foldl (fun pos c => setNth pos c (nth 0 pos c + 1)) e.pos
    Does (.barrierRelease task) s (settleTask (onTask s (taskNo task) (fun r => { r with exec := some { e with pos := pos } })) (taskNo task)))

/-- A swap starts once its conditions hold: the standby slot becomes active, the carried data is in its area, the change is marked ONLINE_CHANGE for the next cycle, and the time of the copy passes. A swap whose conditions do not hold waits (05 R156 to R158, Table 5-14). The conditions are those of R158: the swap has been pending at a boundary, the publications at Tk + 250 µs and every FAST release of the cycle are past, no execution is in progress, and 200 µs are left before the boundary. -/
def Obligations.SwapChangesTheActiveProgram : Prop :=
  (∀ (s : State) (x : Swap) (n : NetImage) (p q : ProgImage), s.ce.swap = some x → s.net.image = some n → activeProg s = some p →
    (progSlot s (1 - s.ce.active)).img = some q → swapReady s p x = true → s.ce.active ≤ 1 →
    ∃ t, exec .swapStart s = .next t ∧ t.ce.active = 1 - s.ce.active ∧ activeProg t = some q ∧
      (activeSlot t).area = (carryArea n (activeSlot s) p q).1 ∧ t.ce.swap = some { x with started := true }) ∧
  (∀ (s : State) (x : Swap) (n : NetImage) (p q : ProgImage), s.ce.swap = some x → s.net.image = some n → activeProg s = some p →
    (progSlot s (1 - s.ce.active)).img = some q → swapReady s p x = false → Does .swapStart s s) ∧
  (∀ (s : State) (x : Swap) (n : NetImage) (p q : ProgImage), s.ce.swap = some x → s.net.image = some n → activeProg s = some p →
    (progSlot s (1 - s.ce.active)).img = some q → s.ce.active ≤ 1 → x.started = false → x.firstCycle ≤ s.clk.k → releases s = true →
    s.ce.pubNt = some (cycleStart s + 250) → s.ce.network.exec = none → s.ce.fast.exec = none → s.ce.slow.exec = none →
    fastReleases s p ≤ s.ce.fast.nextRel → s.clk.nt + 200 ≤ boundaryNt s (s.clk.k + 1) →
    ∃ t, exec .swapStart s = .next t ∧ t.ce.active = 1 - s.ce.active ∧ activeProg t = some q ∧
      (activeSlot t).area = (carryArea n (activeSlot s) p q).1 ∧ t.ce.swap = some { x with started := true } ∧
      t.ce.excNext.testBit 4 = true ∧ t.ce.fast.nextRel = fastReleases s q ∧ t.ce.network.exec = none ∧
      t.clk.nt = s.clk.nt + (4 * (2500 + ((carryArea n (activeSlot s) p q).2 + 31) / 32) + 999) / 1000)

/-! The solver engine. -/

/-- A free context of a tile receives the ready task of lowest list index of the slot that is served first: tasks are admitted, then the task and its sources stand in the context (07 R204, R205, R209). A task that has computed for its compiled cycles, its target staged, is held in its context; one that is computed retires once its ACC_PREV has; the staging engine copies the next block, of at most 240 KiB, into a free slot of the 256, and a written target back once its chain has retired; a slot that holds nothing to copy back and that no task left needs is free; a solve that has not ended by its backstop instant ends with TIMEOUT (07 R204, R207, 08 R248). -/
def Obligations.TheSolverEngineWorksOnItsTasks : Prop :=
  (∀ (s : State) (tile n ctx : Nat) (p : SolveImage) (x : Solve) (i : Nat), solverRuns s = true →
    ((indexed (nth [] (admitTasks s).sv.tiles tile)).find? (fun q => q.2.isNone)) = some (ctx, none) →
    ((servedOrder (admitTasks s)).find? (fun n => (readyTask (admitTasks s) n).isSome)) = some n →
    readyTask (admitTasks s) n = some (p, x, i) →
    Does (.taskDispatch tile) s (dispatchTask (admitTasks s) tile ctx n p x i) ∧
    (∃ j, i = (currentSection p x).first + j ∧ j < x.admitted ∧
      ∀ k, k < j → taskReady (admitTasks s) n p x ((currentSection p x).first + k) = false)) ∧
  (∀ (s : State) (tile ctx : Nat) (c : TileCtx) (p : SolveImage) (x : Solve), ctxAt s tile ctx = some c → c.done = false →
    solverRuns s = true → runningSolve s c.slot = some (p, x) → inStage s c.slot p (p.taskAt c.task).target = true →
    Does (.taskComputeDone tile ctx) s
      (setCtx (advanceTo s (c.since + (if c.fp then (p.taskAt c.task).cycFp else (p.taskAt c.task).cycFx) / 1000)) tile ctx (some { c with done := true }))) ∧
  (∀ (s : State) (tile ctx : Nat) (c : TileCtx) (p : SolveImage) (x : Solve), ctxAt s tile ctx = some c → c.done = true →
    solverRuns s = true → runningSolve s c.slot = some (p, x) → (∀ a, (p.taskAt c.task).accPrev = some a → hasRetired p x a = true) →
    Does (.taskRetire tile ctx) s (retire (setCtx s tile ctx none) c.slot p x c)) ∧
  (∀ (s : State) (slot block : Nat) (p : SolveImage) (x : Solve), runningSolve s slot = some (p, x) → solverRuns s = true →
    (p.blockAt block).bulk = true →
    (s.sv.staged.length < 256 → stageNext s slot p x block = true → 4 * (p.blockAt block).elements ≤ 245760 →
      Does (.stagingCopy slot block false) s { s with sv := { s.sv with
        staged := s.sv.staged ++ [{ slot := slot, block := block, dirty := false }], moved := s.sv.moved + 4 * (p.blockAt block).elements } }) ∧
    (∀ q, stageOf s slot block = some q → q.dirty = true → chainRetired p x block = true →
      Does (.stagingCopy slot block true) s (freeStages { s with sv := { s.sv with
        staged := s.sv.staged.map (fun y => if y = q then { y with dirty := false } else y)
        moved := s.sv.moved + 4 * (p.blockAt block).elements } } slot p x))) ∧
  (∀ (s : State) (slot : Nat) (p : SolveImage) (x : Solve) (q : StageSlot), q ∈ s.sv.staged → q.slot = slot →
    (q ∈ (freeStages s slot p x).sv.staged ↔ q.dirty = true ∨ stageDone p x q.block = false)) ∧
  (∀ (s : State) (slot : Nat) (p : SolveImage) (x : Solve), runningSolve s slot = some (p, x) → x.role ≠ 8 → solverRuns s = true →
    Does (.solveBackstop slot) s (endOutside (advanceTo s x.backstop) slot p x 0x11))

/-! The station lines. -/

/-- At the start of a basic cycle every line begins it; the reference frame goes out at the nominal start or at a bus idle within GUARD, with LN_ALIGN the difference in CLK_C cycles; past GUARD it is dropped and counted (04 R109, R115, R116). At the start of a TX_EXCL window of its basic cycle the frame of an ONLINE station is built from the output image, with the window's ALIVE advanced where it carries E2E, and goes out GUARD after the window's start, or at the next bus idle after it that still fits, once no frame and no injection of the module is ahead of it; one that can no longer start in time becomes a pending retry; a window whose key is unusable drops its frame (04 R113, R119, 16 R420, 17 R441). -/
def Obligations.TheScheduleSendsItsFrames : Prop :=
  (∀ s : State, cycling s = true → s.ft.hwsafe = false → s.clk.bc + 1 < basics s →
    let u := { s with clk := { s.clk with bc := s.clk.bc + 1 } }
    Does .basicCycleStart s (startBasic (advanceTo u (basicStart u)) (basicStart u))) ∧
  (∀ (s : State) (line at_ t : Nat) (r : LineRec), (lineOf s line).refDue = some t → lineRec s line = some r → cycling s = true →
    mayStart s (lineOf s line) = true → t ≤ at_ → at_ ≤ t + r.guard →
    Does (.referenceFrame line at_) s (setLine (advanceTo s at_) line { lineOf s line with
      refDue := none, onBus := some ((lineOf s line).referenceFrame r at_ (refPayload s line)), align := 80 * (at_ - t : Nat) })) ∧
  (∀ (l : Line) (r : LineRec) (start : Nat) (data : Bytes),
    l.referenceFrame r start data = {
      role := .reference, data := data, start := start, ident := r.refId, ide := false, fdf := true
      brs := bit r.fmt 1, dlc := 10, esi := l.state == 2, safe := false }) ∧
  (∀ (s : State) (line t : Nat) (r : LineRec), (lineOf s line).refDue = some t → lineRec s line = some r → cycling s = true →
    s.ft.hwsafe = false →
    Does (.referenceFrameTimeout line) s (setLine (advanceTo s (t + r.guard)) line { lineOf s line with
      refDue := none, drop := ((lineOf s line).drop + 1) % 2 ^ 32 })) ∧
  (∀ (s : State) (line window idle : Nat) (n : NetImage) (r : LineRec) (w : Window), s.net.image = some n → lineRec s line = some r →
    windowAt s line window = some w → cycling s = true → s.ft.hwsafe = false → w.kind = 1 → w.bc = s.clk.bc →
    let u := advanceTo s (basicStart s + w.start)
    let l := lineOf u line
    outstop u = false → l.on = true → l.joined = true → stationServed u n line w.address = true →
    (keyUnusable u r w = true → Does (.txWindowStart line { entry := window, idle := idle }) s (setLine u line { l with drop := (l.drop + 1) % 2 ^ 32 })) ∧
    (keyUnusable u r w = false →
      let alive := match lookup l.alive window with | some a => (a + 1) % 16 | none => 0
      let bad := poisonedOutput u
      let data := txPayload bad n line window r w alive
      let m := if w.e2e then { l with alive := insertAt l.alive window alive } else l
      let v := { dmaRead (markSent u n (txPoints n line window)) with free := bad.free }
      Does (.txWindowStart line { entry := window, idle := idle }) s
        (setLine v line (startWaiting v line idle { lapseWaiting v line r v.clk.nt m with txWait := some { window := window, data := data } })))) ∧
  (∀ (s : State) (line idle : Nat) (r : LineRec) (l : Line) (t : Retry) (w : Window), lineRec s line = some r → l.txWait = some t →
    windowAt s line t.window = some w →
    let ws := basicStart s + w.start
    let at_ := Nat.max idle (ws + r.guard)
    (l.onBus.isSome = true → startWaiting s line idle l = l) ∧
    (l.onBus = none → fits r w ws at_ (r.windowDur w) = false → startWaiting s line idle l = { l.pend t.window t.data with txWait := none }) ∧
    (l.onBus = none → fits r w ws at_ (r.windowDur w) = true → l.inj ≠ [] → startWaiting s line idle l = l) ∧
    (l.onBus = none → fits r w ws at_ (r.windowDur w) = true → l.inj = [] → inRun s = true → s.ft.hwsafe = false →
      startWaiting s line idle l = { l with txWait := none, onBus := some (l.windowFrame (.window t.window) at_ w t.data) }))

/-- A frame of the module that ends is judged by its role: an acknowledged one counts in LN_TXOK and lowers TEC; a frame that waits goes out; the line state follows the counters (04 R124, 03 R99). -/
def Obligations.ASentFrameIsJudged : Prop :=
  ∀ (s : State) (line at_ : Nat) (result : TxResult) (r : LineRec) (f : OnBus), (lineOf s line).onBus = some f → lineRec s line = some r →
    s.clk.running = true →
    let acked := result == .acked
    let u := advanceTo s at_
    let l0 := { lineOf s line with onBus := none }
    let l1 := if acked then { l0 with txok := (l0.txok + 1) % 2 ^ 32 } else l0
    let l2 := if acked && !s.ft.hwsafe then l1.tecDown else l1
    let v := measureDelay (setLine u line (startWaiting u line at_ (frameJudged u line f acked l2))) line r f
    Does (.txFrameDone line at_ result) s (if v.ft.hwsafe then v else confine v line)

/-- The oldest frame that failed is sent once more, in the first FREE or ARB window left that it fits in, at a bus idle from GUARD after that window's start; it is dropped and counted where no window is left for it or its station is no longer served. A queued injection goes out at a bus idle ahead of the module's other frames: a window frame that has not started waits again; in the hardware safe state the line's SAFE_INJ entry goes out alone (04 R125, R126, 09 R267, R278). -/
def Obligations.RetriesAndInjectionsAreSent : Prop :=
  (∀ (s : State) (line window when_ : Nat) (n : NetImage) (r : LineRec) (tw : Window) (t : Retry) (rest : List Retry),
    s.net.image = some n → lineRec s line = some r → cycling s = true → s.ft.hwsafe = false →
    let at_ := Nat.max when_ s.clk.nt
    let l := lapseWaiting s line r at_ (lineOf s line)
    l.retries = t :: rest → windowAt s line t.window = some tw →
    (stationServed s n line tw.address = false →
      Does (.retrySend line window when_) s (setLine (advanceTo s at_) line { l with retries := rest, drop := (l.drop + 1) % 2 ^ 32 })) ∧
    (stationServed s n line tw.address = true → retryWindow s line r t.window at_ (r.windowDur tw) = none →
      Does (.retrySend line window when_) s (setLine (advanceTo s at_) line { l with retries := rest, drop := (l.drop + 1) % 2 ^ 32 })) ∧
    (∀ w, stationServed s n line tw.address = true → retryWindow s line r t.window at_ (r.windowDur tw) = some (window, w) →
      basicStart s + w.start + r.guard ≤ at_ → mayStart s l = true →
      Does (.retrySend line window when_) s (setLine (advanceTo s at_) line { l with
        retries := rest, onBus := some (l.windowFrame (.retry t.window) at_ tw t.data) }))) ∧
  (∀ (s : State) (line window at_ : Nat) (n : NetImage) (r : LineRec) (w tw : Window) (t : Retry) (rest : List Retry),
    s.net.image = some n → lineRec s line = some r → cycling s = true → s.ft.hwsafe = false → s.clk.nt ≤ at_ →
    (lineOf s line).txWait = none → (lineOf s line).retries = t :: rest → windowAt s line t.window = some tw →
    stationServed s n line tw.address = true → retryWindow s line r t.window at_ (r.windowDur tw) = some (window, w) →
    basicStart s + w.start + r.guard ≤ at_ → mayStart s (lineOf s line) = true →
    ∃ u, exec (.retrySend line window at_) s = .next u ∧ u.clk.nt = at_ ∧ lineOf u line = { lineOf s line with
      retries := rest, onBus := some ((lineOf s line).windowFrame (.retry t.window) at_ tw t.data) }) ∧
  (∀ (s : State) (line : Nat) (r : LineRec) (w at_ dur i : Nat) (x : Window), retryWindow s line r w at_ dur = some (i, x) →
    w < i ∧ windowAt s line i = some x ∧ x.bc = s.clk.bc ∧ (x.kind = 0 ∨ x.kind = 3) ∧
    fits r x (basicStart s + x.start) (Nat.max at_ (basicStart s + x.start + r.guard)) dur = true) ∧
  (∀ (s : State) (line at_ : Nat) (n : NetImage) (i : InjWait) (t : List InjWait) (e : InjEntry), s.net.image = some n →
    (lineOf s line).inj = i :: t → n.injs[i.entry]? = some e → s.clk.running = true → s.pwr.pstate ≠ 6 → (lineOf s line).on = true →
    (lineOf s line).onBus = none → (s.ft.hwsafe = false → (lineOf s line).joined = true) →
    (s.ft.hwsafe = true → (lineOf s line).safeSent = false ∧ (lineOf s line).thermNow = false ∧ (lineOf s line).gsupNow = false ∧ (lineOf s line).domNow = false) →
    Does (.injectionSend line at_) s (setLine (advanceTo s at_) line { lineOf s line with
      onBus := some ((lineOf s line).injectionFrame i.entry at_ e s.ft.hwsafe) })) ∧
  (∀ (s : State) (line at_ w : Nat) (n : NetImage) (i : InjWait) (t : List InjWait) (e : InjEntry) (f : OnBus), s.net.image = some n →
    (lineOf s line).inj = i :: t → n.injs[i.entry]? = some e → s.clk.running = true → s.pwr.pstate ≠ 6 → (lineOf s line).on = true →
    (lineOf s line).joined = true → s.ft.hwsafe = false → (lineOf s line).onBus = some f → f.role = .window w → s.clk.nt < f.start → at_ ≤ f.start →
    Does (.injectionSend line at_) s (setLine (advanceTo s at_) line { lineOf s line with
      txWait := some { window := w, data := f.data }, onBus := some ((lineOf s line).injectionFrame i.entry at_ e false) })) ∧
  (∀ (l : Line) (entry start : Nat) (e : InjEntry) (safe : Bool),
    l.injectionFrame entry start e safe = {
      role := .injection entry, data := e.payload.take (dlcLen e.fdf e.dlc), start := start, ident := e.ident, ide := e.ide
      fdf := e.fdf, brs := e.fdf && e.brs, dlc := e.dlc, esi := e.fdf && l.state == 2, safe := safe })

/-- A frame on a line that receives is counted in LN_RXOK with its NT; one that no window or acceptance entry takes is discarded and counted; one that is taken replaces its buffer with its judgement, and is offered to the vent path, as is every frame that is discarded (03 R93, R94, R103, 16 R421). At the end of an RX_EXCL window its station is judged: heard with a good judgement or not (04 R127). -/
def Obligations.ReceivedFramesAreDeliveredAndJudged : Prop :=
  (∀ (s : State) (line at_ : Nat) (frame : Frame) (n : NetImage) (r : LineRec), s.net.image = some n → lineRec s line = some r →
    s.clk.running = true → (lineOf s line).state = 1 ∨ (lineOf s line).state = 2 ∨ (lineOf s line).state = 4 → (lineOf s line).gsupNow = false →
    let u := advanceTo s at_
    let data := slice frame.data 0 (dlcLen frame.fdf frame.dlc)
    let win := windowOver u line at_
    let l := { lineOf u line with rxok := ((lineOf u line).rxok + 1) % 2 ^ 32, lastnt := at_ % 2 ^ 32 }
    let settled := fun v : State =>
      let x := if v.ft.hwsafe then v else recDown v line
      if x.ft.hwsafe then x else confine x line
    (delivery u n line frame win = none →
      let v := setLine u line { l with disc := (l.disc + 1) % 2 ^ 32 }
      Does (.frameReceived line at_ frame) s
        (settled (offerEvent v (if frame.remote then .remote line at_ else .frame line frame.ident frame.ide frame.fdf 0 data at_)))) ∧
    (∀ buf judged, delivery u n line frame win = some (buf, judged) →
      let j := match judged with | some (i, w) => judge u line i r w data (lookup l.e2eRef i) | none => (0, none)
      let b : Buf := { ident := frame.ident, ide := frame.ide, fdf := frame.fdf, brs := frame.brs, dlc := frame.dlc, esi := frame.esi, valid := true
                       repl := ((lookup l.cur buf).getD Buf.empty).valid, e2e := j.1, window := (match win with | some (i, _) => i | none => 0)
                       fvnt := at_, data := data }
      let m := { l with cur := insertAt l.cur buf b }
      let m := match judged, j.2 with | some (i, _), some a => { m with e2eRef := insertAt m.e2eRef i a } | _, _ => m
      let m := match judged with | some (i, _) => { m with delivered := insertAt m.delivered i j.1 } | none => m
      Does (.frameReceived line at_ frame) s
        (settled (offerEvent (watchWrite (setLine u line m) line buf) (.frame line frame.ident frame.ide frame.fdf j.1 data at_))))) ∧
  (∀ (s : State) (line window : Nat) (n : NetImage) (r : LineRec) (w : Window), s.net.image = some n → lineRec s line = some r →
    windowAt s line window = some w → cycling s = true → s.ft.hwsafe = false → w.kind = 2 → w.bc = s.clk.bc →
    let u := advanceTo s (basicStart s + w.start + w.length)
    let l := lineOf u line
    let heard := (lookup l.delivered window).map (fun e => decide (e ≤ 1))
    let v := setLine u line { l with delivered := eraseAt l.delivered window, lastGood := insertAt l.lastGood w.address (heard == some true) }
    (n.stationAt line w.address = none → Does (.rxWindowEnd line window) s v) ∧
    (∀ k, n.stationAt line w.address = some k →
      let x := judgeStation r.absentN (unitRun v k) heard
      let y := { v with un := { v.un with run := setD UnitRun.reset v.un.run k x } }
      Does (.rxWindowEnd line window) s (if x.station = 2 ∧ (unitRun v k).station ≠ 2 then clearRefs y n line w.address else y))) ∧
  (∀ (s : State) (line at_ i : Nat) (frame : Frame) (n : NetImage) (r : LineRec) (w : Window), s.net.image = some n → lineRec s line = some r →
    s.clk.running = true → (lineOf s line).state = 1 ∨ (lineOf s line).state = 2 ∨ (lineOf s line).state = 4 → (lineOf s line).gsupNow = false →
    frame.remote = false → windowOver s line at_ = some (i, w) → w.kind = 2 → w.ident = frame.ident → w.ide = frame.ide → w.fdf = frame.fdf →
    ∃ (t : State) (b : Buf), exec (.frameReceived line at_ frame) s = .next t ∧ lookup (lineOf t line).cur w.buf = some b ∧ b.valid = true ∧
      b.ident = frame.ident ∧ b.dlc = frame.dlc ∧ b.data = slice frame.data 0 (dlcLen frame.fdf frame.dlc) ∧ b.window = i ∧ b.fvnt = at_ ∧
      lookup (lineOf t line).delivered i = some b.e2e ∧ (lineOf t line).rxok = ((lineOf s line).rxok + 1) % 2 ^ 32 ∧
      (lineOf t line).lastnt = at_ % 2 ^ 32) ∧
  (∀ (s : State) (line at_ : Nat) (frame : Frame) (n : NetImage) (r : LineRec), s.net.image = some n → lineRec s line = some r →
    s.clk.running = true → (lineOf s line).state = 1 ∨ (lineOf s line).state = 2 ∨ (lineOf s line).state = 4 → (lineOf s line).gsupNow = false →
    frame.remote = true ∨ windowOver s line at_ = none →
    ∃ t, exec (.frameReceived line at_ frame) s = .next t ∧ (lineOf t line).disc = ((lineOf s line).disc + 1) % 2 ^ 32 ∧
      (lineOf t line).cur = (lineOf s line).cur ∧ (lineOf t line).rxok = ((lineOf s line).rxok + 1) % 2 ^ 32) ∧
  (∀ (s : State) (line window k : Nat) (n : NetImage) (r : LineRec) (w : Window), s.net.image = some n → lineRec s line = some r →
    windowAt s line window = some w → cycling s = true → s.ft.hwsafe = false → w.kind = 2 → w.bc = s.clk.bc → n.stationAt line w.address = some k →
    let heard := (lookup (lineOf s line).delivered window).map (fun e => decide (e ≤ 1))
    ∃ t, exec (.rxWindowEnd line window) s = .next t ∧ unitRun t k = judgeStation r.absentN (unitRun s k) heard ∧
      lookup (lineOf t line).delivered window = none ∧ lookup (lineOf t line).lastGood w.address = some (heard == some true) ∧
      t.clk.nt = Nat.max s.clk.nt (basicStart s + w.start + w.length))

/-- Error confinement: an error on the bus is noted with its kind and phase, counted, and moves TEC by 8 or REC by 1, each to at most 256: REC by 9 where the receiver saw the error first and by 8 for a bit error in its flag, TEC by 0 where the frame was not acknowledged in error passive state and for a stuff error in arbitration, either by 8 for a run of dominant bits after a flag, which is no error of its own; in FENCED an error is noted and counted and moves neither; the line state follows (03 R99; the increments are those of ISO 11898-1, notes/assumptions/32). An integrating line that has seen 11 recessive bits is ERROR_ACTIVE; a line that has recovered from bus-off is ERROR_ACTIVE with its counters at 0 and says so by a NOTE fault; a transceiver fault fences the lines it affects; its end clears the live bit; BUSDOM is latched without a fence; a fence whose hold runs out ends at the next boundary; bus-offs leave the recovery window (03 R99, R100, R105, R107). -/
def Obligations.LinesFollowTheirErrorsAndEvents : Prop :=
  (∀ (s : State) (line kind : Nat) (phase : Bool) (how : ErrorStep), s.clk.running = true → 1 ≤ kind → kind ≤ 6 → (lineOf s line).on = true →
    (lineRec s line).isSome = true → s.ft.hwsafe = false →
    let l := lineOf s line
    let tx := if (how = .silent ∧ kind = 4 ∧ l.state = 2) ∨ (how = .arbStuff ∧ kind = 2) then 0 else 8
    let rx := if how = .primary then 9 else if how = .flagBit then 8 else 1
    (how ≠ .dominantRun →
      Does (.lineError line kind phase true how) s
        (confine (setLine s line { l with lerr := kind, lphase := phase, txerr := (l.txerr + 1) % 2 ^ 32, tec := Nat.min 256 (l.tec + tx) }) line) ∧
      Does (.lineError line kind phase false how) s
        (confine (setLine s line { l with lerr := kind, lphase := phase, rxerr := (l.rxerr + 1) % 2 ^ 32, rcv := Nat.min 256 (l.rcv + rx) }) line)) ∧
    Does (.lineError line kind phase true .dominantRun) s (confine (setLine s line { l with tec := Nat.min 256 (l.tec + 8) }) line) ∧
    Does (.lineError line kind phase false .dominantRun) s (confine (setLine s line { l with rcv := Nat.min 256 (l.rcv + 8) }) line)) ∧
  (∀ (s : State) (line kind : Nat) (phase : Bool) (how : ErrorStep), s.clk.running = true → 1 ≤ kind → kind ≤ 6 → (lineOf s line).state = 4 →
    (lineRec s line).isSome = true → how ≠ .dominantRun →
    Does (.lineError line kind phase false how) s
      (setLine s line { lineOf s line with lerr := kind, lphase := phase, rxerr := ((lineOf s line).rxerr + 1) % 2 ^ 32 })) ∧
  (∀ (s : State) (line : Nat), s.clk.running = true → (lineOf s line).state = 0 → s.ft.hwsafe = false → (lineRec s line).isSome = true →
    Does (.lineIntegrated line) s (setLine s line { lineOf s line with state := 1, joined := false })) ∧
  (∀ (s : State) (line : Nat), s.clk.running = true → (lineOf s line).state = 3 → s.ft.hwsafe = false →
    Does (.busOffRecovery line) s
      (raiseFault (setLine s line { lineOf s line with state := 1, tec := 0, rcv := 0, joined := false }) 0x0130 1 3
        [word (line + 3 * 256 + 1 * 4096 + (lineOf s line).fcause * 65536)])) ∧
  (∀ (s : State) (line : Nat) (fault : XcvrFault), s.clk.running = true → line < 64 → fault ≠ .groupSupply → (lineOf s line).state ≠ 5 → s.ft.hwsafe = false →
    Does (.xcvrFault line fault) s (fence (setLine s line ((lineOf s line).xcvrSet fault)) line (if fault = .dominant then 2 else 3))) ∧
  (∀ (s : State) (line : Nat), s.clk.running = true →
    Does (.xcvrFault line .groupSupply) s ((faultLines line .groupSupply).foldl (fun s i =>
      if (lineOf s i).state = 5 ∨ s.ft.hwsafe = true then setLine s i ((lineOf s i).xcvrSet .groupSupply)
      else fence (setLine s i ((lineOf s i).xcvrSet .groupSupply)) i 4) s)) ∧
  (∀ (s : State) (line : Nat), line < 64 →
    Does (.xcvrFaultCleared line .dominant) s (onLine s line (fun l => { l with domNow := false })) ∧
    Does (.xcvrFaultCleared line .thermal) s (onLine s line (fun l => { l with thermNow := false })) ∧
    Does (.xcvrFaultCleared line .groupSupply) s ((faultLines line .groupSupply).foldl (fun s i => onLine s i (fun l => { l with gsupNow := false })) s)) ∧
  (∀ (s : State) (line : Nat), s.clk.running = true → line < 64 → (lineOf s line).state ≠ 5 → (lineOf s line).gsupNow = false →
    Does (.busdom line) s (setLine s line { lineOf s line with busdom := true })) ∧
  (∀ (s : State) (line t : Nat) (r : LineRec), lineRec s line = some r → s.clk.t0 = some t → inRun s = true → s.ft.hwsafe = false →
    (lineOf s line).state = 4 → (lineOf s line).fhold ≤ 1 → r.fenceHold ≠ 0 → (lineOf s line).domNow = false →
    (lineOf s line).thermNow = false → (lineOf s line).gsupNow = false →
    Does (.fenceHoldExpiry line) s (integrate (advanceTo s (if s.clk.begun then boundaryNt s (s.clk.k + 1) else t)) line)) ∧
  (∀ (s : State) (line : Nat) (r : LineRec), lineRec s line = some r →
    Does (.recoveryWindowExpiry line) s (onLine s line (fun l => { l with boffs := l.boffs.filter (fun c => decide (c < r.recovery)) })))

/-! The vent path, local I/O and faults. -/

/-- The event at the head of the pipeline is taken, counted and evaluated against every rule in ascending order; a DI takes its level, its filtered level follows at once with FILTER 0 or once the level has been stable for FILTER µs, and each change enters the pipeline as one event (09 R263, R269). A release clears ACTIVE of a latched rule and of no other; ALL releases every latched rule; a read of VNT_FIRST answers the first active rule with its flag and clears the register (09 R262, R273, Table 9-5). -/
def Obligations.TheVentPathTakesEventsAndReleases : Prop :=
  (∀ (s : State) (e : VentEv) (q : List VentEv) (n : NetImage), s.vn.queue = e :: q → s.net.image = some n →
    Does .ventEvent s (evalRules { s with vn := { s.vn with queue := q, events := (s.vn.events + 1) % 2 ^ 32 } } e 0 n.rules)) ∧
  (∀ (s : State) (input : Nat) (level : Bool) (at_ : Nat), s.clk.running = true → input < 16 → s.vn.diRaw.testBit input = !level →
    let u := advanceTo s at_
    let v := { u with vn := { u.vn with diRaw := setBit u.vn.diRaw input level, diSince := setNth u.vn.diSince input u.clk.nt } }
    (diFilter u input = 0 → Does (.diChange input level at_) s (offerChange u (setFiltered v input level))) ∧
    (diFilter u input ≠ 0 → Does (.diChange input level at_) s (offerChange u v))) ∧
  (∀ (s : State) (input : Nat), s.clk.running = true → input < 16 → s.vn.diFilt.testBit input = !s.vn.diRaw.testBit input →
    let u := advanceTo s (nth 0 s.vn.diSince input + diFilter s input)
    Does (.diFilterExpiry input) s (offerChange u (setFiltered u input (s.vn.diRaw.testBit input)))) ∧
  (∀ (s : State) (n : Nat) (v : Bool), s.vn.diFilt.testBit n = !v →
    (setFiltered s n v).vn.diFilt.testBit n = v ∧
    (setFiltered s n v).vn.pcnt = if v then modifyNth s.vn.pcnt n (fun c => (c + 1) % 2 ^ 32) else s.vn.pcnt) ∧
  (∀ (s : State) (value : Word), s.clk.running = true → value.getLsbD 31 = false → Does (.vntRelease value) s (releaseRule s (value.toNat % 1024))) ∧
  (∀ (s : State) (value : Word), s.clk.running = true → value.getLsbD 31 = true → Does (.vntRelease value) s (releaseAll s)) ∧
  (∀ s : State, s.clk.running = true → Does .vntReleaseAll s (releaseAll s)) ∧
  (∀ (s : State) (n : NetImage), s.net.image = some n → n.rules.length ≤ 1024 → ∀ i,
    (releaseAll s).vn.active.testBit i =
      (s.vn.active.testBit i && !(match n.rules[i]? with | some r => r.latch | none => false))) ∧
  (∀ (s : State) (i : Nat) (n : NetImage) (r : VentRule), s.net.image = some n → n.rules[i]? = some r → ∀ j,
    (releaseRule s i).vn.active.testBit j = (s.vn.active.testBit j && !(r.latch && i == j))) ∧
  (∀ (s : State) (i : Nat), s.clk.running = true → s.vn.first = some i →
    Does .vntFirstRead s { s with vn := { s.vn with first := none }, link := { s.link with rdata := [word (i + 2 ^ 31)], refused := false } }) ∧
  (∀ s : State, s.clk.running = true → s.vn.first = none →
    Does .vntFirstRead s { s with link := { s.link with rdata := [0], refused := false } })

/-- A raised fault has the class that its code has, where the tables state one. It is counted; it starts its handling, pre-empts one of a lower class, or enters the queue of 16; past that it is lost, counted and latched. A SAFE fault with no SAFE fault in effect starts the entry and names its cause (09 R275, R276). -/
def Obligations.FaultsAreTakenByClass : Prop :=
  (∀ (s : State) (code cls : Nat) (words : List Word), s.clk.running = true → s.ft.hwsafe = false → s.ft.entry = none →
    directCause code = none → 1 ≤ faultClass s code cls → faultClass s code cls ≤ 5 →
    let c := faultClass s code cls
    let u := countFault s code c
    let v := if c = 4 ∧ s.ft.safe = false then { u with ft := { u.ft with entry := some s.clk.nt, entryStep := 1, safeCause := code } } else u
    let f : FaultItem := { code := code, cls := c, words := words, source := sourceOf code, nt := s.clk.nt, mcc := mcc s, replay := false }
    (s.ft.stack = [] → Does (.faultRaised code cls words) s { v with ft := { v.ft with stack := [f] } }) ∧
    (∀ h t, s.ft.stack = h :: t → h.cls < c → Does (.faultRaised code cls words) s { v with ft := { v.ft with stack := f :: h :: t } }) ∧
    (∀ h t, s.ft.stack = h :: t → c ≤ h.cls → s.ft.queue.length < 16 →
      Does (.faultRaised code cls words) s { v with ft := { v.ft with queue := s.ft.queue ++ [f] } }) ∧
    (∀ h t k, s.ft.stack = h :: t → c ≤ h.cls → 16 ≤ s.ft.queue.length → s.ft.ovfLatch = some k →
      Does (.faultRaised code cls words) s { v with ft := { v.ft with ovf := (s.ft.ovf + 1) % 2 ^ 32, ovfLatch := some (k + 1) } }) ∧
    (∀ h t, s.ft.stack = h :: t → c ≤ h.cls → 16 ≤ s.ft.queue.length → s.ft.ovfLatch = none →
      Does (.faultRaised code cls words) s (countFault { v with ft := { v.ft with ovf := (s.ft.ovf + 1) % 2 ^ 32, ovfLatch := some 1 } } 0x0150 3))) ∧
  (∀ (s : State) (code cls : Nat),
    (0x0101 ≤ code → code ≤ 0x0107 → faultClass s code cls = 5) ∧
    (code = 0x0110 ∨ code = 0x0120 ∨ code = 0x0150 → faultClass s code cls = 3) ∧
    (code = 0x0121 → faultClass s code cls = 4) ∧
    (code = 0x0111 ∨ code = 0x0191 ∨ (0x01A0 ≤ code ∧ code ≤ 0x01A4) → faultClass s code cls = 2)) ∧
  (∀ (s : State) (n : NetImage) (i cls : Nat) (r : VentRule), s.net.image = some n → n.rules[i]? = some r → i < 1024 → r.actFlt = true →
    faultClass s (0x0400 + i) cls = r.fltClass)

/-- While SAFE_ENTRY is set, a further fault of any class leads into the hardware safe state, as does the entry watchdog after 100 µs; REF_LOSS, PLL_UNLOCK and LOCKSTEP lead there directly; each sets the FLT_PEND bit of its class, and outside HOLD the power state becomes HALT (09 R277, R278, R280). In the hardware safe state a raised fault is counted by class and shown as the last one, and nothing else happens (09 R278). -/
def Obligations.TheHardwareSafeStateIsEnteredAndOnlyCounts : Prop :=
  (∀ (s : State) (code cls t : Nat) (words : List Word), s.clk.running = true → s.ft.hwsafe = false → s.ft.entry = some t →
    directCause code = none → 1 ≤ faultClass s code cls →
    let c := faultClass s code cls
    Does (.faultRaised code cls words) s (enterHwSafe (pendClass (countFault s code c) c) 6)) ∧
  (∀ (s : State) (t : Nat), s.ft.entry = some t →
    Does .safeEntryWatchdog s (enterHwSafe (pendClass (countFault (advanceTo s (t + 100)) 0x0107 5) 5) 7)) ∧
  (∀ s : State, s.clk.running = true → s.ft.hwsafe = false →
    (s.clk.refOk = true → Does (.clockLoss false) s (enterHwSafe (pendClass (countFault { s with clk := { s.clk with refOk := false } } 0x0101 5) 5) 1)) ∧
    (s.clk.pllOk = true → Does (.clockLoss true) s (enterHwSafe (pendClass (countFault { s with clk := { s.clk with pllOk := false } } 0x0102 5) 5) 2)) ∧
    Does .lockstepMismatch s (enterHwSafe (pendClass (countFault s 0x0103 5) 5) 3)) ∧
  (∀ (s : State) (cls b : Nat), 2 ≤ cls → (pendClass s cls).ft.pend.testBit b = (s.ft.pend.testBit b || decide (b = cls - 1))) ∧
  (∀ (s : State) (cause : Nat), s.ft.hwsafe = false →
    (enterHwSafe s cause).ft.hwsafe = true ∧ (enterHwSafe s cause).ft.hwCause = cause ∧ (enterHwSafe s cause).ft.pend = s.ft.pend ∧
    (s.pwr.pstate ≠ 6 → (enterHwSafe s cause).pwr.pstate = 7) ∧
    (s.pwr.pstate ≠ 6 → s.pwr.pstate ≠ 7 → (enterHwSafe s cause).pwr.ready = false) ∧
    (s.pwr.pstate = 6 → (enterHwSafe s cause).pwr.pstate = 6)) ∧
  (∀ (s : State) (code cls : Nat) (words : List Word), s.clk.running = true → s.ft.hwsafe = true → 1 ≤ faultClass s code cls →
    faultClass s code cls ≤ 5 →
    let c := faultClass s code cls
    Does (.faultRaised code cls words) s { s with ft := { s.ft with
      cnt := modifyNth s.ft.cnt (c - 1) (fun x => (x + 1) % 2 ^ 32), highest := Nat.max s.ft.highest c
      lastCode := code, lastCls := c, lastNt := s.clk.nt } })

/-- A SAFE entry goes through its steps: every fail-safe set is active, then the SAFE fault is in effect (09 Table 9-8). The handling in progress is completed: its record is offered, FLT_PEND takes its class, a SAFE entry ends or a HALT fault enters the hardware safe state, and the next handling follows. The heartbeat is written and its absence is SUP_WDOG; a scrub pass counts what single-bit errors were corrected, free numbers, and changes nothing else; a poisoned read of the supervisor or of the vent rules is a HALT fault (09 R276, R278, Table 9-7, 01 R28). SAFE_EXIT asks for the exit; at a boundary or heartbeat with SAFE_ENTRY clear it is refused while a cause of a SAFE fault is present, and ends the SAFE fault otherwise, with a record of either; with no SAFE fault in effect the request is cleared without one (09 R276). -/
def Obligations.HandlingsHeartbeatsAndTheSafeExit : Prop :=
  (∀ (s : State) (f : FaultItem) (t : List FaultItem), s.ft.stack = f :: t → (f.cls ≠ 4 ∨ s.ft.entry = none ∨ 3 ≤ s.ft.entryStep) →
    Does .faultHandling s (handledHead (handleFault s f))) ∧
  (∀ (s : State) (f : FaultItem) (t : List FaultItem) (e : Nat), s.ft.stack = f :: t → f.cls = 4 → s.ft.entry = some e →
    (s.ft.entryStep = 1 → Does .faultHandling s { s with vn := { s.vn with fs := 2 ^ 64 - 1 }, ft := { s.ft with entryStep := 2 } }) ∧
    (s.ft.entryStep = 2 → Does .faultHandling s { s with ft := { s.ft with safe := true, entryStep := 3 } })) ∧
  (∀ s : State, beats s = true →
    Does .heartbeat s (let u := match s.ft.beat with | some b => advanceTo s (b + 1000000) | none => s
      { u with ft := { u.ft with beat := some u.clk.nt } })) ∧
  (∀ (s : State) (b : Nat), s.ft.beat = some b → beats s = true →
    Does .supWdog s (raiseFault (advanceTo s (b + 2000000)) 0x0106 5 0 [])) ∧
  (∀ (s : State) (b : Nat), s.ft.beat = some b → inRun s = true → s.ft.hwsafe = false →
    Does .supWdog s (raiseFault (advanceTo s (b + 2 * cycleLen s)) 0x0106 5 0 [])) ∧
  (∀ s : State, s.clk.running = true → ∃ a b c : Nat, Does .scrubPass s { s with
    ft := { s.ft with eccCentral := s.ft.eccCentral + a, eccBulk := s.ft.eccBulk + b }
    sv := { s.sv with singleBit := (s.sv.singleBit + c) % 2 ^ 32 }, free := s.free + 3 }) ∧
  (∀ (s : State) (addr : Nat), s.clk.running = true →
    Does (.poisonedRead .supervisor addr) s (raiseFault s 0x0104 5 0 []) ∧
    Does (.poisonedRead .ventRules addr) s (raiseFault s 0x0105 5 4 []) ∧
    (∀ core, core < 4 → Does (.poisonedRead (.cycleEngine core) addr) s (poisonCentral s core addr)) ∧
    Does (.poisonedRead .lineDma addr) s (poisonCentral s 4 addr) ∧
    (∀ channel, channel < 48 → dspRuns s = true → Does (.poisonedRead (.meteringDsp channel) addr) s (poisonSample s channel addr)) ∧
    (∀ slot, (solveSlot s slot).solve.isSome = true →
      Does (.poisonedRead (.tile slot) addr) s (poisonSolve s slot 1 addr) ∧ Does (.poisonedRead (.staging slot) addr) s (poisonSolve s slot 2 addr) ∧
      Does (.poisonedRead (.tileMemory slot) addr) s (poisonSolve s slot 3 addr)) ∧
    (∀ mb, transferring s mb = true → (box s mb).uploads = false →
      Does (.poisonedRead (.hostDma mb) addr) s (drew (stopTransfer s mb 4 (dmaMoved s mb)))) ∧
    (inPages addr = true → Does (.poisonedRead .hostPage addr) s (raiseFault (countLink (answer s 0)) 0x0111 2 0 [word (pageBox addr)]))) ∧
  (∀ s : State, s.clk.running = true → Does .safeExit s { s with ft := { s.ft with safeExit := true, exitRefused := false } }) ∧
  (∀ s : State, s.ft.safeExit = true → s.ft.entry = none → s.ft.hwsafe = false → exitInstant s = true →
    let u := { s with ft := { s.ft with safeExit := false } }
    (s.ft.safe = false → Does .safeExitDecision s u) ∧
    (s.ft.safe = true → (ruleCause u || stoppedCause u) = true →
      Does .safeExitDecision s (record { u with ft := { u.ft with exitRefused := true } } 0x01B1 0 [1])) ∧
    (s.ft.safe = true → (ruleCause u || stoppedCause u) = false →
      Does .safeExitDecision s (record (settleSets { u with ft := { u.ft with safe := false } }) 0x01B1 0 [0])))

/-! Metering and heat. -/

/-- At a tick end the samples of the tick go through the chain and into its sums, one of a channel whose word was poisoned replaced by the one before; the energies of the tick and of the fundamental cycles that wait enter the registers; the view is updated unless it is frozen, and freezes where SNAP waits; readings of the tick are taken; a periodic save falls due; parameters of a commit take effect (10 R286 to R299, R303, R315). The three filters of the chain are free functions (notes/assumptions/23). -/
def Obligations.ATickEndAccumulatesAndShows : Prop :=
  (∀ (s : State) (samples : List (List Nat)) (poisoned : List (Nat × Nat × Nat)), dspRuns s = true →
    let a := closeTick (takeSamples (advanceTo s (nextTickEnd s)) samples poisoned)
    let b := { a with mt := { a.mt with tickNt := nextTickEnd s, regsWas := a.mt.regs } }
    let c := (List.range 12).foldl unmetPoint (pendingCycles ((metered b).foldl tickPoint b))
    let d := if c.mt.frozen = true ∧ c.mt.snapReq = false then c else takeView c
    let e := if d.mt.snapReq then { d with mt := { d.mt with frozen := true, snapReq := false } } else d
    let g := tickReads (tickReadings e)
    let h := if (meterPar g 0x0780).toNat * 1000000 ≠ 0 ∧ g.mt.tickNt % ((meterPar g 0x0780).toNat * 1000000) = 0 ∧ g.mt.tailing = false ∧
        3 ≤ g.pwr.pstate ∧ g.pwr.pstate ≤ 5
      then { g with mt := { g.mt with saveDue := true } } else g
    Does (.meterTick samples poisoned) s
      (if h.pa.meterNew then { h with pa := { h.pa with meterNew := false, meter := paramsAtTick.meterValues h } } else h)) ∧
  (∀ (s : State) (samples : List (List Nat)) (poisoned : List (Nat × Nat × Nat)), s.part.m40 = false → s.clk.running = true →
    let h := { advanceTo s (nextTickEnd s) with mt := { s.mt with tickNt := nextTickEnd s } }
    Does (.meterTick samples poisoned) s
      (if h.pa.meterNew then { h with pa := { h.pa with meterNew := false, meter := paramsAtTick.meterValues h } } else h)) ∧
  (∀ s : State, s.mt.tickNt < nextTickEnd s ∧ (s.mt.tickNt < s.clk.nt → nextTickEnd s % 10000 = 0 ∧ nextTickEnd s < s.clk.nt + 10000)) ∧
  (∀ (s : State) (raw : List Nat) (c : Nat), c < 48 →
    nth 0 (sampleRow s raw).mt.sLast c = (if s.mt.poisonNext.contains c then nth 0 s.mt.sLast c else nth 0 raw c % 2 ^ 24) ∧
    (sampleRow s raw).mt.tickN = s.mt.tickN + 1) ∧
  (∀ (s : State) (c m : Nat), c < 48 → m < 12 →
    nth 0 (closeTick s).mt.rms c = rootMean (nth 0 s.mt.tickSq c) s.mt.tickN ∧
    tickEnergy (closeTick s) m = binary64.div (nth 0 s.mt.tickUI (4 * m + 3)) (binary64.ofInt 8000 0)) ∧
  (∀ s : State, s.part.m40 = true → s.clk.running = true → Does .mtrSnap s { s with mt := { s.mt with snapReq := true } } ∧
    Does .mtrRelease s { s with mt := { s.mt with frozen := false } })

/-- A fundamental cycle moves the lock of its set and gives each of its points P1 and Q1 by the single-bin transform of 64 points, and their products with the period, the nominal one without a lock; a lock is lost at 10 in range and 3 out of range, or after three nominal periods with no phase at ULOCK; at a second the one-second values are formed, S as the sum over phases of Urms × Irms and PF as P / S, the clip status is renewed and PMAX takes the larger value (10 R289 to R291, R293). -/
def Obligations.CyclesAndSecondsFormTheirValues : Prop :=
  (∀ (s : State) (set period : Nat) (samples : List (List Nat)), dspRuns s = true →
    let u := takeSamples s samples []
    let l := nth Lock.reset u.mt.locks set
    (l.locked = true → lockPhase u set = 3 → Does (.fundamentalCycle set period samples) s u) ∧
    (l.locked = true → lockPhase u set ≠ 3 → Does (.fundamentalCycle set period samples) s (setCycle (followLock u set period) set period)) ∧
    (l.locked = false → Does (.fundamentalCycle set period samples) s (setCycle (followLock u set period) set (nominalPeriod u)))) ∧
  (∀ (s : State) (set period : Nat), lockPhase s set ≠ 3 →
    (followLock s set period).mt.locks = modifyNth s.mt.locks set (fun l => l.cycle period s.clk.nt)) ∧
  (∀ (set ns : Nat) (s : State) (m : Nat),
    let u := fun (p : Nat) => cyclePoints s ns (voltCh set p)
    let i := fun (p : Nat) => cyclePoints s ns (currCh m p)
    let p1 := phaseSum (fun p => realPart (phasor (u p)) (phasor (i p)))
    let q1 := phaseSum (fun p => imagPart (phasor (u p)) (phasor (i p)))
    belowNoload s m (phaseSum (fun p => binary64.mul (rmsOf64 (u p)) (rmsOf64 (i p)))) = false →
    (cycleValues set ns s m).mt.pending = s.mt.pending ++ [(m, binary64.mul p1 (secondsOf64 ns), binary64.mul q1 (secondsOf64 ns))]) ∧
  (∀ (l : Lock) (period nt : Nat), cycleInRange period = true → (l.cycle period nt).outRange = 0 ∧
    ((l.cycle period nt).locked = true ↔ (l.locked = true ∨ 10 ≤ l.inRange + 1))) ∧
  (∀ (l : Lock) (period nt : Nat), cycleInRange period = false → (l.cycle period nt).inRange = 0 ∧
    ((l.cycle period nt).locked = true ↔ (l.locked = true ∧ l.outRange + 1 < 3))) ∧
  (∀ (s : State) (set t : Nat), dspRuns s = true → (nth Lock.reset s.mt.locks set).quiet = some t →
    let u := advanceTo s (t + (3 * nominalPeriod s + 999) / 1000)
    Does (.lockTimeout set) s { u with mt := { u.mt with locks := modifyNth u.mt.locks set (fun l => { l with locked := false, inRange := 0 }) } }) ∧
  (∀ s : State, dspRuns s = true → s.mt.tickNt % 1000000 = 0 → s.mt.tickNt = s.clk.nt → s.mt.secNt ≠ s.mt.tickNt →
    let u := formSecond s
    let v := if u.mt.frozen = false ∨ u.mt.viewNt = u.mt.tickNt then takeView u else u
    Does .meterSecond s (v.mt.measures.foldl measureSecond v)) ∧
  (∀ (s : State) (m : Nat), m ∈ metered s →
    let a := phaseSum (fun p => binary64.mul (secondRms s (voltCh (meterSet s m) p)) (secondRms s (currCh m p)))
    secOf (formSecond s) m 1 = shown (secondPower s m 3) ∧ secOf (formSecond s) m 4 = shown a ∧
    secOf (formSecond s) m 5 = shown (if a % 2 ^ 63 = 0 then 0 else binary64.div (secondPower s m 3) a) ∧
    getD 0 (formSecond s).mt.pmax m = (largerOf (word (getD 0 s.mt.pmax m)) (shown a)).toNat) ∧
  (∀ s : State, (formSecond s).mt.clip = s.mt.clipNow ∧ (formSecond s).mt.clipNow = [])

/-- A periodic save writes an energy record and a heat record, each to the next page of its rotation; on a part without electrical metering the heat record alone, at each multiple of SAVE_PERIOD (10 R303, 11 R327). In HOLD metering stops after 15 ms, or earlier where no store is in progress, the tick in progress closed with the samples taken, and the tail record goes to its page (10 R305, 19 Table 19-6). In BACKUP the watch forms Irms of each phase of every watched point from the samples of a second of the RTC and adds it to its total, and a phase at its threshold leaves a record; after WATCH_LIMIT hours the watch ends, with that end time, and the module is in OFF (10 R312, R313). -/
def Obligations.SavesTheMeteringStopAndTheWatch : Prop :=
  (∀ s : State, s.part.m40 = true → dspRuns s = true → s.ft.hwsafe = false → s.mt.saveDue = true → s.mt.tailing = false →
    let u := { s with mt := { s.mt with saveDue := false, saveNt := s.mt.tickNt } }
    Does .periodicSave s (writeHeat (writeEnergy u 1 s.mt.tickNt true) 1 s.mt.tickNt true)) ∧
  (∀ s : State, s.part.m40 = false → s.clk.running = true → s.ft.hwsafe = false → 3 ≤ s.pwr.pstate → s.pwr.pstate ≤ 5 →
    Does .periodicSave s (writeHeat (advanceTo s (nextSave s)) 1 (advanceTo s (nextSave s)).clk.nt true)) ∧
  (∀ (s : State) (h : Hold), s.pwr.hold = some h → h.metering = true →
    let a := if failStores s then advanceTo s (s.mt.tailStart + 15000) else s
    let b := openCycles (pendingCycles (restOfTick a))
    let c := { b with
      pwr := { b.pwr with hold := some { h with metering := false } }
      mt := { b.mt with tailUs := Nat.min 15000 (b.clk.nt - b.mt.tailStart) } }
    let d := ownerWrite c { page := 5, off := 0, bytes := tailBody c, head := { fmt := 1, len := (tailBody c).length, w0 := 0, w1 := 0, w2 := 0 }, store := false }
    Does .meteringStop s (requestStores d [5] .powerFail)) ∧
  (∀ (s : State) (samples : List (List (List Nat))) (t : Nat), s.pwr.pstate = 1 → s.pwr.watchStart = some t → s.rtc.oscFail = false →
    let u := runToTick s ((s.rtc.tick / 32768 + 1) * 32768)
    let v := { u with mt := { u.mt with watchEnd := u.rtc.tick } }
    Does (.watchSecond samples) s (((watchedPoints v).zip samples).foldl (fun s x => watchPoint s x.1 x.2) v)) ∧
  (∀ (s : State) (m p : Nat) (x : List (List Nat)), m < 12 → p < 3 →
    getD 0 (watchPoint s m x).mt.watchTotals (3 * m + p) =
      satAdd 32 (getD 0 s.mt.watchTotals (3 * m + p)) (ampereSeconds (watchIrms s (currCh m p) (nth [] x p)))) ∧
  (∀ (s : State) (t : Nat), s.pwr.pstate = 1 → s.pwr.watchStart = some t → watchLimitTicks s ≠ 0 → s.rtc.oscFail = false →
    let u := runToTick s (t + watchLimitTicks s)
    Does .watchLimit s { u with pwr := { u.pwr with pstate := 0, watchStart := none }, mt := { u.mt with watchEnd := u.rtc.tick } })

/-! Mailboxes. -/

/-- GO posts a mailbox that is not in flight, removes its unread completion entry and queues its doorbell; of one in flight it changes nothing (12 Table 12-13, step 3). The oldest doorbell is taken from READY on, outside HALT, once the command taken before has made its checks; its command stands in EXEC once the common checks pass, and ends with the status of the first that fails: what the power state, the ordering code and the command's marks allow; that the command exists; that no mailbox in flight has its TAG; its lengths and DMA fields; and that fewer than 15 commands are in ACCEPTED where it is long (12 R351, R352). -/
def Obligations.DoorbellsPostAndAreTaken : Prop :=
  (∀ (s : State) (mb at_ : Nat), s.clk.running = true → mb < 16 → (box s mb).inFlight = false →
    let u := advanceTo s at_
    let v := onBox u mb (fun b => { b with state := .posted, bellNt := u.clk.nt })
    Does (.mbDoorbell mb at_) s { v with
      glb := { v.glb with cpl := u.glb.cpl.filter (fun e => e.1 != mb) }
      mb := { v.mb with bells := u.mb.bells ++ [mb] } }) ∧
  (∀ (s : State) (mb at_ : Nat), (box s mb).inFlight = true → Does (.mbDoorbell mb at_) s s) ∧
  (∀ (s : State) (mb at_ : Nat), 16 ≤ mb → Does (.mbDoorbell mb at_) s s) ∧
  (∀ (s : State) (n at_ : Nat) (t : List Nat), s.mb.bells = n :: t → checking s = true → Does (.mailboxTake at_) s s) ∧
  (∀ s : State, checking s = true ↔ ∃ b n, s.mb.boxes[n]? = some b ∧ b.state = .exec ∧ serves s n = true ∧ waitsInExec s n = false) ∧
  (∀ (s : State) (n at_ : Nat) (t : List Nat), s.mb.bells = n :: t → takes s = true → checking s = false →
    let u := advanceTo s at_
    let v := onBox { u with mb := { u.mb with bells := t, order := s.mb.order.filter (fun m => m != n) ++ [n] } } n
      (fun b => { b with state := .exec, dmaErr := 0, dmaDone := 0, dmaNeed := 0, reply := none, dmaWait := false })
    (commonChecks v n (box v n) = stOk → Does (.mailboxTake at_) s v) ∧
    (commonChecks v n (box v n) ≠ stOk → Does (.mailboxTake at_) s (finish v n (Reply.of (commonChecks v n (box v n)))))) ∧
  (∀ s : State, takes s = true ↔
    (s.clk.running = true ∧ ((s.pwr.pstate = 2 ∧ s.pwr.ready = true) ∨ (3 ≤ s.pwr.pstate ∧ s.pwr.pstate ≠ 7)))) ∧
  (∀ (s : State) (n : Nat) (b : Mailbox), checkServed s n b.code (ruleOf b.code) ≠ stOk →
    commonChecks s n b = checkServed s n b.code (ruleOf b.code)) ∧
  (∀ (s : State) (n : Nat) (b : Mailbox), checkServed s n b.code (ruleOf b.code) = stOk → ruleOf b.code = none → commonChecks s n b = 0x8002) ∧
  (∀ (s : State) (n : Nat) (b : Mailbox) (r : CmdRule), checkServed s n b.code (ruleOf b.code) = stOk → ruleOf b.code = some r →
    let twin := (indexed s.mb.boxes).any (fun p => p.1 != n && p.2.inFlight && p.2.tag == b.tag)
    ((twin = true ∨ dmaFieldsOk s r b = false) → commonChecks s n b = 0x8003) ∧
    (twin = false → dmaFieldsOk s r b = true → r.isLong b = true → 15 ≤ acceptedCount s → commonChecks s n b = 0x8005) ∧
    (twin = false → dmaFieldsOk s r b = true → (r.isLong b = false ∨ acceptedCount s < 15) → commonChecks s n b = 0)) ∧
  (∀ (s : State) (n code : Nat) (r : Option CmdRule), s.pwr.pstate = 6 → checkServed s n code r = 0x8001) ∧
  (∀ (s : State) (n code : Nat) (r : Option CmdRule), s.pwr.pstate ≠ 3 → n ≠ 0 → checkServed s n code r = 0x8001) ∧
  (∀ (s : State) (n code : Nat) (r : Option CmdRule), (s.pwr.pstate = 3 ∨ (s.pwr.pstate ≠ 6 ∧ n = 0)) → s.part.m40 = false →
    0x0700 ≤ code → code ≤ 0x073F → checkServed s n code r = 0x8006)

/-- A command completes: its mailbox enters DONE with its status, the TAG and CODE of the request, its response in the payload page and its results modulo 2^32; the completion queue takes one entry, the mailbox's interrupt bit is set; every other mailbox, and every byte of the page beyond the response, stays (12 R349, R350, R354, Table 12-13). A response that can exceed a page: by DMA the command is accepted and waits for its transfer, with ARG3 0; else the reply holds the piece of 4,096 bytes at the offset in ARG3 and RES3 the total length; an offset that is no multiple of 4,096, or at the end or past it, is refused (13 R364). -/
def Obligations.CompletionsAndLongResponses : Prop :=
  (∀ (s : State) (n : Nat) (r : Reply), n < s.mb.boxes.length →
    (box (finish s n r) n).state = .done ∧ (box (finish s n r) n).status = r.status ∧ (box (finish s n r) n).rtag = (box s n).cmd ∧
    (box (finish s n r) n).rspLen = r.page.length ∧
    (box (finish s n r) n).res0 = r.res0 % 2 ^ 32 ∧ (box (finish s n r) n).res1 = r.res1 % 2 ^ 32 ∧
    (box (finish s n r) n).res2 = r.res2 % 2 ^ 32 ∧ (box (finish s n r) n).res3 = r.res3 % 2 ^ 32 ∧
    (box (finish s n r) n).time = Nat.min (s.clk.nt - (box s n).bellNt) (2 ^ 32 - 1) ∧
    (∀ a, readByte (box (finish s n r) n).page a = if a < r.page.length then (r.page[a]?).getD 0 else readByte (box s n).page a) ∧
    (Memory.wf (box s n).page = true → Memory.wf (box (finish s n r) n).page = true)) ∧
  (∀ (s : State) (n : Nat) (r : Reply),
    (finish s n r).glb.cpl = s.glb.cpl ++ [(n, (box s n).tag)] ∧
    (∀ b, (finish s n r).glb.irqW1c.testBit b = (s.glb.irqW1c.testBit b || b == n)) ∧
    (∀ m, m ≠ n → box (finish s n r) m = box s m) ∧
    finish s n r = { s with mb := (finish s n r).mb, glb := (finish s n r).glb } ∧
    (finish s n r).mb.bells = s.mb.bells) ∧
  (∀ (s : State) (n : Nat) (r : Reply) (total : Bytes) (gen : Nat),
    ((box s n).dmaEn = true → (box s n).arg3 = 0 →
      deliver s n r total gen = onBox (accept s n) n (fun b => { b with reply := some { r with res2 := gen, body := some total }, dmaWait := true, dmaSince := s.clk.nt })) ∧
    ((box s n).dmaEn = true → (box s n).arg3 ≠ 0 → deliver s n r total gen = refuse s n stBadParameter) ∧
    ((box s n).dmaEn = false → (box s n).arg3.toNat % 4096 = 0 → ((box s n).arg3 = 0 ∨ (box s n).arg3.toNat < total.length) →
      deliver s n r total gen =
        finish s n { r with page := (total.drop (box s n).arg3.toNat).take 4096, res2 := gen, res3 := total.length }) ∧
    ((box s n).dmaEn = false → ((box s n).arg3.toNat % 4096 ≠ 0 ∨ ((box s n).arg3 ≠ 0 ∧ total.length ≤ (box s n).arg3.toNat)) →
      deliver s n r total gen = refuse s n stBadParameter))

/-- A command with an argument word that it does not name other than 0 ends with BAD_PARAMETER and does nothing else (13 R362). -/
def Obligations.UnnamedArgumentsAreRefused : Prop :=
  ∀ (s : State) (mb : Nat) (row : Nat × (Nat → Instr)), row ∈ mailboxRows → executes s mb row.1 = true →
    (box s mb).unnamedZero (((ruleOf row.1).map (fun r => r.args)).getD 15) = false → s.rtc.change = none → s.mt.reads = [] →
    Refuses (row.2 mb) s mb 0x8003

/-- An accepted command whose outcome stands and whose transfer is over enters DONE with it; none does in HOLD or in HALT. A transfer fails with DMAERR 5 while the bus is lost, with 6 on a wrong list, of which it has read the entries, and otherwise moves the response or the upload; its requests are each at most the programmed size and none crosses 4 KiB; one that meets an error, or waits 50 ms for a completion, stops after what has moved (12 R355 to R359, Table 12-16). -/
def Obligations.LongCommandsAndTransfersEnd : Prop :=
  (∀ (s : State) (mb at_ : Nat) (r : Reply), (box s mb).state = .accepted → (box s mb).reply = some r → (box s mb).dmaWait = false →
    completes s = true → ((box s mb).code = 0x0713 → calPageWaits s = false) →
    Does (.commandCompletion mb at_) s (completeCommand (advanceTo s at_) mb)) ∧
  (∀ s : State, completes s = true ↔ (s.clk.running = true ∧ s.pwr.pstate ≠ 6 ∧ s.ft.hwsafe = false)) ∧
  (∀ (s : State) (mb : Nat) (list data : List Byte), transferring s mb = true → s.pwr.linkSpi = false → s.pcie.d3 = false →
    (busLost s = true → Does (.dmaTransfer mb list data) s (dmaFail s mb 5 0)) ∧
    (busLost s = false → hostHolds (box s mb) list data = true → Does (.dmaTransfer mb list data) s (runTransfer s mb list data))) ∧
  (∀ (s : State) (mb : Nat) (list data : Bytes), (box s mb).sg = true → sgOk (box s mb) list = false →
    runTransfer s mb list data = dmaFail (issueReads s [((box s mb).dmaAddr, 16 * (box s mb).sgCount)]) mb 6 0) ∧
  (∀ (most : Nat) (l : List (Nat × Nat)) (a k : Nat), 0 < most → (a, k) ∈ requestsOf most l → 0 < k ∧ k ≤ most ∧ a % 4096 + k ≤ 4096) ∧
  (∀ (most : Nat) (l : List (Nat × Nat)), 0 < most → ((requestsOf most l).map (fun e => e.2)).sum = (l.map (fun e => e.2)).sum) ∧
  (∀ (s : State) (mb error moved : Nat), transferring s mb = true → errorMeets s mb error = true →
    Does (.dmaError mb error moved) s (stopTransfer s mb error moved)) ∧
  (∀ (s : State) (mb moved : Nat), transferring s mb = true → (box s mb).readsHost = true → (cfgLe s.pcie 0x98 2).testBit 4 = false →
    Does (.dmaCompletionTimeout mb moved) s (stopTransfer (advanceTo s ((box s mb).dmaSince + 50000)) mb 1 moved)) ∧
  (∀ (s : State) (mb err moved : Nat), mb < s.mb.boxes.length →
    (box (dmaFail s mb err moved) mb).dmaErr = err ∧ (box (dmaFail s mb err moved) mb).dmaDone = moved ∧
    (box (dmaFail s mb err moved) mb).dmaWait = false ∧ (box (dmaFail s mb err moved) mb).reply = some (Reply.of 0x800F) ∧
    (∀ m, m ≠ mb → box (dmaFail s mb err moved) m = box s m) ∧
    ((box s mb).code ≠ 0x0C04 → dmaFail s mb err moved = { s with mb := (dmaFail s mb err moved).mb }))

/-- A host write of a word of a payload page stores its four bytes, low byte first, and changes no other byte; one in flight discards it and counts it; the canonical form is kept (12 R347, R348). -/
def Obligations.PayloadPagesTakeHostWrites : Prop :=
  ∀ (s : State) (n off : Nat) (value : Word), n < s.mb.boxes.length → n < 16 → off < 0x1000 → off % 4 = 0 → s.clk.running = true →
    let addr := 0x20000 + 0x1000 * n + off
    ((box s n).inFlight = false →
      let u := onBox s n (fun b => { b with page := writeBytes b.page off (natLe 4 value.toNat) })
      Does (.registerWrite addr value) s u ∧
      (∀ a, readByte (box u n).page a =
        if off ≤ a ∧ a < off + 4 then BitVec.ofNat 8 (value.toNat / 256 ^ (a - off)) else readByte (box s n).page a) ∧
      (∀ m, m ≠ n → box u m = box s m) ∧
      (Memory.wf (box s n).page = true → Memory.wf (box u n).page = true)) ∧
    ((box s n).inFlight = true → Does (.registerWrite addr value) s (countMb s))

/-! Mailbox commands. -/

/-- SYS_INFO, SYS_STATE and SYS_RESET: the module's description; a change of the power state allowed by 19 Table 19-4 with no activity running, which from RUN waits for its boundary after the stores, and between TEST and RECOVERY happens at once; a reset 10 ms after the answer to the right key (13 Table 13-3, 19 R465, R475). -/
def Obligations.SystemCommandsAreCarriedOut : Prop :=
  (∀ (s : State) (mb : Nat), Taken s mb 0x0101 →
    let w := fun (x : Nat) => natLe 4 x
    Does (.sysInfo mb) s (finish { s with free := s.free + 2 } mb { Reply.ok with
      page := w 0x51470040 ++ w (glbRead s 0x004) ++ w (s.part.serial % 2 ^ 32) ++ w (s.part.serial / 2 ^ 32) ++ w (glbCaps s) ++ w s.pwr.pstate ++
        w s.im.fwSlot ++ imageSetDigest s ++ w (confShown s).1.toNat ++ w (confShown s).2.toNat ++ natLe 28 0 })) ∧
  (∀ (s : State) (mb : Nat), Taken s mb 0x0102 →
    let t := (box s mb).arg0.toNat
    let u := accept s mb
    ((t < 3 ∨ 5 < t) → Refuses (.sysState mb) s mb 0x8003) ∧
    (3 ≤ t → t ≤ 5 → transitionOk s t = false → Refuses (.sysState mb) s mb 0x8006) ∧
    (3 ≤ t → t ≤ 5 → transitionOk s t = true → s.ma ≠ [] → Refuses (.sysState mb) s mb 0x8004) ∧
    (t = 3 → transitionOk s t = true → s.ma = [] → Does (.sysState mb) s { u with pwr := { u.pwr with toState := some (3, mb) } }) ∧
    ((t = 4 ∨ t = 5) → transitionOk s t = true → s.ma = [] → inRun s = true →
      Does (.sysState mb) s (requestStores { u with pwr := { u.pwr with toState := some (t, mb) } } (retainPages u ++ dirtyOf u [0, 10]) .owner)) ∧
    ((t = 4 ∨ t = 5) → transitionOk s t = true → s.ma = [] → inRun s = false →
      Does (.sysState mb) s (replyTo (setPstate u t) mb { Reply.ok with res0 := t }))) ∧
  (∀ (s : State) (t : Nat), transitionOk s t = true ↔
    ((s.pwr.pstate = 3 ∧ (t = 4 ∨ t = 5)) ∨ (s.pwr.pstate = 4 ∧ t = 5) ∨ (s.pwr.pstate = 5 ∧ t = 4) ∨
     ((s.pwr.pstate = 4 ∨ s.pwr.pstate = 5) ∧ t = 3 ∧ mayActivate s = true))) ∧
  (∀ (s : State) (mb : Nat), Taken s mb 0x0103 →
    ((box s mb).arg0 ≠ 0xA5A5 → Refuses (.sysReset mb) s mb 0x8003) ∧
    ((box s mb).arg0 = 0xA5A5 →
      let u := finish s mb Reply.ok
      Does (.sysReset mb) s { u with pwr := { u.pwr with sysResetAt := some (s.pwr.sysResetAt.getD (s.clk.nt + 10000)) } }))

/-- PAR_READ, PAR_WRITE, CFG_COMMIT and CFG_DISCARD: a parameter's value in force and where it comes from; a runtime value of the one parameter that the host may write; a new configuration image, of the next sequence number, in the slot that does not hold the newest; the runtime values dropped (13 R368, Table 13-3, 15 R411). -/
def Obligations.ParametersAreReadWrittenAndCommitted : Prop :=
  (∀ (s : State) (mb : Nat), Taken s mb 0x0110 →
    let p := (box s mb).arg0.toNat
    (parDefined p = false → Refuses (.parRead mb) s mb 0x8003) ∧
    (parDefined p = true → Answers (.parRead mb) s mb { Reply.ok with
      res0 := (parValue s p).toNat
      res1 := b2n (match s.pa.conf with | some c => (lookup c.entries p).isSome | none => false) + 2 * b2n (lookup s.pa.runtime p).isSome + 4 * b2n (p == 0x0101) })) ∧
  (∀ (s : State) (p : Nat), parValue s p = (match lookup s.pa.runtime p with
    | some v => v
    | none => match s.pa.conf with
      | some c => (match lookup c.entries p with | some v => v | none => parDefault p)
      | none => parDefault p)) ∧
  (∀ (s : State) (mb : Nat), Taken s mb 0x0111 →
    let p := (box s mb).arg0.toNat
    let v := (box s mb).arg1
    (parDefined p = false → Refuses (.parWrite mb) s mb 0x8003) ∧
    (parDefined p = true → p ≠ 0x0101 → Refuses (.parWrite mb) s mb 0x8006) ∧
    (p = 0x0101 → 1 < v.toNat → Refuses (.parWrite mb) s mb 0x8003) ∧
    (p = 0x0101 → v.toNat ≤ 1 → Does (.parWrite mb) s
      (finish { s with pa := { s.pa with runtime := insertAt s.pa.runtime p v, discard := s.pa.discard.filter (fun q => q != p) } } mb
        { Reply.ok with res0 := mcc s }))) ∧
  (∀ (s : State) (mb : Nat), Taken s mb 0x0112 →
    (collides s 4 0 = true → Refuses (.cfgCommit mb) s mb 0x8004) ∧
    (collides s 4 0 = false → newestSeq s = 0xFFFFFFFF → Refuses (.cfgCommit mb) s mb 0x8006) ∧
    (collides s 4 0 = false → newestSeq s ≠ 0xFFFFFFFF → keysOn s = true → slotBad s 8 = true → Refuses (.cfgCommit mb) s mb 0x8007) ∧
    (collides s 4 0 = false → newestSeq s ≠ 0xFFFFFFFF → (keysOn s = false ∨ slotBad s 8 = false) →
      let u := maStart (accept s mb) 4 0
      Does (.cfgCommit mb) s (replyTo { u with im := { u.im with flash := eraseAt s.im.flash (16 + writeSlot s), cfgCommit := some (writeSlot s) } } mb
        { Reply.ok with res0 := newestSeq s + 1, res1 := writeSlot s }))) ∧
  (∀ (s : State) (mb : Nat), Taken s mb 0x0113 →
    (runs s 4 = true → Refuses (.cfgDiscard mb) s mb 0x8004) ∧
    (runs s 4 = false → Does (.cfgDiscard mb) s
      (finish { s with pa := { s.pa with discard := s.pa.runtime.map (fun e => e.1) } } mb { Reply.ok with res0 := s.pa.runtime.length })))

/-- IMG_PUT, IMG_LOAD, IMG_INFO and FW_STAGE: an upload in pieces or by DMA into its place of the staging area, within its 64 MiB; a load that passes its checks takes the staged images; the images loaded, in flash and staged; a firmware image whose signature holds (13 R369, R370, Table 13-4; the order of places is notes/assumptions/44, firmware notes/assumptions/21). -/
def Obligations.ImagesArePutAndLoaded : Prop :=
  (∀ (s : State) (mb : Nat), Taken s mb 0x0201 →
    let b := box s mb
    let kind := b.arg0.toNat
    let slot := b.arg3.toNat
    let x := takePiece s mb kind slot
    ((kind = 0 ∨ 5 < kind) → Refuses (.imgPut mb) s mb 0x8003) ∧
    (1 ≤ kind → kind ≤ 5 → (if kind = 3 then 3 < slot else slot ≠ 0) → Refuses (.imgPut mb) s mb 0x8003) ∧
    (1 ≤ kind → kind ≤ 5 → (if kind = 3 then slot ≤ 3 else slot = 0) →
      (b.dmaEn = true → dmaUploadOk b = false → Refuses (.imgPut mb) s mb 0x8003) ∧
      (b.dmaEn = true → dmaUploadOk b = true → stagingFull s (4 * kind + slot) b.arg1.toNat = true → Refuses (.imgPut mb) s mb 0x800B) ∧
      (b.dmaEn = true → dmaUploadOk b = true → stagingFull s (4 * kind + slot) b.arg1.toNat = false →
        Does (.imgPut mb) s (onBox (accept s mb) mb (fun b => { b with dmaWait := true, dmaSince := s.clk.nt }))) ∧
      (b.dmaEn = false → x.status ≠ 0 → Does (.imgPut mb) s (refuse x.state mb x.status)) ∧
      (b.dmaEn = false → x.status = 0 → stagingFull s (4 * kind + slot) b.arg1.toNat = true → Refuses (.imgPut mb) s mb 0x800B) ∧
      (b.dmaEn = false → x.status = 0 → stagingFull s (4 * kind + slot) b.arg1.toNat = false →
        (x.whole = none → Does (.imgPut mb) s (finish x.state mb { Reply.ok with res0 := x.held })) ∧
        (∀ bs, x.whole = some bs → Does (.imgPut mb) s
          (finish { x.state with im := { x.state.im with staged := insertAt x.state.im.staged (4 * kind + slot) bs } } mb { Reply.ok with res0 := x.held }))))) ∧
  (∀ (s : State) (mb : Nat), Taken s mb 0x0202 →
    let b := box s mb
    let kind := b.arg0.toNat
    let slot := loadSlot s b
    let st := loadStatus s kind slot
    (loadArgsOk b = false → Refuses (.imgLoad mb) s mb 0x8003) ∧
    (loadArgsOk b = true → st ≠ 0 → Refuses (.imgLoad mb) s mb st) ∧
    (loadArgsOk b = true → st = 0 → kind = 4 → b.arg2.toNat.testBit 0 = true → newestSeq s = 0xFFFFFFFF → Refuses (.imgLoad mb) s mb 0x8006) ∧
    (loadArgsOk b = true → st = 0 → (kind ≠ 4 ∨ b.arg2.toNat.testBit 0 = false ∨ newestSeq s ≠ 0xFFFFFFFF) →
      Does (.imgLoad mb) s (beginLoad s mb kind slot (b.arg2.toNat.testBit 0)))) ∧
  (∀ (s : State) (mb : Nat), Taken s mb 0x0202 → loadArgsOk (box s mb) = true → mb < s.mb.boxes.length →
    let b := box s mb
    let persist := b.arg2.toNat.testBit 0
    let image := fun (kind slot : Nat) => (openPlace s (4 * kind + slot)).bytes
    (b.arg0 = 1 → loadStatus s 1 0 = 0 → inRun s = true →
      ∃ t, exec (.imgLoad mb) s = .next t ∧ (box t mb).state = .accepted ∧ runs t 3 = true ∧
        t.im.netLoad = some { network := image 1 0, cycle := image 2 0, solves := takenSolves s, mb := mb, persist := persist }) ∧
    (b.arg0 = 2 → loadStatus s 2 0 = 0 →
      ∃ t, exec (.imgLoad mb) s = .next t ∧ (box t mb).state = .accepted ∧ (box t mb).reply = some Reply.ok ∧ lookup t.im.staged 8 = none ∧
        t.im.cycLoad = s.im.cycLoad ++ [{ bytes := image 2 0, staged := (stagedAt s 8).getD [], slot := if persist then some 0 else none, mb := mb }]) ∧
    (b.arg0 = 3 → loadStatus s 3 (loadSlot s b) = 0 → inRun s = true →
      ∃ t, exec (.imgLoad mb) s = .next t ∧ (box t mb).state = .accepted ∧ runs t 2 = true ∧
        t.sv.reqs = s.sv.reqs ++ [{ slot := loadSlot s b, bytes := some (image 3 (loadSlot s b)), mb := mb, persist := persist }]) ∧
    (b.arg0 = 4 → loadStatus s 4 0 = 0 → inRun s = true → persist = false →
      ∃ t, exec (.imgLoad mb) s = .next t ∧ (box t mb).state = .accepted ∧ runs t 4 = true ∧
        t.im.cfgLoad = some { bytes := image 4 0, staged := [], slot := none, mb := mb })) ∧
  (∀ (s : State) (mb : Nat), Taken s mb 0x0203 →
    let kind := (box s mb).arg0.toNat
    let rows := fun (place : Nat) (l : List (Nat × Bytes)) => l.flatMap (fun p => infoEntry kind place p.1 p.2)
    ((kind = 0 ∨ 5 < kind) → Refuses (.imgInfo mb) s mb 0x8003) ∧
    (1 ≤ kind → kind ≤ 5 → Answers (.imgInfo mb) s mb { Reply.ok with
      page := rows 0 (loadedImages s kind) ++ rows 1 (placedImages s.im.flash kind) ++ rows 2 (placedImages s.im.staged kind) })) ∧
  (∀ (s : State) (mb : Nat), Taken s mb 0x0210 →
    (collides s 7 0 = true → Refuses (.fwStage mb) s mb 0x8004) ∧
    (collides s 7 0 = false → stagedAt s 20 = none → Refuses (.fwStage mb) s mb 0x8001) ∧
    (∀ bs, collides s 7 0 = false → stagedAt s 20 = some bs → Config.firmwareSigned bs = false → Refuses (.fwStage mb) s mb 0x8007) ∧
    (∀ bs, collides s 7 0 = false → stagedAt s 20 = some bs → Config.firmwareSigned bs = true → Config.firmwareOk bs = false →
      Refuses (.fwStage mb) s mb 0x8008) ∧
    (∀ bs, collides s 7 0 = false → stagedAt s 20 = some bs → Config.firmwareSigned bs = true → Config.firmwareOk bs = true →
      let u := maStart (accept (unstage s [20]) mb) 7 0
      Does (.fwStage mb) s (replyTo { u with im := { u.im with fwHeld := some bs } } mb { Reply.ok with res0 := 1 - s.im.fwSlot })))

/-- The unit, point and line commands: units, point images, directories and schedules as the images and the live state hold them; a force, which takes effect at the next boundary, on a point that may be forced; releases of forces; services of units and lines, which wait for their boundary as activities (13 Tables 13-5 to 13-7, 02 R69, R73, R74). -/
def Obligations.DirectoryCommandsAnswer : Prop :=
  (∀ (s : State) (mb : Nat), Taken s mb 0x0301 →
    let f := (box s mb).arg0.toNat
    let n := (box s mb).arg1.toNat
    ((n = 0 ∨ 16384 < f + n) → Refuses (.unitRead mb) s mb 0x8003) ∧
    (1 ≤ n → f + n ≤ 16384 → Does (.unitRead mb) s (deliver s mb Reply.ok ((List.range n).flatMap (fun i => unitBytes s (f + i))) (mcc s)))) ∧
  (∀ (s : State) (mb : Nat), Taken s mb 0x0303 →
    let f := (box s mb).arg0.toNat
    let n := (box s mb).arg1.toNat
    let im := (box s mb).arg2
    ((n = 0 ∨ 262144 < f + n ∨ 1 < im.toNat) → Refuses (.ptRead mb) s mb 0x8003) ∧
    (1 ≤ n → f + n ≤ 262144 → im.toNat ≤ 1 → Does (.ptRead mb) s
      (deliver s mb Reply.ok ((List.range n).flatMap (fun i => (imageEntryOf s (if im = 0 then s.pt.input else s.pt.output) (f + i)).bytes)) (mcc s)))) ∧
  (∀ (s : State) (mb : Nat), Taken s mb 0x0304 →
    let f := (box s mb).arg0.toNat
    let n := (box s mb).arg1.toNat
    ((n = 0 ∨ 262144 < f + n) → Refuses (.ptDir mb) s mb 0x8003) ∧
    (1 ≤ n → f + n ≤ 262144 → Does (.ptDir mb) s (deliver s mb Reply.ok (sectionFields s 2 f n pointFields) (mcc s)))) ∧
  (∀ (s : State) (mb : Nat), Taken s mb 0x0402 →
    let l := (box s mb).arg0.toNat
    let f := (box s mb).arg1.toNat
    let n := (box s mb).arg2.toNat
    let w := ((s.net.image.map (fun i => i.lineAt l)).map (fun r => (r.firstWindow, r.windowCount))).getD (0, 0)
    ((64 ≤ l ∨ n = 0 ∨ 2048 < n ∨ w.2 < f + n) → Refuses (.mxRead mb) s mb 0x8003) ∧
    (l < 64 → 1 ≤ n → n ≤ 2048 → f + n ≤ w.2 → Does (.mxRead mb) s (deliver s mb Reply.ok (sectionFields s 5 (w.1 + f) n windowFields) (mcc s)))) ∧
  (∀ (s : State) (mb : Nat), Taken s mb 0x0403 →
    let l := (box s mb).arg0.toNat
    (64 ≤ l → Refuses (.stnRead mb) s mb 0x8003) ∧
    (l < 64 → s.net.image = none → Answers (.stnRead mb) s mb { Reply.ok with res2 := mcc s }) ∧
    (∀ n, l < 64 → s.net.image = some n → Answers (.stnRead mb) s mb { Reply.ok with
      page := (stationsOf n l).flatMap (fun u => stationEntry n u (unitRun s u)), res0 := (stationsOf n l).length, res2 := mcc s })) ∧
  (∀ (s : State) (mb : Nat), Taken s mb 0x0310 →
    let p := (box s mb).arg0.toNat
    let v := (box s mb).arg1
    (s.net.image = none → Refuses (.ptForce mb) s mb 0x8003) ∧
    (∀ n, s.net.image = some n →
      let r := n.pointAt p
      let allowed := r.kind ≠ 0 ∧ r.kind ≠ 4 ∧ (r.rangeMode ≠ 0 → inRange r.typ (n.paramOf r) v = true)
      (¬allowed → Refuses (.ptForce mb) s mb 0x8003) ∧
      (allowed → unitOut s r.unit = true → Refuses (.ptForce mb) s mb 0x8006) ∧
      (allowed → unitOut s r.unit = false → lookup s.pt.forces p = none → 1024 ≤ s.pt.forces.length → Refuses (.ptForce mb) s mb 0x800B) ∧
      (allowed → unitOut s r.unit = false → ((lookup s.pt.forces p).isSome = true ∨ s.pt.forces.length < 1024) → Does (.ptForce mb) s
        (finish { s with pt := { s.pt with forceReq := s.pt.forceReq ++ [{ point := p, value := some v }] } } mb { Reply.ok with res0 := (mcc s + 1) % 2 ^ 32 })))) ∧
  (∀ (s : State) (mb : Nat), Taken s mb 0x0311 →
    let a := (box s mb).arg0
    (a ≠ 0xFFFFFFFF → (releasable s).contains a.toNat = false → Refuses (.ptRelease mb) s mb 0x8003) ∧
    (a ≠ 0xFFFFFFFF → (releasable s).contains a.toNat = true →
      let ps := (releasable s).filter (fun p => p == a.toNat)
      Does (.ptRelease mb) s (finish (queueForces s (ps.map (fun p => { point := p, value := none }))) mb { Reply.ok with res0 := ps.length })) ∧
    (a = 0xFFFFFFFF → Does (.ptRelease mb) s
      (finish (queueForces s ((releasable s).map (fun p => { point := p, value := none }))) mb { Reply.ok with res0 := (releasable s).length }))) ∧
  (∀ (s : State) (mb : Nat), Taken s mb 0x0312 → Does (.ptForces mb) s
    (deliver s mb { Reply.ok with res0 := s.pt.forces.length } (s.pt.forces.flatMap (fun p => natLe 4 p.1 ++ natLe 4 p.2.toNat)) (mcc s))) ∧
  (∀ (s : State) (mb : Nat), Taken s mb 0x0302 →
    let u := (box s mb).arg0.toNat
    let a := (box s mb).arg1
    let units := match s.net.image with | some n => n.units.length | none => 0
    ((1 < a.toNat ∨ (u ≠ 0 ∧ units ≤ u)) → Refuses (.unitService mb) s mb 0x8003) ∧
    (a.toNat ≤ 1 → u = 0 → Refuses (.unitService mb) s mb 0x8006) ∧
    (a.toNat ≤ 1 → u ≠ 0 → u < units → collides s 9 u = true → Refuses (.unitService mb) s mb 0x8004) ∧
    (a.toNat ≤ 1 → u ≠ 0 → u < units → collides s 9 u = false →
      let v := maStart (accept s mb) 9 u
      Does (.unitService mb) s { v with un := { v.un with requests := v.un.requests ++ [{ unit := u, out := a == 1, mb := mb }] } })) ∧
  (∀ (s : State) (mb : Nat), Taken s mb 0x0401 →
    let l := (box s mb).arg0.toNat
    let a := (box s mb).arg1
    ((1 < a.toNat ∨ 64 ≤ l ∨ (a = 1 ∧ lineRec s l = none)) → Refuses (.lnService mb) s mb 0x8003) ∧
    (a.toNat ≤ 1 → l < 64 → (a = 1 → (lineRec s l).isSome = true) → collides s 8 l = true → Refuses (.lnService mb) s mb 0x8004) ∧
    (a.toNat ≤ 1 → l < 64 → (a = 1 → (lineRec s l).isSome = true) → collides s 8 l = false →
      let v := maStart (accept s mb) 8 l
      Does (.lnService mb) s { v with lnReq := v.lnReq ++ [{ line := l, online := a == 1, mb := mb }] }))

/-- The cycle engine's commands: its record; a swap, accepted where no other waits, no activity collides, the standby program passes its checks and everything it carries is carried; the cancel of a swap that has not started, which ends both commands; a variable's elements as carried areas hold them at the end of the last cycle (13 Table 13-8, 05 R154 to R158). -/
def Obligations.CycleEngineCommandsAnswer : Prop :=
  (∀ (s : State) (mb : Nat), Taken s mb 0x0501 → Answers (.ceStatus mb) s mb { Reply.ok with page := if s.ce.record = [] then ceRecord s else s.ce.record }) ∧
  (∀ (s : State) (mb : Nat), Taken s mb 0x0502 →
    (s.ce.swap.isSome = true → Refuses (.ceSwap mb) s mb 0x8005) ∧
    (s.ce.swap = none → collides s 1 0 = true → Refuses (.ceSwap mb) s mb 0x8004) ∧
    (s.ce.swap = none → collides s 1 0 = false → (s.net.image = none ∨ activeProg s = none) → Refuses (.ceSwap mb) s mb 0x8008) ∧
    (∀ n p, s.ce.swap = none → collides s 1 0 = false → s.net.image = some n → activeProg s = some p →
      (standbyProg s n = none → Refuses (.ceSwap mb) s mb 0x8008) ∧
      (∀ q x, standbyProg s n = some q → refusedCarry n p q = some x →
        Does (.ceSwap mb) s (finish s mb { Reply.of 0x8006 with res1 := x.1, res2 := x.2 })) ∧
      (∀ q, standbyProg s n = some q → refusedCarry n p q = none →
        let u := maStart (accept s mb) 1 0
        Does (.ceSwap mb) s { u with ce := { u.ce with swap := some { mb := mb, deferrals := 0, firstCycle := s.clk.k + 1, started := false } } }))) ∧
  (∀ (s : State) (mb : Nat), Taken s mb 0x0503 →
    (s.ce.swap = none → Refuses (.ceSwapCancel mb) s mb 0x8006) ∧
    (∀ x, s.ce.swap = some x → x.started = true → Refuses (.ceSwapCancel mb) s mb 0x8006) ∧
    (∀ x, s.ce.swap = some x → x.started = false → Does (.ceSwapCancel mb) s
      (finish (replyTo { s with ce := { s.ce with swap := none } } x.mb { Reply.of 0x800F with res0 := x.deferrals }) mb Reply.ok))) ∧
  (∀ (s : State) (mb : Nat), Taken s mb 0x0504 →
    let found := (activeProg s).bind (fun p => p.vars.find? (fun v => v.ident == (box s mb).arg0.toNat))
    let f := (box s mb).arg1.toNat
    let n := (box s mb).arg2.toNat
    (found = none → Refuses (.ceVarRead mb) s mb 0x8003) ∧
    (∀ v, found = some v →
      ((n = 0 ∨ 1024 < n ∨ v.length < f + n) → Refuses (.ceVarRead mb) s mb 0x8003) ∧
      (1 ≤ n → n ≤ 1024 → f + n ≤ v.length → Answers (.ceVarRead mb) s mb { Reply.ok with
        page := wordsLe (areaWords s.ce.areaWas (v.offset / 4 + (if v.exported then v.length else 0) + f) n), res0 := v.typ, res2 := mcc s })))

/-- The solver's commands: the engine's record, the slots, the last published result, the abort of a solve that runs and is not of the replay role, the program's figures, and an unload that waits for its boundary (13 Table 13-9, 07 R210, Table 7-9, 08 R250). -/
def Obligations.SolverCommandsAnswer : Prop :=
  (∀ (s : State) (mb : Nat), Taken s mb 0x0601 → Answers (.slvEngineStatus mb) s mb { Reply.ok with page := if s.sv.record = [] then engineRecord s else s.sv.record }) ∧
  (∀ (s : State) (mb : Nat), Taken s mb 0x0602 → Answers (.slvSlots mb) s mb { Reply.ok with page := s.sv.slots.flatMap slotInfo }) ∧
  (∀ (s : State) (mb : Nat), Taken s mb 0x0603 →
    let n := (box s mb).arg0.toNat
    (4 ≤ n → Refuses (.slvResult mb) s mb 0x8003) ∧
    (n < 4 → (solveSlot s n).pub = none → Refuses (.slvResult mb) s mb 0x8001) ∧
    (∀ r, n < 4 → (solveSlot s n).pub = some r → Does (.slvResult mb) s (deliver s mb { Reply.ok with res0 := r.status } r.bytes r.pub))) ∧
  (∀ (s : State) (mb : Nat), Taken s mb 0x0604 →
    let n := (box s mb).arg0.toNat
    (4 ≤ n → Refuses (.slvAbort mb) s mb 0x8003) ∧
    (∀ p x, n < 4 → runningSolve s n = some (p, x) → x.role = 8 → Refuses (.slvAbort mb) s mb 0x8006) ∧
    (∀ p x, n < 4 → runningSolve s n = some (p, x) → x.role ≠ 8 → Does (.slvAbort mb) s (finish (endOutside s n p x 0x12) mb Reply.ok)) ∧
    (∀ x, n < 4 → runningSolve s n = none → (solveSlot s n).solve = some x → x.status = some 0x11 → x.backstop = s.clk.nt →
      Does (.slvAbort mb) s (finish (onSlot s n (fun sl => { sl with
        solve := some { x with status := some 0x12 }, held := sl.held.map (fun r => { r with status := 0x12 }) })) mb Reply.ok)) ∧
    (n < 4 → runningSolve s n = none → (∀ x, (solveSlot s n).solve = some x → x.status = some 0x11 → x.backstop ≠ s.clk.nt) →
      Refuses (.slvAbort mb) s mb 0x8006)) ∧
  (∀ (s : State) (mb : Nat), Taken s mb 0x0605 →
    let n := (box s mb).arg0.toNat
    (4 ≤ n → Refuses (.slvProgramInfo mb) s mb 0x8003) ∧
    (n < 4 → (solveSlot s n).img = none → Refuses (.slvProgramInfo mb) s mb 0x8001) ∧
    (∀ p, n < 4 → (solveSlot s n).img = some p → Answers (.slvProgramInfo mb) s mb { Reply.ok with page := programInfo s p })) ∧
  (∀ (s : State) (mb : Nat), Taken s mb 0x0606 →
    let n := (box s mb).arg0.toNat
    (4 ≤ n → Refuses (.slvUnload mb) s mb 0x8003) ∧
    (n < 4 → (solveSlot s n).solve.isSome = true → Refuses (.slvUnload mb) s mb 0x8005) ∧
    (n < 4 → (solveSlot s n).solve = none → collides s 2 n = true → Refuses (.slvUnload mb) s mb 0x8004) ∧
    (n < 4 → (solveSlot s n).solve = none → collides s 2 n = false →
      let u := maStart (accept s mb) 2 n
      Does (.slvUnload mb) s { u with sv := { u.sv with reqs := u.sv.reqs ++ [{ slot := n, bytes := none, mb := mb, persist := false }] } }))

/-- The commands of electrical metering on QG64-M40, and their refusal on QG64-C40: reads and signed readings of a point in use, which wait for a tick end; the newest record; losses and their acknowledgement; a calibration from its begin to its commit or cancel; the watch's records (10 R308, R309, R310, Table 10-11). -/
def Obligations.MeteringCommandsAnswer : Prop :=
  (∀ (s : State) (mb : Nat) (row : Nat × (Nat → Instr)), row ∈ mailboxRows → 0x0700 ≤ row.1 → row.1 ≤ 0x073F → Taken s mb row.1 →
    s.part.m40 = false → s.mt.reads = [] → Refuses (row.2 mb) s mb 0x8006) ∧
  (∀ (s : State) (mb : Nat), Taken s mb 0x0701 → s.part.m40 = true → s.mt.reads.any (fun r => r.1 == mb) = false →
    let p := (box s mb).arg0.toNat
    ((p < 1 ∨ 12 < p) → Refuses (.mtrRead mb) s mb 0x8003) ∧
    (1 ≤ p → p ≤ 12 → pointInUse s p = false → Refuses (.mtrRead mb) s mb 0x8006) ∧
    (1 ≤ p → p ≤ 12 → pointInUse s p = true → Does (.mtrRead mb) s { s with mt := { s.mt with reads := s.mt.reads ++ [(mb, false, p - 1)] } })) ∧
  (∀ (s : State) (mb : Nat), Taken s mb 0x0702 → s.part.m40 = true →
    let p := (box s mb).arg0.toNat
    let u := accept s mb
    ((p < 1 ∨ 12 < p) → Refuses (.mtrReadSigned mb) s mb 0x8003) ∧
    (1 ≤ p → p ≤ 12 → (keysOn s = false ∨ pointInUse s p = false) → Refuses (.mtrReadSigned mb) s mb 0x8006) ∧
    (1 ≤ p → p ≤ 12 → keysOn s = true → pointInUse s p = true → slotBad s 0 = true → Refuses (.mtrReadSigned mb) s mb 0x800C) ∧
    (1 ≤ p → p ≤ 12 → keysOn s = true → pointInUse s p = true → slotBad s 0 = false → Does (.mtrReadSigned mb) s
      { u with mt := { s.mt with readings := s.mt.readings ++ [{ mb := mb, heat := false, object := p - 1, taken := none }] } })) ∧
  (∀ (s : State) (mb : Nat), Taken s mb 0x0703 → s.part.m40 = true →
    (s.mt.newest = none → Refuses (.mtrRecord mb) s mb 0x8001) ∧
    (∀ b, s.mt.newest = some b → Answers (.mtrRecord mb) s mb { Reply.ok with page := slice b 0 1760 ++ pageBytes s 5 1552 })) ∧
  (∀ (s : State) (mb : Nat), Taken s mb 0x0704 → s.part.m40 = true →
    Answers (.mtrLoss mb) s mb { Reply.ok with res0 := b2n s.mt.tailLost + 2 * b2n s.mt.latchLost, page := lossBytes s }) ∧
  (∀ (s : State) (mb : Nat), Taken s mb 0x0705 → s.part.m40 = true →
    Does (.mtrAckLoss mb) s (finish (setPage0 { s with mt := { s.mt with tailLost := false, latchLost := false } } 8 4 0) mb Reply.ok)) ∧
  (∀ (s : State) (mb : Nat), Taken s mb 0x0710 → s.part.m40 = true →
    let mask := (box s mb).arg0.toNat
    let unused := (List.range 12).any (fun m => mask.testBit m && !pointInUse s (m + 1))
    ((mask = 0 ∨ 4096 ≤ mask) → Refuses (.mtrCalBegin mb) s mb 0x8003) ∧
    (1 ≤ mask → mask < 4096 → collides s 10 0 = true → Refuses (.mtrCalBegin mb) s mb 0x8004) ∧
    (1 ≤ mask → mask < 4096 → collides s 10 0 = false → unused = true → Refuses (.mtrCalBegin mb) s mb 0x8006) ∧
    (1 ≤ mask → mask < 4096 → collides s 10 0 = false → unused = false →
      Does (.mtrCalBegin mb) s (finish (maStart { s with mt := { s.mt with calMask := mask } } 10 0) mb Reply.ok))) ∧
  (∀ (s : State) (mb : Nat), Taken s mb 0x0711 → s.part.m40 = true →
    let b := box s mb
    let e : CalEntry := { gain := b.arg1, phase := b.arg2.toNat }
    ((48 ≤ b.arg0.toNat ∨ e.ok = false) → Refuses (.mtrCalSet mb) s mb 0x8003) ∧
    (b.arg0.toNat < 48 → e.ok = true → (runs s 10 = false ∨ channelUnderCal s b.arg0.toNat = false) → Refuses (.mtrCalSet mb) s mb 0x8006) ∧
    (b.arg0.toNat < 48 → e.ok = true → runs s 10 = true → channelUnderCal s b.arg0.toNat = true → Does (.mtrCalSet mb) s
      (finish { s with mt := { s.mt with calWorking := setD { gain := 0x3F800000, phase := 0 } s.mt.calWorking b.arg0.toNat e } } mb Reply.ok))) ∧
  (∀ (s : State) (mb : Nat), Taken s mb 0x0712 → s.part.m40 = true →
    let p := (box s mb).arg0.toNat
    let n := (box s mb).arg1.toNat
    let u := accept s mb
    ((p < 1 ∨ 12 < p ∨ n < 1 ∨ 60 < n) → Refuses (.mtrCalMeasure mb) s mb 0x8003) ∧
    (1 ≤ p → p ≤ 12 → 1 ≤ n → n ≤ 60 → (runs s 10 = false ∨ s.mt.calMask.testBit (p - 1) = false) → Refuses (.mtrCalMeasure mb) s mb 0x8006) ∧
    (1 ≤ p → p ≤ 12 → 1 ≤ n → n ≤ 60 → runs s 10 = true → s.mt.calMask.testBit (p - 1) = true → Does (.mtrCalMeasure mb) s
      { u with mt := { s.mt with measures := s.mt.measures ++ [{ mb := mb, point := p - 1, left := n, seconds := [] }] } })) ∧
  (∀ (s : State) (mb : Nat), Taken s mb 0x0713 → s.part.m40 = true →
    ((runs s 10 = false ∨ ctrRefuses s 0 = true) → Refuses (.mtrCalCommit mb) s mb 0x8006) ∧
    (runs s 10 = true → ctrRefuses s 0 = false → s.pwr.vhold < 27000 → Refuses (.mtrCalCommit mb) s mb 0x800A) ∧
    (runs s 10 = true → ctrRefuses s 0 = false → 27000 ≤ s.pwr.vhold →
      let u := abortMeasures (accept { s with mt := { s.mt with calStored := s.mt.calWorking, calValid := true } } mb)
      let v := ownerWrite u { page := 10, off := 0, bytes := calBytes s.mt.calWorking, head := { fmt := 1, len := 384, w0 := 0, w1 := 0, w2 := 0 }, store := true }
      Does (.mtrCalCommit mb) s (requestInc v 0 (.calibration mb)))) ∧
  (∀ (s : State) (mb : Nat), Taken s mb 0x0714 → s.part.m40 = true →
    (runs s 10 = false → Refuses (.mtrCalCancel mb) s mb 0x8006) ∧
    (runs s 10 = true → Does (.mtrCalCancel mb) s
      (maEnd (finish (abortMeasures { s with mt := { s.mt with calWorking := s.mt.calStored, calMask := 0 } }) mb Reply.ok) 10 0 stOk))) ∧
  (∀ (s : State) (mb : Nat), Taken s mb 0x0720 → s.part.m40 = true →
    let totals := (List.range 4).flatMap (fun i => (List.range 3).flatMap (fun p =>
      natLe 4 (match (watchedPoints s)[i]? with | some m => getD 0 s.mt.watchTotals (3 * m + p) | none => 0)))
    let head := natLe 8 s.mt.watchStart ++ natLe 8 s.mt.watchEnd ++ natLe 4 s.mt.watchOver ++ natLe 4 s.mt.watchRing.length ++ natLe 8 0
    Does (.mtrWatchRead mb) s (deliver s mb Reply.ok (head ++ totals ++ s.mt.watchRing.flatMap id) (mcc s))) ∧
  (∀ (s : State) (mb : Nat), Taken s mb 0x0721 → s.part.m40 = true → Does (.mtrWatchClear mb) s
    (finish { s with mt := { s.mt with watchRing := [], watchTotals := [], watchStart := 0, watchEnd := 0, watchOver := 0 } } mb Reply.ok))

/-- The commands of the heat quantities: in RUN a read waits for the next heat step, outside RUN it is answered at once; a signed reading; the newest record; losses acknowledged and kept in page 0 (11 R328 to R330, Table 11-6). -/
def Obligations.HeatCommandsAnswer : Prop :=
  (∀ (s : State) (mb : Nat), Taken s mb 0x0741 → s.mt.reads.any (fun r => r.1 == mb) = false →
    let n := (box s mb).arg0.toNat
    (32 ≤ n → Refuses (.hqRead mb) s mb 0x8003) ∧
    (n < 32 → heatInUse s n = false → Refuses (.hqRead mb) s mb 0x8006) ∧
    (n < 32 → heatInUse s n = true → inRun s = true → Does (.hqRead mb) s { s with mt := { s.mt with reads := s.mt.reads ++ [(mb, true, n)] } }) ∧
    (n < 32 → heatInUse s n = true → inRun s = false → Answers (.hqRead mb) s mb { Reply.ok with page := heatRegisters s n })) ∧
  (∀ (s : State) (mb : Nat), Taken s mb 0x0742 →
    let n := (box s mb).arg0.toNat
    let u := accept s mb
    (32 ≤ n → Refuses (.hqReadSigned mb) s mb 0x8003) ∧
    (n < 32 → (keysOn s = false ∨ heatInUse s n = false) → Refuses (.hqReadSigned mb) s mb 0x8006) ∧
    (n < 32 → keysOn s = true → heatInUse s n = true → slotBad s 0 = true → Refuses (.hqReadSigned mb) s mb 0x800C) ∧
    (n < 32 → keysOn s = true → heatInUse s n = true → slotBad s 0 = false → Does (.hqReadSigned mb) s
      { u with mt := { s.mt with readings := s.mt.readings ++ [{ mb := mb, heat := true, object := n, taken := none }] } })) ∧
  (∀ (s : State) (mb : Nat), Taken s mb 0x0743 →
    (s.mt.newestHeat = none → Refuses (.hqRecord mb) s mb 0x8001) ∧
    (∀ b, s.mt.newestHeat = some b → Answers (.hqRecord mb) s mb { Reply.ok with page := slice b 0 2592 })) ∧
  (∀ (s : State) (mb : Nat), Taken s mb 0x0744 →
    let u := (List.range 32).foldl (fun s n => setHeat s n { heatOf s n with latchLost := false, lossEst := 0 }) s
    Does (.hqAckLoss mb) s (finish (saveHeatLosses u) mb Reply.ok))

/-- The time commands: the second shown, the fraction and NT; a new time or a step, which waits for the next tick edge; the alarm armed or disarmed, at once late where its time is past; the trim code (13 Table 13-12, 14 R376, R382, R383, R388). -/
def Obligations.TimeCommandsAnswer : Prop :=
  (∀ (s : State) (mb : Nat), Taken s mb 0x0801 →
    let x := shownSecond s.rtc.tick s.rtc.beyond
    Answers (.timeGet mb) s mb { Reply.ok with
      res0 := dateWord x, res1 := timeWord x, res2 := b2n (timeValid s), res3 := s.rtc.tick % 32768, page := natLe 8 s.rtc.tick ++ natLe 8 s.clk.nt }) ∧
  (∀ (s : State) (mb : Nat), Taken s mb 0x0802 → s.rtc.change = none →
    let a := (box s mb).arg0
    let b := (box s mb).arg1
    (2 ^ 24 ≤ b.toNat → Refuses (.timeSet mb) s mb 0x8003) ∧
    (b.toNat < 2 ^ 24 → packedSecond a b = none → Refuses (.timeSet mb) s mb 0x8009) ∧
    (∀ x, b.toNat < 2 ^ 24 → packedSecond a b = some x → Does (.timeSet mb) s
      { s with rtc := { s.rtc with change := some { adjust := false, value := (x * 32768 : Nat), mb := mb } } })) ∧
  (∀ (s : State) (mb : Nat), Taken s mb 0x0803 → s.rtc.change = none →
    let step := toSigned 64 ((box s mb).arg0.toNat + 2 ^ 32 * (box s mb).arg1.toNat)
    let inRange := -(2 ^ 47 : Int) ≤ step ∧ step ≤ 2 ^ 47
    let fits := 0 ≤ (s.rtc.tick : Int) + 1 + step ∧ (s.rtc.tick : Int) + 1 + step < calendarEnd
    (¬inRange → Refuses (.timeAdjust mb) s mb 0x8003) ∧
    (inRange → ¬fits → Refuses (.timeAdjust mb) s mb 0x8009) ∧
    (inRange → fits → Does (.timeAdjust mb) s { s with rtc := { s.rtc with change := some { adjust := true, value := step, mb := mb } } })) ∧
  (∀ (s : State) (mb : Nat), Taken s mb 0x0804 →
    let a := (box s mb).arg0
    let b := (box s mb).arg1
    let op := (box s mb).arg2
    ((2 ^ 24 ≤ b.toNat ∨ 1 < op.toNat) → Refuses (.alarmSet mb) s mb 0x8003) ∧
    (b.toNat < 2 ^ 24 → op = 0 → Does (.alarmSet mb) s (finish { s with rtc := { s.rtc with armed := false, lateArm := false } } mb Reply.ok)) ∧
    (b.toNat < 2 ^ 24 → op = 1 → packedSecond a b = none → Refuses (.alarmSet mb) s mb 0x8009) ∧
    (∀ x, b.toNat < 2 ^ 24 → op = 1 → packedSecond a b = some x → Does (.alarmSet mb) s
      (finish { s with rtc := { s.rtc with alarm := x * 32768, armed := true, lateArm := decide (x * 32768 ≤ s.rtc.tick) } } mb Reply.ok))) ∧
  (∀ (s : State) (mb : Nat), Taken s mb 0x0805 →
    let c := (box s mb).arg0.toNat
    (63 < c → Refuses (.timeTrim mb) s mb 0x8003) ∧
    (c ≤ 63 → Does (.timeTrim mb) s
      (finish (setPage0 { s with rtc := { s.rtc with trimNew := some c } } 4 4 c) mb { Reply.ok with res0 := s.rtc.trimNew.getD s.rtc.trim })))

/-- The store's and the recorder's commands: a store of pages that are not in store, its headers, the counters; records from a SEQ on, OVERWRITTEN below the oldest; the excerpt; the configuration of a code (13 Tables 13-13 and 13-15, 15 R393, R403, 18 R454, R459). -/
def Obligations.StoreAndRecorderCommandsAnswer : Prop :=
  (∀ (s : State) (mb : Nat), Taken s mb 0x0901 →
    let pages := pagesOf ((box s mb).arg0.toNat + 2 ^ 32 * (box s mb).arg1.toNat)
    (s.pwr.recalling = true → Refuses (.rsStore mb) s mb 0x8001) ∧
    (s.pwr.recalling = false → pages = [] → Refuses (.rsStore mb) s mb 0x8003) ∧
    (s.pwr.recalling = false → pages ≠ [] → pages.any (beingStored s) = true → Refuses (.rsStore mb) s mb 0x8005) ∧
    (s.pwr.recalling = false → pages ≠ [] → pages.any (beingStored s) = false → Does (.rsStore mb) s
      (requestStores (maStart (accept s mb) 5 0) pages (.mailbox mb)))) ∧
  (∀ (s : State) (mb : Nat), Taken s mb 0x0902 →
    (s.pwr.recalling = true → Refuses (.rsInfo mb) s mb 0x8001) ∧
    (s.pwr.recalling = false → Answers (.rsInfo mb) s mb { Reply.ok with page := (List.range 64).flatMap (infoHeader s) })) ∧
  (∀ (s : State) (mb : Nat), Taken s mb 0x0903 →
    (s.pwr.recalling = true → Refuses (.ctrRead mb) s mb 0x8001) ∧
    (s.pwr.recalling = false → 256 ≤ (box s mb).arg0.toNat → Refuses (.ctrRead mb) s mb 0x8003) ∧
    (s.pwr.recalling = false → (box s mb).arg0.toNat < 256 → Answers (.ctrRead mb) s mb { Reply.ok with res0 := ctrValue s (box s mb).arg0.toNat })) ∧
  (∀ (s : State) (mb : Nat), Taken s mb 0x0B01 →
    let f := (box s mb).arg0.toNat + 2 ^ 32 * (box s mb).arg1.toNat
    let n := (box s mb).arg2.toNat
    ((n < 1 ∨ 65536 < n) → Refuses (.evrRead mb) s mb 0x8003) ∧
    (1 ≤ n → n ≤ 65536 → s.ev.new ≤ f → Does (.evrRead mb) s (deliver s mb Reply.ok [] (s.ev.new % 2 ^ 32))) ∧
    (1 ≤ n → n ≤ 65536 → f < s.ev.new → f < s.ev.oldest →
      Answers (.evrRead mb) s mb { Reply.of 0x800D with res0 := s.ev.oldest, res1 := s.ev.oldest / 2 ^ 32 }) ∧
    (1 ≤ n → n ≤ 65536 → f < s.ev.new → s.ev.oldest ≤ f → Does (.evrRead mb) s (deliver s mb Reply.ok
      ((List.range (Nat.min n (s.ev.new - f))).flatMap (fun i => match s.ev.recordAt (f + i) with | some r => r.bytes | none => [])) (f % 2 ^ 32)))) ∧
  (∀ (s : State) (mb : Nat), Taken s mb 0x0B02 → Does (.evrExcerpt mb) s (deliver s mb Reply.ok ((excerptRecords s).flatMap id) (mcc s))) ∧
  (∀ (s : State) (mb : Nat), Taken s mb 0x0B03 →
    let c := (box s mb).arg0.toNat
    (codeConfigured s c = false → Refuses (.evrCode mb) s mb 0x8003) ∧
    (codeConfigured s c = true → Answers (.evrCode mb) s mb { Reply.ok with
      res0 := (eventOf s c 0).mode, res1 := (eventOf s c 0).rint, res2 := (eventOf s c 0).depth, res3 := getD 0 s.ev.suppressed c }))

/-- The key commands with keys enabled, and their refusal with keys disabled: the slots as KEY_INFO shows them; a wrapped key staged where its fields, the slot and its tag hold; its check value verified; its commit, at once or with the line's; its discard; a signed statement, and a public key (13 Table 13-14, 17 R425, R434 to R438). A free value fills what the manual does not state (notes/assumptions/35). -/
def Obligations.KeyCommandsAnswer : Prop :=
  (∀ (s : State) (mb : Nat), Taken s mb 0x0A01 → Does (.keyInfo mb) s
    (finish { s with free := s.free + 66 } mb { Reply.ok with page := (List.range 64).flatMap (slotEntry s), res0 := b2n (keysOn s) })) ∧
  (∀ (s : State) (mb : Nat), keysOn s = false →
    (Taken s mb 0x0A02 → Refuses (.keyStage mb) s mb 0x8006) ∧ (Taken s mb 0x0A03 → Refuses (.keyVerify mb) s mb 0x8006) ∧
    (Taken s mb 0x0A04 → Refuses (.keyCommit mb) s mb 0x8006) ∧ (Taken s mb 0x0A05 → Refuses (.keyDiscard mb) s mb 0x8006) ∧
    (Taken s mb 0x0A06 → Refuses (.attest mb) s mb 0x8006) ∧ (Taken s mb 0x0A07 → Refuses (.keyPublic mb) s mb 0x8006)) ∧
  (∀ (s : State) (mb : Nat), Taken s mb 0x0A02 → keysOn s = true →
    let slot := (box s mb).arg0.toNat
    let p := (box s mb).request
    let fields := (box s mb).reqLen = 144 ∧ wrappedOk slot p = true
    (¬fields → Refuses (.keyStage mb) s mb 0x8003) ∧
    (fields → s.ks.staged.isSome = true → Refuses (.keyStage mb) s mb 0x8005) ∧
    (fields → s.ks.staged = none → collides s 6 slot = true → Refuses (.keyStage mb) s mb 0x8004) ∧
    (fields → s.ks.staged = none → collides s 6 slot = false → slotBad s 2 = true → Refuses (.keyStage mb) s mb 0x800C) ∧
    (fields → s.ks.staged = none → collides s 6 slot = false → slotBad s 2 = false → unwrapKey s slot p = none → Refuses (.keyStage mb) s mb 0x8007) ∧
    (∀ k, fields → s.ks.staged = none → collides s 6 slot = false → slotBad s 2 = false → unwrapKey s slot p = some k → Does (.keyStage mb) s
      (maStart (finish { s with ks := { s.ks with staged := some { slot := slot, key := k, verified := false } } } mb Reply.ok) 6 slot))) ∧
  (∀ (s : State) (mb : Nat), keysOn s = true → s.ks.staged = none →
    (Taken s mb 0x0A03 → Refuses (.keyVerify mb) s mb 0x8006) ∧ (Taken s mb 0x0A04 → Refuses (.keyCommit mb) s mb 0x8006) ∧
    (Taken s mb 0x0A05 → Refuses (.keyDiscard mb) s mb 0x8006)) ∧
  (∀ (s : State) (mb : Nat) (k : StagedKey), keysOn s = true → s.ks.staged = some k →
    let named := (box s mb).arg0.toNat = k.slot
    (¬named → (Taken s mb 0x0A03 → Refuses (.keyVerify mb) s mb 0x8006) ∧ (Taken s mb 0x0A04 → Refuses (.keyCommit mb) s mb 0x8006) ∧
      (Taken s mb 0x0A05 → Refuses (.keyDiscard mb) s mb 0x8006)) ∧
    (named → Taken s mb 0x0A03 → checkValue k.key = (box s mb).arg1.toNat % 2 ^ 24 →
      Does (.keyVerify mb) s (finish { s with ks := { s.ks with staged := some { k with verified := true } } } mb Reply.ok)) ∧
    (named → Taken s mb 0x0A03 → checkValue k.key ≠ (box s mb).arg1.toNat % 2 ^ 24 → Refuses (.keyVerify mb) s mb 0x8007) ∧
    (named → Taken s mb 0x0A04 →
      let u := accept { s with ks := { s.ks with commit := some { slot := k.slot, mb := mb, since := s.clk.nt } } } mb
      (k.verified = false → Refuses (.keyCommit mb) s mb 0x8006) ∧
      (k.verified = true → lineNames s k.slot = true → Does (.keyCommit mb) s u) ∧
      (k.verified = true → lineNames s k.slot = false → Does (.keyCommit mb) s (replyTo u mb Reply.ok))) ∧
    (named → Taken s mb 0x0A05 → Does (.keyDiscard mb) s
      (maEnd (finish { s with ks := { s.ks with staged := none } } mb Reply.ok) 6 k.slot stOk))) ∧
  (∀ (s : State) (mb : Nat), Taken s mb 0x0A06 → keysOn s = true →
    let st := statement s (box s mb)
    (slotBad s 1 = true → Refuses (.attest mb) s mb 0x800C) ∧
    (slotBad s 1 = false → Does (.attest mb) s (replyTo (accept { s with free := s.free + 17 } mb) mb { Reply.ok with
      page := st ++ ecdsaSign attestKey (sha256 st) ++ natLe 4 Config.certificate.length ++ Config.certificate }))) ∧
  (∀ (s : State) (mb : Nat), Taken s mb 0x0A07 → keysOn s = true →
    let n := (box s mb).arg0.toNat
    let p := publicKey (if n = 0 then meterSignKey s else attestKey)
    (2 ≤ n → Refuses (.keyPublic mb) s mb 0x8003) ∧
    (n < 2 → slotBad s n = true → Refuses (.keyPublic mb) s mb 0x800C) ∧
    (n < 2 → slotBad s n = false → Answers (.keyPublic mb) s mb { Reply.ok with page := keyId p ++ p }))

/-- The maintenance and replay commands: the activities that run; a capture of the next boundary and the snapshot captured; a replay of the captured snapshot, or of one uploaded in pieces or by DMA, whose image set is the one in force; records fed, at most two waiting; a replayed cycle's outputs; and the end of the replay (13 Table 13-16, 01 R40 to R47, 19 R476). -/
def Obligations.MaintenanceAndReplayCommandsAnswer : Prop :=
  (∀ (s : State) (mb : Nat), Taken s mb 0x0C01 → Answers (.maStatus mb) s mb { Reply.ok with
    res0 := packBits ((List.range 11).map (fun i => runs s (i + 1))), res1 := s.rp.count }) ∧
  (∀ (s : State) (mb : Nat), Taken s mb 0x0C02 →
    let u := accept s mb
    (s.rp.capture.isSome = true → Refuses (.rplCapture mb) s mb 0x8005) ∧
    (s.rp.capture = none → Does (.rplCapture mb) s { u with rp := { s.rp with capture := some mb } })) ∧
  (∀ (s : State) (mb : Nat), Taken s mb 0x0C03 →
    (s.rp.captured = none → Refuses (.rplSnapGet mb) s mb 0x8001) ∧
    (∀ x, s.rp.captured = some x → Does (.rplSnapGet mb) s (deliver s mb Reply.ok x.bytes x.cycle))) ∧
  (∀ (s : State) (mb : Nat), Taken s mb 0x0C04 →
    let b := box s mb
    let x := takePiece s mb 16 0
    (1 < b.arg0.toNat → Refuses (.rplStart mb) s mb 0x8003) ∧
    (b.arg0 = 0 → (b.arg1 ≠ 0 ∨ b.arg2 ≠ 0) → Refuses (.rplStart mb) s mb 0x8003) ∧
    (b.arg0 = 0 → b.arg1 = 0 → b.arg2 = 0 → collides s 11 0 = true → Refuses (.rplStart mb) s mb 0x8004) ∧
    (b.arg0 = 0 → b.arg1 = 0 → b.arg2 = 0 → collides s 11 0 = false → s.rp.captured = none → Refuses (.rplStart mb) s mb 0x8001) ∧
    (∀ y, b.arg0 = 0 → b.arg1 = 0 → b.arg2 = 0 → collides s 11 0 = false → s.rp.captured = some y →
      (y.digest = imageSetDigest s → Does (.rplStart mb) s (beginReplay (maStart (accept s mb) 11 0) mb y)) ∧
      (y.digest ≠ imageSetDigest s → Refuses (.rplStart mb) s mb 0x8008)) ∧
    (b.arg0 = 1 → b.dmaEn = true → dmaUploadOk b = false → Refuses (.rplStart mb) s mb 0x8003) ∧
    (b.arg0 = 1 → b.dmaEn = true → dmaUploadOk b = true → collides s 11 0 = true → Refuses (.rplStart mb) s mb 0x8004) ∧
    (b.arg0 = 1 → b.dmaEn = true → dmaUploadOk b = true → collides s 11 0 = false →
      Does (.rplStart mb) s (maStart (onBox (accept s mb) mb (fun b => { b with dmaWait := true, dmaSince := s.clk.nt })) 11 0)) ∧
    (b.arg0 = 1 → b.dmaEn = false → x.status ≠ 0 → Does (.rplStart mb) s (refuse x.state mb x.status)) ∧
    (b.arg0 = 1 → b.dmaEn = false → x.status = 0 → x.whole = none → Does (.rplStart mb) s (replyTo (accept x.state mb) mb Reply.ok)) ∧
    (∀ bs, b.arg0 = 1 → b.dmaEn = false → x.status = 0 → x.whole = some bs →
      (collides x.state 11 0 = true → Does (.rplStart mb) s (refuse x.state mb 0x8004)) ∧
      (collides x.state 11 0 = false → snapshotFrom bs = none → Does (.rplStart mb) s (refuse x.state mb 0x8003)) ∧
      (∀ y, collides x.state 11 0 = false → snapshotFrom bs = some y →
        (y.digest = imageSetDigest x.state → Does (.rplStart mb) s (beginReplay (maStart (accept x.state mb) 11 0) mb y)) ∧
        (y.digest ≠ imageSetDigest x.state → Does (.rplStart mb) s (refuse x.state mb 0x8008))))) ∧
  (∀ (s : State) (mb : Nat), Taken s mb 0x0C05 →
    let b := box s mb
    let x := takePiece s mb 17 0
    (runs s 11 = false → Refuses (.rplFeed mb) s mb 0x8006) ∧
    (runs s 11 = true → 2 ≤ s.rp.feeds.length → Refuses (.rplFeed mb) s mb 0x8005) ∧
    (runs s 11 = true → s.rp.feeds.length < 2 → b.dmaEn = true → dmaUploadOk b = false → Refuses (.rplFeed mb) s mb 0x8003) ∧
    (runs s 11 = true → s.rp.feeds.length < 2 → b.dmaEn = true → dmaUploadOk b = true →
      Does (.rplFeed mb) s (onBox (accept s mb) mb (fun b => { b with dmaWait := true, dmaSince := s.clk.nt }))) ∧
    (runs s 11 = true → s.rp.feeds.length < 2 → b.dmaEn = false → x.status ≠ 0 → Does (.rplFeed mb) s (refuse x.state mb x.status)) ∧
    (runs s 11 = true → s.rp.feeds.length < 2 → b.dmaEn = false → x.status = 0 → x.whole = none →
      Does (.rplFeed mb) s (finish x.state mb { Reply.ok with res0 := x.state.rp.feeds.length })) ∧
    (∀ bs, runs s 11 = true → s.rp.feeds.length < 2 → b.dmaEn = false → x.status = 0 → x.whole = some bs →
      Does (.rplFeed mb) s (finish (queueRecord x.state bs).1 mb (queueRecord x.state bs).2))) ∧
  (∀ (s : State) (mb : Nat), Taken s mb 0x0C06 →
    let k := (box s mb).arg0.toNat
    let w := (box s mb).arg1.toNat
    (5 < w → Refuses (.rplOutput mb) s mb 0x8003) ∧
    (∀ x, w ≤ 5 → s.rp.outputs.find? (fun x => x.cycle == k) = some x →
      (outputBytes s x w = none → Refuses (.rplOutput mb) s mb 0x8001) ∧
      (∀ bs, outputBytes s x w = some bs → Does (.rplOutput mb) s (deliver s mb Reply.ok bs k))) ∧
    (w ≤ 5 → s.rp.outputs = [] → Refuses (.rplOutput mb) s mb 0x8001) ∧
    (∀ x xs, w ≤ 5 → s.rp.outputs = x :: xs → s.rp.outputs.find? (fun x => x.cycle == k) = none →
      ((x.cycle + 2 ^ 32 - k) % 2 ^ 32 < 2 ^ 31 → Refuses (.rplOutput mb) s mb 0x800D) ∧
      (2 ^ 31 ≤ (x.cycle + 2 ^ 32 - k) % 2 ^ 32 → Refuses (.rplOutput mb) s mb 0x8001))) ∧
  (∀ (s : State) (mb : Nat), Taken s mb 0x0C07 →
    let u := accept s mb
    ((runs s 11 = false ∨ s.rp.ending.isSome = true) → Refuses (.rplEnd mb) s mb 0x8006) ∧
    (runs s 11 = true → s.rp.ending = none → Does (.rplEnd mb) s { u with rp := { s.rp with ending := some mb } }))

/-! The host links and the registers. -/

/-- SPI frames and PCI Express requests write and read one register a word, in ascending order, the read effects with it; a frame at an address that is no multiple of 4, a reserved command and an aborted frame are counted, and what was complete of an aborted frame has had its effect; a request outside what BAR0 serves is refused and counted; configuration space and the power state of the function answer while the link is up (12 R334 to R340, Tables 12-2 to 12-4). The link comes up once its training is over, 20 ms after the end of a reset; it goes down by itself, and only the link is reset: transfers stop with DMAERR 5. A vector that owes its message sends it, unless it is masked; VIO_H becoming good is the end of the reset where that is still to come (12 R331, R333, R336, R345, R359). -/
def Obligations.TheHostLinksWork : Prop :=
  (∀ (s : State) (addr : Nat) (words : List Word), spiUp s = true →
    (addr % 4 = 0 → Does (.spiWrite addr words) s (spiWrites s addr words)) ∧
    (addr % 4 ≠ 0 → Does (.spiWrite addr words) s (countSpi s))) ∧
  (∀ (s : State) (addr : Nat), spiWrites s addr [] = s ∧
    ∀ w t, spiWrites s addr (w :: t) = spiWrites (writeReg s addr w) (addr + 4) t) ∧
  (∀ (s : State) (addr count : Nat), spiUp s = true →
    (addr % 4 = 0 → Does (.spiRead addr count) s (answerWords (spiWords count s addr true true).2 (spiWords count s addr true true).1)) ∧
    (addr % 4 ≠ 0 → Does (.spiRead addr count) s (countSpi s))) ∧
  (∀ (s : State) (addr : Nat), (spiWords 1 s addr true true) = ([word (readReg s addr).1], (readReg s addr).2)) ∧
  (∀ (s : State) (command : Nat), spiUp s = true → command ≠ 0x02 → command ≠ 0x0B → Does (.spiReserved command) s (countSpi s)) ∧
  (∀ (s : State) (addr : Nat) (words : List Word), spiUp s = true →
    let r := spiWords (words.length + 1) s addr true true
    (addr % 4 = 0 → Does (.spiFrameAbort false addr words) s (countSpi (spiWrites s addr words)) ∧
      Does (.spiFrameAbort true addr words) s (countSpi (answerWords r.2 (r.1.take words.length)))) ∧
    (∀ isRead, addr % 4 ≠ 0 → Does (.spiFrameAbort isRead addr words) s (countSpi s))) ∧
  (∀ (s : State) (addr count : Nat), pcieUp s = true →
    (barServes s addr count 32 = true → Does (.pcieMemRead addr count) s (answerWords (memRead count s addr).2 (memRead count s addr).1)) ∧
    (barServes s addr count 32 = false → Does (.pcieMemRead addr count) s (refuseRequest s false))) ∧
  (∀ (s : State) (addr : Nat) (words : List (Word × Nat)), pcieUp s = true →
    (barServes s addr words.length 64 = true →
      Does (.pcieMemWrite addr words) s (memWrite { s with link := { s.link with refused := false } } addr words)) ∧
    (barServes s addr words.length 64 = false → Does (.pcieMemWrite addr words) s (refuseRequest s true))) ∧
  (∀ (s : State) (posted : Bool), (refuseRequest s posted).link.refused = true ∧ (refuseRequest s posted).link.rdata = []) ∧
  (∀ (s : State) (addr : Nat) (w : Word × Nat) (t : List (Word × Nat)),
    (w.2 % 16 = 15 → memWrite s addr (w :: t) = memWrite (writeReg s addr w.1) (addr + 4) t) ∧
    (w.2 % 16 ≠ 15 → memWrite s addr (w :: t) = memWrite (countPw s) (addr + 4) t)) ∧
  (∀ (s : State) (offset enables : Nat) (value : Word), pcieUp s = true →
    Does (.pcieConfigAccess false offset value enables) s (answer s (cfgRead s (offset / 4 * 4 % 4096))) ∧
    Does (.pcieConfigAccess true offset value enables) s (cfgWrite { s with link := { s.link with refused := false } } (offset / 4 * 4 % 4096) value enables)) ∧
  (∀ (s : State) (d3 : Bool), pcieUp s = true → Does (.pciePowerState d3) s { s with pcie := { s.pcie with d3 := d3 } }) ∧
  (∀ s : State, s.clk.running = true → s.clk.refOk = true → s.pwr.linkSpi = false → s.pcie.trainFrom ≠ 0 → s.pcie.up = false →
    let u := advanceTo s s.pcie.trainFrom
    Does .pcieLinkUp s (drew { u with pcie := { u.pcie with up := true, slow := (freeWord u).getLsbD 0 } })) ∧
  (∀ (s : State) (why : LinkDown), s.clk.running = true → s.pwr.linkSpi = false →
    Does (.linkDown why) s (dmaStopAll (linkReset s (why == .peRstN)))) ∧
  (∀ (s : State) (hard : Bool), linkReset s hard = { s with pcie := (linkReset s hard).pcie, link := (linkReset s hard).link } ∧
    (linkReset s hard).pcie.up = false ∧ (linkReset s hard).link.msiDue = 0) ∧
  (∀ (s : State) (v : Nat), s.link.msiDue.testBit v = true → pcieUp s = true → s.pcie.d3 = false → busMaster s = true → msiOn s = true →
    let u := { s with link := { s.link with msiDue := setBit s.link.msiDue v false } }
    ((msiMask s).testBit v = false → Does (.msiSend v) s { u with link := { u.link with msi := u.link.msi ++ [msiMessage u v] } }) ∧
    ((msiMask s).testBit v = true → Does (.msiSend v) s { u with pcie := { u.pcie with msiPending := setBit u.pcie.msiPending v true } })) ∧
  (∀ s : State, Does (.vioHChange false) s { s with pwr := { s.pwr with vioH := false } } ∧
    (s.clk.running = true → s.pcie.trainFrom = 0 → Does (.vioHChange true) s { s with
      pwr := { s.pwr with vioH := true, linkSpi := s.pwr.hostsel }, pcie := { s.pcie with trainFrom := s.clk.nt + 20000 } }) ∧
    ((s.clk.running = false ∨ s.pcie.trainFrom ≠ 0) → Does (.vioHChange true) s { s with pwr := { s.pwr with vioH := true } }))

/-- Register accesses with effects of their own: a read of GLB_NT_LO latches the high word, one of GLB_CPL removes the oldest entry, one of RS_WDATA moves WORD on; a write of GLB_IRQ_STAT, EN or MAP sends again what is still pending; RS_CMD and RS_WDATA, the cursor of the recorder, LBW_SEL and LBW_WATCH take their writes; any other register takes a write as its block says, and an address that is no multiple of 4 takes none (00 R12 to R14, 12 R345, R354, Table 12-7, 15 R407, R408, 18 R456, 03 R96 to R98). -/
def Obligations.RegisterAccessesHaveTheirEffects : Prop :=
  (∀ s : State, s.clk.running = true → Does .glbNtLoRead s { s with
    glb := { s.glb with ntHi := s.clk.nt / 2 ^ 32 }, link := { s.link with rdata := [word (s.clk.nt % 2 ^ 32)], refused := false } }) ∧
  (∀ s : State, s.clk.running = true → Does .glbCplRead s { s with
    glb := { s.glb with cpl := s.glb.cpl.drop 1 }, link := { s.link with rdata := [word (cplWord s)], refused := false } }) ∧
  (∀ (s : State) (n tag : Nat) (t : List (Nat × Nat)), s.glb.cpl = (n, tag) :: t → cplWord s = n + 128 + 256 * t.length + 65536 * tag) ∧
  (∀ s : State, s.glb.cpl = [] → cplWord s = 0) ∧
  (∀ (s : State) (v : Word), s.clk.running = true →
    Does (.glbIrqStatWrite v) s (resendAll { s with glb := { s.glb with irqW1c := s.glb.irqW1c ^^^ (s.glb.irqW1c &&& (v.toNat &&& 0x58FFFF)) } }) ∧
    Does (.glbIrqEnWrite v) s (resendAll { s with glb := { s.glb with irqEn := v.toNat % 2 ^ 23 } }) ∧
    Does (.glbIrqMapWrite v) s (resendAll { s with glb := { s.glb with irqMap := v.toNat % 2 ^ 24 } })) ∧
  (∀ s : State, s.clk.running = true → Does .rsWdataRead s { s with
    rs := { s.rs with word := (s.rs.word + 1) % 2048 }, link := { s.link with rdata := [word (windowWord s)], refused := false } }) ∧
  (∀ (s : State) (v : Word), s.clk.running = true → 12 ≤ s.rs.page → s.rs.page ≤ 15 → beingStored s s.rs.page = false → s.pwr.recalling = false →
    Does (.rsWdataWrite v) s { s with rs := { s.rs with
      work := writeBytes s.rs.work (pageBase s.rs.page + 4 * s.rs.word) (natLe 4 v.toNat), dirty := setBit s.rs.dirty s.rs.page true
      word := (s.rs.word + 1) % 2048 } }) ∧
  (∀ (s : State) (v : Word), s.clk.running = true → (s.rs.page < 12 ∨ 15 < s.rs.page ∨ beingStored s s.rs.page = true ∨ s.pwr.recalling = true) →
    Does (.rsWdataWrite v) s { s with rs := { s.rs with errWin := satAdd 16 s.rs.errWin 1, word := (s.rs.word + 1) % 2048 } }) ∧
  (∀ (s : State) (v : Word), s.clk.running = true → Does (.rsCmdStore v) s (writeRsCmd s v) ∧ Does (.rsCmdCtrInc v) s (writeRsCmd s v)) ∧
  (∀ (s : State) (v : Word), s.rs.cmdBusy = false → v.toNat % 16 = 1 → rsCmdReady s = true →
    let pages := (List.range 4).filterMap (fun i => if v.toNat.testBit (8 + i) then some (12 + i) else none)
    let u := maStart { s with rs := { s.rs with cmdBusy := true, cmdOp := 1 } } 5 1
    (pages = [] → writeRsCmd s v = { s with rs := { s.rs with cmdBusy := false, cmdOp := 1, cmdDone := true, cmdStatus := 0x8003 } }) ∧
    (pages.any (beingStored s) = true → writeRsCmd s v = { s with rs := { s.rs with cmdBusy := false, cmdOp := 1, cmdDone := true, cmdStatus := 0x8005 } }) ∧
    (pages ≠ [] → pages.any (beingStored s) = false → writeRsCmd s v = afterRsCmd u (requestStores u pages .rsCmd))) ∧
  (∀ (s : State) (v : Word), (s.rs.cmdBusy = true ∨ 3 ≤ v.toNat % 16) →
    writeRsCmd s v = { s with rs := { s.rs with errCmd := satAdd 16 s.rs.errCmd 1 } }) ∧
  (∀ (s : State) (v : Word), s.rs.cmdBusy = false → v.toNat % 16 = 2 → rsCmdReady s = true → 128 ≤ bits v.toNat 16 8 → ctrRefuses s (bits v.toNat 16 8) = false →
    writeRsCmd s v = requestInc { s with rs := { s.rs with cmdBusy := true, cmdOp := 2 } } (bits v.toNat 16 8) .rsCmd) ∧
  (∀ (s : State) (v : Word), s.clk.running = true →
    Does (.evrCurHiWrite v) s (evrCleared s { s with ev := { s.ev.loadCursor (s.ev.held + 2 ^ 32 * v.toNat) with heldAt := none } }) ∧
    Does .evrToOldest s (evrCleared s { s with ev := { s.ev with cursor := s.ev.oldest } }) ∧
    Does .evrToNew s (evrCleared s { s with ev := { s.ev with cursor := s.ev.new } })) ∧
  (∀ (s : State) (addr : Nat) (v : Word), s.clk.running = true → Does (.registerWrite addr v) s (writeReg s addr v)) ∧
  (∀ (s : State) (addr : Nat) (v : Word), s.clk.running = false → Does (.registerWrite addr v) s s) ∧
  (∀ (s : State) (addr : Nat) (v : Word), addr % 4 ≠ 0 → writeReg s addr v = s) ∧
  (∀ (s : State) (value : Word), s.clk.running = true →
    Does (.lbwSelWrite value) s { s with lbw := { s.lbw with sel := value &&& 0x1073F, ndat := true } } ∧
    Does (.lbwWatchWrite value) s { s with lbw := { s.lbw with watch := value.toNat % 32, ndat := false } }) ∧
  (∀ (s : State) (v : Word), s.clk.running = false → ∀ c ∈ [Instr.glbNtLoRead, .glbCplRead, .glbIrqStatWrite v, .glbIrqEnWrite v, .glbIrqMapWrite v,
    .rsWdataRead, .rsWdataWrite v, .rsCmdStore v, .rsCmdCtrInc v, .evrCurHiWrite v, .evrToOldest, .evrToNew, .lbwSelWrite v, .lbwWatchWrite v], Does c s s)

/-! The check-value units. -/

/-- START takes INIT and count 0; a byte, a half-word or a word is fed from the unit's registers, low byte first, a word as its bytes in ascending order; no other unit and nothing else changes (16 R412 to R414). -/
def Obligations.CheckValueUnitsFeedTheirBytes : Prop :=
  (∀ (s : State) (unit : Nat), s.clk.running = true → unit < s.cv.length →
    Does (.cvStart unit) s { s with cv := setNth s.cv unit { cvUnit s unit with r := (cvUnit s unit).init % 2 ^ (cvUnit s unit).width, count := 0 } }) ∧
  (∀ (s : State) (unit : Nat) (v : Word), s.clk.running = true → unit < s.cv.length →
    let c := cvUnit s unit
    let b := fun (i : Nat) => BitVec.ofNat 8 (v.toNat / 256 ^ i)
    Does (.cvFeed8 unit v) s { s with cv := setNth s.cv unit (c.feed [b 0]) } ∧
    Does (.cvFeed16 unit v) s { s with cv := setNth s.cv unit (c.feed [b 0, b 1]) } ∧
    Does (.cvFeed32 unit v) s { s with cv := setNth s.cv unit (c.feed [b 0, b 1, b 2, b 3]) } ∧
    (c.feed [b 0, b 1]).r = ((c.feed [b 0]).feed [b 1]).r ∧
    (c.feed [b 0, b 1, b 2, b 3]).r = ((((c.feed [b 0]).feed [b 1]).feed [b 2]).feed [b 3]).r ∧
    (c.feed [b 0, b 1, b 2, b 3]).count = (c.count + 4) % 2 ^ 32)

/-- A write of CV_CFG, CV_POLY or CV_INIT does not change r or CV_COUNT; a change of WIDTH takes r modulo 2^WIDTH of the new width (16 R416). -/
def Obligations.ParametersOfAUnitKeepItsRemainder : Prop :=
  (∀ (s : State) (unit : Nat) (v : Word), s.clk.running = true → unit < s.cv.length →
    let c := cvUnit s unit
    let w := v.toNat % 64
    ((w = 0 ∨ 32 < w) → Does (.cvCfgWrite unit v) s s) ∧
    (1 ≤ w → w ≤ 32 → Does (.cvCfgWrite unit v) s { s with cv := setNth s.cv unit { c with
      width := w, refin := v.toNat.testBit 8, refout := v.toNat.testBit 9, invout := v.toNat.testBit 10, r := c.r % 2 ^ w } })) ∧
  (∀ (c : Cv) (v : Word), (c.write 0x00 v).count = c.count ∧ (c.write 0x04 v) = { c with poly := v.toNat } ∧ (c.write 0x08 v) = { c with init := v.toNat } ∧
    (c.r < 2 ^ c.width → (c.write 0x00 v).width = c.width → (c.write 0x00 v).r = c.r) ∧
    ((c.write 0x00 v).width ≠ c.width → (c.write 0x00 v).r = c.r % 2 ^ (c.write 0x00 v).width)) ∧
  (∀ (c : Cv) (v : Word) (bs : Bytes),
    (c.write 0x08 v).start.r = v.toNat % 2 ^ c.width ∧
    ((c.write 0x04 v).feed bs).r = crcFeed c.width v.toNat c.refin c.r bs ∧
    (1 ≤ v.toNat % 64 → v.toNat % 64 ≤ 32 →
      (c.write 0x00 v).result = crcResult (v.toNat % 64) (v.toNat.testBit 9) (v.toNat.testBit 10) (c.r % 2 ^ (v.toNat % 64))))

/-- The five context registers of a unit, read and written back with CV_CFG first and the other four in any order, give the unit as it was, whatever work had run on it since; with CV_STATE written before CV_CFG bits of it can be lost (16 R417). -/
def Obligations.ARestoredUnitIsAsItWas : Prop :=
  (∀ (c d : Cv), 1 ≤ c.width → c.width ≤ 32 → c.r < 2 ^ c.width → c.poly < 2 ^ 32 → c.init < 2 ^ 32 → c.count < 2 ^ 32 →
    ∀ order : List Nat, order.Perm [0x04, 0x08, 0x20, 0x24] →
      (0x00 :: order).foldl (fun (u : Cv) off => u.write off (BitVec.ofNat 32 (c.read off))) d = c) ∧
  (∃ (c d : Cv), 1 ≤ c.width ∧ c.width ≤ 32 ∧ c.r < 2 ^ c.width ∧
    [0x20, 0x00, 0x04, 0x08, 0x24].foldl (fun (u : Cv) off => u.write off (BitVec.ofNat 32 (c.read off))) d ≠ c)

/-! Time, the store, the recorder, power. -/

/-- A pending set or step takes effect at the next tick edge, with its record, and fires an armed alarm that it reaches; an edge without one counts one tick; an armed alarm fires at its count, at the next edge where it was already past; BEYOND is set at the end of the calendar; 1 ms after its last edge the oscillator has stopped and the count holds, and its first edge after that is an edge like any other; an event of the RTC is recorded, and waits for the next start while the module does not run; the battery is measured in START and each hour of RUN (14 R373 to R376, R382 to R389; notes/assumptions/125). -/
def Obligations.TheTimeBaseTakesItsEvents : Prop :=
  (∀ (s : State) (x : TimeChange), s.rtc.change = some x → s.rtc.oscFail = false → s.clk.running = true → rtcPowered s = true →
    let a := advanceTo s (s.clk.nt + s.rtc.toEdge)
    Does .timeChangeApply s (tickEdge { a with rtc := { s.rtc with acc := a.rtc.acc } })) ∧
  (∀ (s : State) (x : TimeChange), s.rtc.change = some x →
    let t := if x.adjust then (((s.rtc.tick + 1 : Nat) : Int) + x.value).toNat % 2 ^ 48 else x.value.toNat
    let r := { s.rtc with tick := t, trim := s.rtc.trimNew.getD s.rtc.trim, trimNew := none, change := none }
    let b := { s with rtc := if x.adjust then { r with beyond := s.rtc.beyond || decide (s.rtc.tick < calendarEnd ∧ calendarEnd ≤ t) }
                             else { r with valid := true, beyond := false } }
    let c := tellRtc b 0x0180 (twoWords s.rtc.tick ++ twoWords t ++ [word (b2n x.adjust)])
    let fires := s.rtc.armed = true ∧ s.rtc.alarm ≤ t
    let late := decide (s.rtc.alarm < t)
    let d := if fires then fireAlarm c late else { c with rtc := { c.rtc with lateArm := false } }
    ((box d x.mb).state = .exec → x.adjust = true → tickEdge s = finish d x.mb { Reply.ok with res0 := if fires ∧ late = true then 1 else 0 }) ∧
    ((box d x.mb).state = .exec → x.adjust = false → tickEdge s = finish d x.mb { Reply.ok with res0 := s.rtc.tick % 2 ^ 32, res1 := s.rtc.tick / 2 ^ 32 }) ∧
    ((box d x.mb).state ≠ .exec → tickEdge s = d)) ∧
  (∀ s : State, s.rtc.change = none →
    let b := { s with rtc := { s.rtc with
      tick := (s.rtc.tick + 1) % 2 ^ 48, trim := s.rtc.trimNew.getD s.rtc.trim, trimNew := none
      beyond := s.rtc.beyond || decide (s.rtc.tick + 1 = calendarEnd) } }
    (s.rtc.armed = true → s.rtc.alarm ≤ b.rtc.tick → tickEdge s = fireAlarm b (decide (s.rtc.alarm < b.rtc.tick))) ∧
    ((s.rtc.armed = false ∨ b.rtc.tick < s.rtc.alarm) → tickEdge s = { b with rtc := { b.rtc with lateArm := false } })) ∧
  (∀ s : State, s.rtc.armed = true → s.rtc.oscFail = false → rtcPowered s = true → s.rtc.change = none →
    (s.rtc.lateArm = true → Does .alarmFire s (fireAlarm (runToTick s (s.rtc.tick + 1)) true)) ∧
    (s.rtc.lateArm = false → Does .alarmFire s (fireAlarm (runToTick s s.rtc.alarm) false))) ∧
  (∀ (s : State) (late : Bool),
    let r := { s.rtc with alm := true, almLate := late, armed := false, lateArm := false }
    (s.clk.running = true → (fireAlarm s late).rtc = r) ∧
    (s.clk.running = false → fireAlarm s late = { s with rtc := { r with told := s.rtc.told ++ [(0x0181, twoWords s.rtc.alarm ++ [word (b2n late)])] } })) ∧
  (∀ s : State, s.rtc.beyond = false → s.rtc.oscFail = false → rtcPowered s = true →
    let u := runToTick s calendarEnd
    Does .beyondReached s { u with rtc := { u.rtc with beyond := true } }) ∧
  (∀ s : State, s.rtc.oscFail = false → rtcPowered s = true →
    (s.clk.running = true →
      let u := advanceTo s (s.clk.nt + 1000 - s.rtc.acc / tickRate s.rtc.trim)
      Does .oscStop s (record { u with rtc := { s.rtc with oscFail := true, valid := false, acc := 0 } } 0x0182 6 [0])) ∧
    (s.clk.running = false →
      Does .oscStop s { s with rtc := { s.rtc with oscFail := true, valid := false, acc := 0, told := s.rtc.told ++ [(0x0182, [0])] } })) ∧
  (∀ s : State, s.rtc.oscFail = true → rtcPowered s = true →
    (s.clk.running = true → Does .oscRestart s (tickEdge (record { s with rtc := { s.rtc with oscFail := false, acc := 0 } } 0x0182 6 [1]))) ∧
    (s.clk.running = false →
      Does .oscRestart s (tickEdge { s with rtc := { s.rtc with oscFail := false, acc := 0, told := s.rtc.told ++ [(0x0182, [1])] } }))) ∧
  (∀ (s : State) (mv : Nat), s.clk.running = true → (s.pwr.pstate = 2 ∨ s.pwr.pstate = 3) →
    let u := if s.pwr.pstate = 3 then advanceTo s (s.pwr.batCheckAt + 3600000000) else s
    Does (.batlowCheck mv) s { u with rtc := { u.rtc with batLow := decide (mv < 2500) }, pwr := { u.pwr with batCheckAt := u.clk.nt } })

/-- The RTC block is read through shadows of one instant: a read of a free block freezes it, later reads answer from the shadows, a read of RTC_TICK_HI, a write of the block, or 262 µs release it; RTC_STAT clears ALM and PWRLOSS where 1 is written (14 R378 to R380, Table 14-1). -/
def Obligations.RtcReadsAreOfOneInstant : Prop :=
  (∀ (s : State) (offset : Nat), s.clk.running = true → offset < 0x1C → frozenShadow s = none →
    let f := { s with rtc := { s.rtc with frz := (s.rtc.frz + 1) % 256 } }
    let u := { f with rtc := { f.rtc with shadow := some { regs := rtcLive f, nt := s.clk.nt } } }
    Does (.rtcRegisterRead offset) s (answer u (nth 0 (rtcLive f) (offset / 4)).toNat)) ∧
  (∀ (s : State) (offset : Nat) (x : Shadow), s.clk.running = true → offset < 0x1C → frozenShadow s = some x → s.rtc.shadow = some x →
    Does (.rtcRegisterRead offset) s (answer s (nth 0 x.regs (offset / 4)).toNat)) ∧
  (∀ (s : State) (x : Shadow), s.clk.running = true → frozenShadow s = some x → s.rtc.shadow = some x →
    Does .rtcTickHiRead s (answer { s with rtc := { s.rtc with shadow := none } } (nth 0 x.regs 7).toNat)) ∧
  (∀ s : State, s.clk.running = true → frozenShadow s = none →
    let f := { s with rtc := { s.rtc with frz := (s.rtc.frz + 1) % 256 } }
    Does .rtcTickHiRead s (answer { f with rtc := { f.rtc with shadow := none } } (nth 0 (rtcLive f) 7).toNat)) ∧
  (∀ (s : State) (offset : Nat) (value : Word), s.clk.running = true → 4 ≤ offset →
    Does (.rtcBlockWrite offset value) s { s with rtc := { s.rtc with shadow := none } }) ∧
  (∀ (s : State) (offset : Nat) (value : Word), s.clk.running = true → offset < 4 →
    let u := { s with rtc := { s.rtc with shadow := none, alm := s.rtc.alm && !value.getLsbD 2, pwrLoss := s.rtc.pwrLoss && !value.getLsbD 4 } }
    ((value.getLsbD 2 = true ∧ s.rtc.alm = true) → Does (.rtcBlockWrite offset value) s (resendGroup u 3)) ∧
    (¬(value.getLsbD 2 = true ∧ s.rtc.alm = true) → Does (.rtcBlockWrite offset value) s u)) ∧
  (∀ (s : State) (x : Shadow), s.clk.running = true → s.rtc.shadow = some x →
    let u := advanceTo s (x.nt + 262)
    Does .rtcShadowTimeout s { u with rtc := { u.rtc with shadow := none } })

/-- Recall makes every page at 3.2 ms; a page store ends after 25 µs and its page is in the shadow array; an increment ends after 4 µs with the next cell one higher; VHOLD is measured. The oldest record that waits is written under the next number once it is granted; a code that the recorder takes is offered; a dirty excerpt page is stored after 60 s; the key slots are checked each hour in RUN (15 R393 to R403, 17 R441, 18 R448, R452, R459). -/
def Obligations.StoreAndRecorderGoOn : Prop :=
  (∀ s : State, s.clk.running = true → s.pwr.recalling = true → s.pwr.pstate = 2 → Does .recallComplete s (recallAll (advanceTo s 3200))) ∧
  (∀ (s : State) (c : Storing), s.clk.running = true → s.rs.cur = some c →
    Does .pageStore s (leaveIfStored (afterRsCmd s (completeStore s))) ∧ lookup (completeStore s).rs.shadow c.page = some c.image) ∧
  (∀ (s : State) (i : CtrInc), s.clk.running = true → s.rs.incCur = some i →
    let u := programCell (advanceTo s (i.since + 4)) i.counter
    Does .counterIncrement s (leaveIfStored (kickStore (afterIncrement { u with rs := { u.rs with incCur := none } } i.why)))) ∧
  (∀ (s : State) (c : Nat), getD { value := 0, good := true } (programCell s c).rs.cells (32 * c + (ctrCell s c + 1) % 32) = { value := ctrValue s c + 1, good := true }) ∧
  (∀ (s : State) (mv : Nat), s.clk.running = true →
    Does (.vholdMeasure mv) s { s with pwr := { s.pwr with vhold := mv }, rs := { s.rs with vhold := mv % 65536 } }) ∧
  (∀ (s : State) (code cls source : Nat) (words : List Word), recorderRuns s = true → (code < 0x0800 ∨ 0x0FFF < code) →
    Does (.recordOffer code cls source words) s (offerRecord s s.clk.nt (mcc s) code (recordClass s code cls) source false words)) ∧
  (∀ (s : State) (nt cyc code cls source : Nat) (replay : Bool) (words : List Word),
    let e := eventOf s code cls
    let b := refilled s code e nt
    let free := e.rint = 0 ∨ 4 ≤ cls ∨ code = 0x0170
    let r : Rec := { seq := 0, nt := nt, mcc := cyc, code := code, flags := recFlags cls replay 0 (e.excerpt || code == 0x0170), source := source, body := eventBody b.supp words }
    let u := offerRecord s nt cyc code cls source replay words
    (codeConfigured s code = false → u = s) ∧
    (codeConfigured s code = true → (free ∨ b.tokens ≠ 0) → e.mode ≠ 2 → u.ev.waiting = s.ev.waiting ++ [r]) ∧
    (codeConfigured s code = true → ¬free → b.tokens = 0 →
      u.ev.waiting = s.ev.waiting ∧ getD 0 u.ev.suppressed code = satAdd 32 (getD 0 s.ev.suppressed code) 1)) ∧
  (∀ (s : State) (r : Rec) (t : List Rec), s.ev.waiting = r :: t → recorderRuns s = true → s.ev.started = true → granted s = true →
    Does .recordWrite s (writeRecord { s with ev := { s.ev with waiting := t } } r)) ∧
  (∀ (s : State) (page t : Nat), lookup s.ev.dirtied page = some t → recorderRuns s = true → s.rs.dirty.testBit page = true →
    let u := advanceTo s (t + 60000000)
    Does (.excerptDirtyTimeout page) s (requestStores { u with ev := { u.ev with dirtied := eraseAt u.ev.dirtied page } } [page] .owner)) ∧
  (∀ (s : State) (bad : List (Nat × Nat)), inRun s = true → s.ft.hwsafe = false →
    let u := advanceTo s (s.pwr.slotCheckAt + 3600000000)
    Does (.keySlotCheck bad) s (foundBad { u with pwr := { u.pwr with slotCheckAt := u.clk.nt } } bad))

/-- VIN, VBAT, the resets and the hold sequence: VIN failing in RUN begins the hold sequence, in START, TEST and RECOVERY the store before leaving; the sequence over, or VHOLD below its cut-off, the module is unpowered; VIN coming back, a reset or the expiry of SYS_RESET starts it anew; without VIN a reset waits; the boundary-scan port answers its instructions (19 Tables 19-4 and 19-6, R468 to R475, 14 R374, 20 R489). -/
def Obligations.SuppliesAndResetsMoveTheModule : Prop :=
  (∀ (s : State) (ticks : Nat), s.pwr.vin = false →
    let a := passTicks s ticks
    let b := if a.pwr.pstate = 1 then { a with mt := { a.mt with watchEnd := a.rtc.tick } } else a
    (s.pwr.pstate ≤ 1 → Does (.vinGood ticks) s (coldState { b with pwr := { b.pwr with vin := true } } 2)) ∧
    (2 ≤ s.pwr.pstate → Does (.vinGood ticks) s { s with pwr := { s.pwr with vin := true } })) ∧
  (∀ (s : State) (n : Nat), s.rtc.oscFail = false → rtcPowered s = true → 0 < n → (passTicks s n).rtc.tick = (s.rtc.tick + n) % 2 ^ 48) ∧
  (∀ s : State, s.pwr.vin = true →
    let u := domainCheck { s with pwr := { s.pwr with vin := false } }
    (s.pwr.pstate = 3 → Does .vinFail s (beginHold u)) ∧
    ((s.pwr.pstate = 2 ∨ s.pwr.pstate = 4 ∨ s.pwr.pstate = 5) → s.pwr.leaving = false → Does .vinFail s (beginLeave u)) ∧
    (s.pwr.pstate = 7 → Does .vinFail s (unpowered (finishPrograms (commitCutOff u)) 0)) ∧
    ((s.pwr.pstate = 6 ∨ s.pwr.pstate ≤ 1 ∨ ((s.pwr.pstate = 2 ∨ s.pwr.pstate = 4 ∨ s.pwr.pstate = 5) ∧ s.pwr.leaving = true)) → Does .vinFail s u)) ∧
  (∀ s : State, holdOver s = true → Does .holdEnd s (unpowered (finishPrograms (commitCutOff s)) 0)) ∧
  (∀ (s : State) (p : Nat), (unpowered s p).pwr.pstate = (if s.pwr.vin = true then 2 else p) ∧ (unpowered s p).ft.hwCause = 0 ∧
    (unpowered s p).clk.running = false ∧ (unpowered s p).rs.shadow = s.rs.shadow ∧ (unpowered s p).rs.cells = s.rs.cells) ∧
  (∀ s : State, s.pwr.pstate ≠ 1 → Does .vbatLoss s (domainCheck { s with pwr := { s.pwr with vbat := false } })) ∧
  (∀ s : State, s.pwr.pstate = 1 → Does .vbatLoss s (domainCheck { s with pwr := { s.pwr with vbat := false, pstate := 0, watchStart := none } })) ∧
  (∀ s : State, (rtcPowered s = true → domainCheck s = s) ∧ (rtcPowered s = false → (domainCheck s).rtc = .reset ∧ (domainCheck s).mt.watchRing = [])) ∧
  (∀ s : State, Does .vbatPresent s { s with pwr := { s.pwr with vbat := true } }) ∧
  (∀ s : State, s.pwr.vin = false → 2 ≤ s.pwr.pstate →
    let u := tearPrograms (commitCutOff { s with pwr := { s.pwr with vhold := 8000 } })
    (u.pwr.leaving = true → Does .vholdCutoff s (powerGone u)) ∧ (u.pwr.leaving = false → Does .vholdCutoff s (unpowered u 0))) ∧
  (∀ (s : State) (cause : ResetCause),
    let u := holdReset s cause
    (mayReset u = true → Does (.reset cause) s (coldState (finishPrograms (commitCutOff u)) 2)) ∧
    (mayReset u = false → Does (.reset cause) s u)) ∧
  (∀ (s : State) (t : Nat), s.pwr.sysResetAt = some t → mayReset s = true → s.ft.hwsafe = false →
    Does .sysResetExpiry s (coldState (finishPrograms (commitCutOff (advanceTo s t))) 2)) ∧
  (∀ (s : State) (p : Nat), (coldState s p).pwr.pstate = p ∧ (coldState s p).clk.running = false ∧ (coldState s p).clk.nt = 0 ∧ (coldState s p).mb = State.reset.mb ∧
    (coldState s p).glb = State.reset.glb ∧ (coldState s p).rs.shadow = s.rs.shadow ∧ (coldState s p).rs.cells = s.rs.cells ∧
    (coldState s p).im.flash = s.im.flash ∧ (coldState s p).ks.slots = s.ks.slots ∧ (coldState s p).rtc.tick = s.rtc.tick) ∧
  (∀ s : State,
    Does (.boundaryScanAccess .testReset) s { s with pwr := { s.pwr with extest := false }, link := { s.link with jtag := [] } } ∧
    Does (.boundaryScanAccess .idcode) s { s with pwr := { s.pwr with extest := false }, link := { s.link with jtag := natLe 4 0x1464077D } } ∧
    Does (.boundaryScanAccess .bypass) s { s with pwr := { s.pwr with extest := false }, link := { s.link with jtag := [0] } } ∧
    Does (.boundaryScanAccess .samplePreload) s { s with pwr := { s.pwr with extest := false }, link := { s.link with jtag := [] } } ∧
    (s.pwr.resetN = true → Does (.boundaryScanAccess .extest) s s) ∧
    (s.pwr.resetN = false → Does (.boundaryScanAccess .extest) s { s with pwr := { s.pwr with extest := true }, link := { s.link with jtag := [] } }))

/-- The start: the internal reset is released and the clocks run with NT 0; READY follows the measurement of the firmware, the check of the root and of the slots, and the choice of the configuration image; mailboxes rung before it end with NOT_READY; the stored images come into force, the registers are restored, and the module settles in START, TEST or RECOVERY; with its images in force it is activated when every unit has come up or 1 s has passed (19 R463 to R468, R503, 12 R351, notes/assumptions/13). -/
def Obligations.TheModuleStartsUp : Prop :=
  (∀ (s : State) (hostsel : Bool), s.pwr.pstate = 2 → s.pwr.vin = true → s.clk.running = false →
    let v := drew (passTicks s (freeWord s).toNat)
    let u := { v with
      clk := { s.clk with nt := 0, running := true, refOk := true, pllOk := true }
      pwr := { s.pwr with resetN := true, testmode := false, extest := false, hostsel := hostsel } }
    (s.pwr.vioH = true → Does (.internalResetRelease hostsel) s { u with pwr := { u.pwr with linkSpi := hostsel }, pcie := { u.pcie with trainFrom := 20000 } }) ∧
    (s.pwr.vioH = false → Does (.internalResetRelease hostsel) s u)) ∧
  (∀ (s : State) (rootGood : Nat) (bad : List (Nat × Nat)), starting s = true → s.pwr.ready = false →
    let u := loadTrim (selectConfig (noteDisabled (foundBad (checkRoot (measure s) rootGood) bad)))
    Does (.readyAssert rootGood bad) s (answerEarly { u with pwr := { u.pwr with ready := true, slotCheckAt := u.clk.nt } })) ∧
  (∀ s : State, starting s = true → s.pwr.ready = true → s.pwr.startDone = false →
    let r := loadStored (startRecorder s)
    Does .startupComplete s (settleStart (recordTold (tellHwCause (copyWatch (restoreHeat (restoreMetering (restoreCalibration r.1)))))) r.2)) ∧
  (∀ (s : State) (n : NetImage), s.net.image = some n → waitsForRun s = true →
    (mayActivate s = true → Does .activation s (activate s n)) ∧
    (∀ t, s.pwr.condSince = some t → imagesReady s = true → Does .activationTimeout s (activate (advanceTo s (t + 1000000)) n))) ∧
  (∀ s : State, ∃ t0, (startMatrix s).clk.t0 = some t0 ∧ t0 % 1000 = 0 ∧ s.clk.nt + 25000 ≤ t0 ∧ t0 < s.clk.nt + 26000)
end

