-- ==== Sys2Proof/Laws/Exec.lean ====
section
/-! SUPPORT. Each arm of exec as an equation. -/
namespace Sys2Proof.Machine

theorem exec_boundary (s : State) : exec (.boundary) s = execBoundary s := rfl
theorem exec_safeExitDecision (s : State) : exec (.safeExitDecision) s = execSafeExitDecision s := rfl
theorem exec_fenceHoldExpiry (line : Nat) (s : State) : exec (.fenceHoldExpiry line) s = execFenceHoldExpiry line s := rfl
theorem exec_recoveryWindowExpiry (line : Nat) (s : State) : exec (.recoveryWindowExpiry line) s = execRecoveryWindowExpiry line s := rfl
theorem exec_networkRelease (s : State) : exec (.networkRelease) s = execNetworkRelease s := rfl
theorem exec_fastRelease (s : State) : exec (.fastRelease) s = execFastRelease s := rfl
theorem exec_taskDeadline (task : TaskClass) (s : State) : exec (.taskDeadline task) s = execTaskDeadline task s := rfl
theorem exec_taskStop (task : TaskClass) (s : State) : exec (.taskStop task) s = execTaskStop task s := rfl
theorem exec_barrierRelease (task : TaskClass) (s : State) : exec (.barrierRelease task) s = execBarrierRelease task s := rfl
theorem exec_swapStart (s : State) : exec (.swapStart) s = execSwapStart s := rfl
theorem exec_nop (core : Nat) (s : State) : exec (.nop core) s = execNop core s := rfl
theorem exec_add (core : Nat) (s : State) : exec (.add core) s = execAdd core s := rfl
theorem exec_sub (core : Nat) (s : State) : exec (.sub core) s = execSub core s := rfl
theorem exec_mul (core : Nat) (s : State) : exec (.mul core) s = execMul core s := rfl
theorem exec_div (core : Nat) (s : State) : exec (.div core) s = execDiv core s := rfl
theorem exec_mod (core : Nat) (s : State) : exec (.mod core) s = execMod core s := rfl
theorem exec_abs (core : Nat) (s : State) : exec (.abs core) s = execAbs core s := rfl
theorem exec_neg (core : Nat) (s : State) : exec (.neg core) s = execNeg core s := rfl
theorem exec_min (core : Nat) (s : State) : exec (.min core) s = execMin core s := rfl
theorem exec_max (core : Nat) (s : State) : exec (.max core) s = execMax core s := rfl
theorem exec_limit (core : Nat) (s : State) : exec (.limit core) s = execLimit core s := rfl
theorem exec_sqrt (core : Nat) (s : State) : exec (.sqrt core) s = execSqrt core s := rfl
theorem exec_scale (core : Nat) (s : State) : exec (.scale core) s = execScale core s := rfl
theorem exec_conv (core : Nat) (s : State) : exec (.conv core) s = execConv core s := rfl
theorem exec_cmp (core : Nat) (s : State) : exec (.cmp core) s = execCmp core s := rfl
theorem exec_and (core : Nat) (s : State) : exec (.and core) s = execAnd core s := rfl
theorem exec_or (core : Nat) (s : State) : exec (.or core) s = execOr core s := rfl
theorem exec_xor (core : Nat) (s : State) : exec (.xor core) s = execXor core s := rfl
theorem exec_not (core : Nat) (s : State) : exec (.not core) s = execNot core s := rfl
theorem exec_sel (core : Nat) (s : State) : exec (.sel core) s = execSel core s := rfl
theorem exec_mux (core : Nat) (s : State) : exec (.mux core) s = execMux core s := rfl
theorem exec_sr (core : Nat) (s : State) : exec (.sr core) s = execSr core s := rfl
theorem exec_rs (core : Nat) (s : State) : exec (.rs core) s = execRs core s := rfl
theorem exec_bitget (core : Nat) (s : State) : exec (.bitget core) s = execBitget core s := rfl
theorem exec_bitset (core : Nat) (s : State) : exec (.bitset core) s = execBitset core s := rfl
theorem exec_rtrig (core : Nat) (s : State) : exec (.rtrig core) s = execRtrig core s := rfl
theorem exec_ftrig (core : Nat) (s : State) : exec (.ftrig core) s = execFtrig core s := rfl
theorem exec_ton (core : Nat) (s : State) : exec (.ton core) s = execTon core s := rfl
theorem exec_tof (core : Nat) (s : State) : exec (.tof core) s = execTof core s := rfl
theorem exec_tp (core : Nat) (s : State) : exec (.tp core) s = execTp core s := rfl
theorem exec_tonL (core : Nat) (s : State) : exec (.tonL core) s = execTonL core s := rfl
theorem exec_ctu (core : Nat) (s : State) : exec (.ctu core) s = execCtu core s := rfl
theorem exec_ctd (core : Nat) (s : State) : exec (.ctd core) s = execCtd core s := rfl
theorem exec_ctud (core : Nat) (s : State) : exec (.ctud core) s = execCtud core s := rfl
theorem exec_ramp (core : Nat) (s : State) : exec (.ramp core) s = execRamp core s := rfl
theorem exec_rate (core : Nat) (s : State) : exec (.rate core) s = execRate core s := rfl
theorem exec_pid (core : Nat) (s : State) : exec (.pid core) s = execPid core s := rfl
theorem exec_pt1 (core : Nat) (s : State) : exec (.pt1 core) s = execPt1 core s := rfl
theorem exec_deadband (core : Nat) (s : State) : exec (.deadband core) s = execDeadband core s := rfl
theorem exec_hyst (core : Nat) (s : State) : exec (.hyst core) s = execHyst core s := rfl
theorem exec_curve (core : Nat) (s : State) : exec (.curve core) s = execCurve core s := rfl
theorem exec_heatcurve (core : Nat) (s : State) : exec (.heatcurve core) s = execHeatcurve core s := rfl
theorem exec_split (core : Nat) (s : State) : exec (.split core) s = execSplit core s := rfl
theorem exec_total (core : Nat) (s : State) : exec (.total core) s = execTotal core s := rfl
theorem exec_getp (core : Nat) (s : State) : exec (.getp core) s = execGetp core s := rfl
theorem exec_putp (core : Nat) (s : State) : exec (.putp core) s = execPutp core s := rfl
theorem exec_qual (core : Nat) (s : State) : exec (.qual core) s = execQual core s := rfl
theorem exec_unitstat (core : Nat) (s : State) : exec (.unitstat core) s = execUnitstat core s := rfl
theorem exec_solveReq (core : Nat) (s : State) : exec (.solveReq core) s = execSolveReq core s := rfl
theorem exec_solveGet (core : Nat) (s : State) : exec (.solveGet core) s = execSolveGet core s := rfl
theorem exec_evrec (core : Nat) (s : State) : exec (.evrec core) s = execEvrec core s := rfl
theorem exec_clock (core : Nat) (s : State) : exec (.clock core) s = execClock core s := rfl
theorem exec_taskDispatch (tile : Nat) (s : State) : exec (.taskDispatch tile) s = execTaskDispatch tile s := rfl
theorem exec_taskComputeDone (tile : Nat) (ctx : Nat) (s : State) : exec (.taskComputeDone tile ctx) s = execTaskComputeDone tile ctx s := rfl
theorem exec_taskRetire (tile : Nat) (ctx : Nat) (s : State) : exec (.taskRetire tile ctx) s = execTaskRetire tile ctx s := rfl
theorem exec_stagingCopy (slot : Nat) (block : Nat) (toBulk : Bool) (s : State) : exec (.stagingCopy slot block toBulk) s = execStagingCopy slot block toBulk s := rfl
theorem exec_solveBackstop (slot : Nat) (s : State) : exec (.solveBackstop slot) s = execSolveBackstop slot s := rfl
theorem exec_basicCycleStart (s : State) : exec (.basicCycleStart) s = execBasicCycleStart s := rfl
theorem exec_referenceFrame (line : Nat) (at_ : Nat) (s : State) : exec (.referenceFrame line at_) s = execReferenceFrame line at_ s := rfl
theorem exec_referenceFrameTimeout (line : Nat) (s : State) : exec (.referenceFrameTimeout line) s = execReferenceFrameTimeout line s := rfl
theorem exec_txWindowStart (line : Nat) (window : TxStart) (s : State) : exec (.txWindowStart line window) s = execTxWindowStart line window s := rfl
theorem exec_txFrameDone (line : Nat) (at_ : Nat) (result : TxResult) (s : State) : exec (.txFrameDone line at_ result) s = execTxFrameDone line at_ result s := rfl
theorem exec_retrySend (line : Nat) (window : Nat) (at_ : Nat) (s : State) : exec (.retrySend line window at_) s = execRetrySend line window at_ s := rfl
theorem exec_injectionSend (line : Nat) (at_ : Nat) (s : State) : exec (.injectionSend line at_) s = execInjectionSend line at_ s := rfl
theorem exec_frameReceived (line : Nat) (at_ : Nat) (frame : Frame) (s : State) : exec (.frameReceived line at_ frame) s = execFrameReceived line at_ frame s := rfl
theorem exec_rxWindowEnd (line : Nat) (window : Nat) (s : State) : exec (.rxWindowEnd line window) s = execRxWindowEnd line window s := rfl
theorem exec_lineError (line : Nat) (kind : Nat) (dataPhase : Bool) (transmitting : Bool) (how : ErrorStep) (s : State) : exec (.lineError line kind dataPhase transmitting how) s = execLineError line kind dataPhase transmitting how s := rfl
theorem exec_lineIntegrated (line : Nat) (s : State) : exec (.lineIntegrated line) s = execLineIntegrated line s := rfl
theorem exec_busOffRecovery (line : Nat) (s : State) : exec (.busOffRecovery line) s = execBusOffRecovery line s := rfl
theorem exec_xcvrFault (line : Nat) (fault : XcvrFault) (s : State) : exec (.xcvrFault line fault) s = execXcvrFault line fault s := rfl
theorem exec_ventEvent (s : State) : exec (.ventEvent) s = execVentEvent s := rfl
theorem exec_diChange (input : Nat) (level : Bool) (at_ : Nat) (s : State) : exec (.diChange input level at_) s = execDiChange input level at_ s := rfl
theorem exec_diFilterExpiry (input : Nat) (s : State) : exec (.diFilterExpiry input) s = execDiFilterExpiry input s := rfl
theorem exec_faultRaised (code : Nat) (cls : Nat) (words : List Word) (s : State) : exec (.faultRaised code cls words) s = execFaultRaised code cls words s := rfl
theorem exec_faultHandling (s : State) : exec (.faultHandling) s = execFaultHandling s := rfl
theorem exec_safeEntryWatchdog (s : State) : exec (.safeEntryWatchdog) s = execSafeEntryWatchdog s := rfl
theorem exec_clockLoss (pll : Bool) (s : State) : exec (.clockLoss pll) s = execClockLoss pll s := rfl
theorem exec_lockstepMismatch (s : State) : exec (.lockstepMismatch) s = execLockstepMismatch s := rfl
theorem exec_poisonedRead (reader : Reader) (addr : Nat) (s : State) : exec (.poisonedRead reader addr) s = execPoisonedRead reader addr s := rfl
theorem exec_scrubPass (s : State) : exec (.scrubPass) s = execScrubPass s := rfl
theorem exec_heartbeat (s : State) : exec (.heartbeat) s = execHeartbeat s := rfl
theorem exec_supWdog (s : State) : exec (.supWdog) s = execSupWdog s := rfl
theorem exec_meterTick (samples : List (List Nat)) (poisoned : List (Nat × Nat × Nat)) (s : State) : exec (.meterTick samples poisoned) s = execMeterTick samples poisoned s := rfl
theorem exec_fundamentalCycle (set : Nat) (period : Nat) (points : List (List Nat)) (s : State) : exec (.fundamentalCycle set period points) s = execFundamentalCycle set period points s := rfl
theorem exec_lockTimeout (set : Nat) (s : State) : exec (.lockTimeout set) s = execLockTimeout set s := rfl
theorem exec_meterSecond (s : State) : exec (.meterSecond) s = execMeterSecond s := rfl
theorem exec_periodicSave (s : State) : exec (.periodicSave) s = execPeriodicSave s := rfl
theorem exec_meteringStop (s : State) : exec (.meteringStop) s = execMeteringStop s := rfl
theorem exec_watchSecond (samples : List (List (List Nat))) (s : State) : exec (.watchSecond samples) s = execWatchSecond samples s := rfl
theorem exec_watchLimit (s : State) : exec (.watchLimit) s = execWatchLimit s := rfl
theorem exec_spiWrite (addr : Nat) (words : List Word) (s : State) : exec (.spiWrite addr words) s = execSpiWrite addr words s := rfl
theorem exec_spiRead (addr : Nat) (count : Nat) (s : State) : exec (.spiRead addr count) s = execSpiRead addr count s := rfl
theorem exec_spiReserved (command : Nat) (s : State) : exec (.spiReserved command) s = execSpiReserved command s := rfl
theorem exec_spiFrameAbort (isRead : Bool) (addr : Nat) (words : List Word) (s : State) : exec (.spiFrameAbort isRead addr words) s = execSpiFrameAbort isRead addr words s := rfl
theorem exec_pcieMemRead (addr : Nat) (count : Nat) (s : State) : exec (.pcieMemRead addr count) s = execPcieMemRead addr count s := rfl
theorem exec_pcieMemWrite (addr : Nat) (words : List (Word × Nat)) (s : State) : exec (.pcieMemWrite addr words) s = execPcieMemWrite addr words s := rfl
theorem exec_pcieConfigAccess (write : Bool) (offset : Nat) (value : Word) (enables : Nat) (s : State) : exec (.pcieConfigAccess write offset value enables) s = execPcieConfigAccess write offset value enables s := rfl
theorem exec_pciePowerState (d3hot : Bool) (s : State) : exec (.pciePowerState d3hot) s = execPciePowerState d3hot s := rfl
theorem exec_linkDown (why : LinkDown) (s : State) : exec (.linkDown why) s = execLinkDown why s := rfl
theorem exec_msiSend (vector : Nat) (s : State) : exec (.msiSend vector) s = execMsiSend vector s := rfl
theorem exec_glbNtLoRead (s : State) : exec (.glbNtLoRead) s = execGlbNtLoRead s := rfl
theorem exec_glbCplRead (s : State) : exec (.glbCplRead) s = execGlbCplRead s := rfl
theorem exec_glbIrqStatWrite (value : Word) (s : State) : exec (.glbIrqStatWrite value) s = execGlbIrqStatWrite value s := rfl
theorem exec_glbIrqEnWrite (value : Word) (s : State) : exec (.glbIrqEnWrite value) s = execGlbIrqEnWrite value s := rfl
theorem exec_glbIrqMapWrite (value : Word) (s : State) : exec (.glbIrqMapWrite value) s = execGlbIrqMapWrite value s := rfl
theorem exec_mbDoorbell (mb : Nat) (at_ : Nat) (s : State) : exec (.mbDoorbell mb at_) s = execMbDoorbell mb at_ s := rfl
theorem exec_mailboxTake (at_ : Nat) (s : State) : exec (.mailboxTake at_) s = execMailboxTake at_ s := rfl
theorem exec_commandCompletion (mb : Nat) (at_ : Nat) (s : State) : exec (.commandCompletion mb at_) s = execCommandCompletion mb at_ s := rfl
theorem exec_dmaTransfer (mb : Nat) (list : List Byte) (data : List Byte) (s : State) : exec (.dmaTransfer mb list data) s = execDmaTransfer mb list data s := rfl
theorem exec_dmaError (mb : Nat) (error : Nat) (done : Nat) (s : State) : exec (.dmaError mb error done) s = execDmaError mb error done s := rfl
theorem exec_dmaCompletionTimeout (mb : Nat) (done : Nat) (s : State) : exec (.dmaCompletionTimeout mb done) s = execDmaCompletionTimeout mb done s := rfl
theorem exec_sysInfo (mb : Nat) (s : State) : exec (.sysInfo mb) s = execSysInfo mb s := rfl
theorem exec_sysState (mb : Nat) (s : State) : exec (.sysState mb) s = execSysState mb s := rfl
theorem exec_sysReset (mb : Nat) (s : State) : exec (.sysReset mb) s = execSysReset mb s := rfl
theorem exec_sysResetExpiry (s : State) : exec (.sysResetExpiry) s = execSysResetExpiry s := rfl
theorem exec_parRead (mb : Nat) (s : State) : exec (.parRead mb) s = execParRead mb s := rfl
theorem exec_parWrite (mb : Nat) (s : State) : exec (.parWrite mb) s = execParWrite mb s := rfl
theorem exec_cfgCommit (mb : Nat) (s : State) : exec (.cfgCommit mb) s = execCfgCommit mb s := rfl
theorem exec_cfgDiscard (mb : Nat) (s : State) : exec (.cfgDiscard mb) s = execCfgDiscard mb s := rfl
theorem exec_imgPut (mb : Nat) (s : State) : exec (.imgPut mb) s = execImgPut mb s := rfl
theorem exec_imgLoad (mb : Nat) (s : State) : exec (.imgLoad mb) s = execImgLoad mb s := rfl
theorem exec_imgInfo (mb : Nat) (s : State) : exec (.imgInfo mb) s = execImgInfo mb s := rfl
theorem exec_fwStage (mb : Nat) (s : State) : exec (.fwStage mb) s = execFwStage mb s := rfl
theorem exec_unitRead (mb : Nat) (s : State) : exec (.unitRead mb) s = execUnitRead mb s := rfl
theorem exec_unitService (mb : Nat) (s : State) : exec (.unitService mb) s = execUnitService mb s := rfl
theorem exec_ptRead (mb : Nat) (s : State) : exec (.ptRead mb) s = execPtRead mb s := rfl
theorem exec_ptDir (mb : Nat) (s : State) : exec (.ptDir mb) s = execPtDir mb s := rfl
theorem exec_ptForce (mb : Nat) (s : State) : exec (.ptForce mb) s = execPtForce mb s := rfl
theorem exec_ptRelease (mb : Nat) (s : State) : exec (.ptRelease mb) s = execPtRelease mb s := rfl
theorem exec_ptForces (mb : Nat) (s : State) : exec (.ptForces mb) s = execPtForces mb s := rfl
theorem exec_lnService (mb : Nat) (s : State) : exec (.lnService mb) s = execLnService mb s := rfl
theorem exec_mxRead (mb : Nat) (s : State) : exec (.mxRead mb) s = execMxRead mb s := rfl
theorem exec_stnRead (mb : Nat) (s : State) : exec (.stnRead mb) s = execStnRead mb s := rfl
theorem exec_ceStatus (mb : Nat) (s : State) : exec (.ceStatus mb) s = execCeStatus mb s := rfl
theorem exec_ceSwap (mb : Nat) (s : State) : exec (.ceSwap mb) s = execCeSwap mb s := rfl
theorem exec_ceSwapCancel (mb : Nat) (s : State) : exec (.ceSwapCancel mb) s = execCeSwapCancel mb s := rfl
theorem exec_ceVarRead (mb : Nat) (s : State) : exec (.ceVarRead mb) s = execCeVarRead mb s := rfl
theorem exec_slvEngineStatus (mb : Nat) (s : State) : exec (.slvEngineStatus mb) s = execSlvEngineStatus mb s := rfl
theorem exec_slvSlots (mb : Nat) (s : State) : exec (.slvSlots mb) s = execSlvSlots mb s := rfl
theorem exec_slvResult (mb : Nat) (s : State) : exec (.slvResult mb) s = execSlvResult mb s := rfl
theorem exec_slvAbort (mb : Nat) (s : State) : exec (.slvAbort mb) s = execSlvAbort mb s := rfl
theorem exec_slvProgramInfo (mb : Nat) (s : State) : exec (.slvProgramInfo mb) s = execSlvProgramInfo mb s := rfl
theorem exec_slvUnload (mb : Nat) (s : State) : exec (.slvUnload mb) s = execSlvUnload mb s := rfl
theorem exec_mtrRead (mb : Nat) (s : State) : exec (.mtrRead mb) s = execMtrRead mb s := rfl
theorem exec_mtrReadSigned (mb : Nat) (s : State) : exec (.mtrReadSigned mb) s = execMtrReadSigned mb s := rfl
theorem exec_mtrRecord (mb : Nat) (s : State) : exec (.mtrRecord mb) s = execMtrRecord mb s := rfl
theorem exec_mtrLoss (mb : Nat) (s : State) : exec (.mtrLoss mb) s = execMtrLoss mb s := rfl
theorem exec_mtrAckLoss (mb : Nat) (s : State) : exec (.mtrAckLoss mb) s = execMtrAckLoss mb s := rfl
theorem exec_mtrCalBegin (mb : Nat) (s : State) : exec (.mtrCalBegin mb) s = execMtrCalBegin mb s := rfl
theorem exec_mtrCalSet (mb : Nat) (s : State) : exec (.mtrCalSet mb) s = execMtrCalSet mb s := rfl
theorem exec_mtrCalMeasure (mb : Nat) (s : State) : exec (.mtrCalMeasure mb) s = execMtrCalMeasure mb s := rfl
theorem exec_mtrCalCommit (mb : Nat) (s : State) : exec (.mtrCalCommit mb) s = execMtrCalCommit mb s := rfl
theorem exec_mtrCalCancel (mb : Nat) (s : State) : exec (.mtrCalCancel mb) s = execMtrCalCancel mb s := rfl
theorem exec_mtrWatchRead (mb : Nat) (s : State) : exec (.mtrWatchRead mb) s = execMtrWatchRead mb s := rfl
theorem exec_mtrWatchClear (mb : Nat) (s : State) : exec (.mtrWatchClear mb) s = execMtrWatchClear mb s := rfl
theorem exec_hqRead (mb : Nat) (s : State) : exec (.hqRead mb) s = execHqRead mb s := rfl
theorem exec_hqReadSigned (mb : Nat) (s : State) : exec (.hqReadSigned mb) s = execHqReadSigned mb s := rfl
theorem exec_hqRecord (mb : Nat) (s : State) : exec (.hqRecord mb) s = execHqRecord mb s := rfl
theorem exec_hqAckLoss (mb : Nat) (s : State) : exec (.hqAckLoss mb) s = execHqAckLoss mb s := rfl
theorem exec_timeGet (mb : Nat) (s : State) : exec (.timeGet mb) s = execTimeGet mb s := rfl
theorem exec_timeSet (mb : Nat) (s : State) : exec (.timeSet mb) s = execTimeSet mb s := rfl
theorem exec_timeAdjust (mb : Nat) (s : State) : exec (.timeAdjust mb) s = execTimeAdjust mb s := rfl
theorem exec_timeChangeApply (s : State) : exec (.timeChangeApply) s = execTimeChangeApply s := rfl
theorem exec_alarmSet (mb : Nat) (s : State) : exec (.alarmSet mb) s = execAlarmSet mb s := rfl
theorem exec_timeTrim (mb : Nat) (s : State) : exec (.timeTrim mb) s = execTimeTrim mb s := rfl
theorem exec_alarmFire (s : State) : exec (.alarmFire) s = execAlarmFire s := rfl
theorem exec_beyondReached (s : State) : exec (.beyondReached) s = execBeyondReached s := rfl
theorem exec_oscStop (s : State) : exec (.oscStop) s = execOscStop s := rfl
theorem exec_oscRestart (s : State) : exec (.oscRestart) s = execOscRestart s := rfl
theorem exec_batlowCheck (millivolts : Nat) (s : State) : exec (.batlowCheck millivolts) s = execBatlowCheck millivolts s := rfl
theorem exec_rtcRegisterRead (offset : Nat) (s : State) : exec (.rtcRegisterRead offset) s = execRtcRegisterRead offset s := rfl
theorem exec_rtcTickHiRead (s : State) : exec (.rtcTickHiRead) s = execRtcTickHiRead s := rfl
theorem exec_rtcBlockWrite (offset : Nat) (value : Word) (s : State) : exec (.rtcBlockWrite offset value) s = execRtcBlockWrite offset value s := rfl
theorem exec_rtcShadowTimeout (s : State) : exec (.rtcShadowTimeout) s = execRtcShadowTimeout s := rfl
theorem exec_rsStore (mb : Nat) (s : State) : exec (.rsStore mb) s = execRsStore mb s := rfl
theorem exec_rsInfo (mb : Nat) (s : State) : exec (.rsInfo mb) s = execRsInfo mb s := rfl
theorem exec_ctrRead (mb : Nat) (s : State) : exec (.ctrRead mb) s = execCtrRead mb s := rfl
theorem exec_pageStore (s : State) : exec (.pageStore) s = execPageStore s := rfl
theorem exec_counterIncrement (s : State) : exec (.counterIncrement) s = execCounterIncrement s := rfl
theorem exec_rsCmdStore (value : Word) (s : State) : exec (.rsCmdStore value) s = execRsCmdStore value s := rfl
theorem exec_rsCmdCtrInc (value : Word) (s : State) : exec (.rsCmdCtrInc value) s = execRsCmdCtrInc value s := rfl
theorem exec_rsWdataRead (s : State) : exec (.rsWdataRead) s = execRsWdataRead s := rfl
theorem exec_rsWdataWrite (value : Word) (s : State) : exec (.rsWdataWrite value) s = execRsWdataWrite value s := rfl
theorem exec_recallComplete (s : State) : exec (.recallComplete) s = execRecallComplete s := rfl
theorem exec_keyInfo (mb : Nat) (s : State) : exec (.keyInfo mb) s = execKeyInfo mb s := rfl
theorem exec_keyStage (mb : Nat) (s : State) : exec (.keyStage mb) s = execKeyStage mb s := rfl
theorem exec_keyVerify (mb : Nat) (s : State) : exec (.keyVerify mb) s = execKeyVerify mb s := rfl
theorem exec_keyCommit (mb : Nat) (s : State) : exec (.keyCommit mb) s = execKeyCommit mb s := rfl
theorem exec_keyDiscard (mb : Nat) (s : State) : exec (.keyDiscard mb) s = execKeyDiscard mb s := rfl
theorem exec_attest (mb : Nat) (s : State) : exec (.attest mb) s = execAttest mb s := rfl
theorem exec_keyPublic (mb : Nat) (s : State) : exec (.keyPublic mb) s = execKeyPublic mb s := rfl
theorem exec_keySlotCheck (bad : List (Nat × Nat)) (s : State) : exec (.keySlotCheck bad) s = execKeySlotCheck bad s := rfl
theorem exec_evrRead (mb : Nat) (s : State) : exec (.evrRead mb) s = execEvrRead mb s := rfl
theorem exec_evrExcerpt (mb : Nat) (s : State) : exec (.evrExcerpt mb) s = execEvrExcerpt mb s := rfl
theorem exec_evrCode (mb : Nat) (s : State) : exec (.evrCode mb) s = execEvrCode mb s := rfl
theorem exec_recordOffer (code : Nat) (cls : Nat) (source : Nat) (words : List Word) (s : State) : exec (.recordOffer code cls source words) s = execRecordOffer code cls source words s := rfl
theorem exec_recordWrite (s : State) : exec (.recordWrite) s = execRecordWrite s := rfl
theorem exec_excerptDirtyTimeout (page : Nat) (s : State) : exec (.excerptDirtyTimeout page) s = execExcerptDirtyTimeout page s := rfl
theorem exec_evrCurHiWrite (value : Word) (s : State) : exec (.evrCurHiWrite value) s = execEvrCurHiWrite value s := rfl
theorem exec_evrToOldest (s : State) : exec (.evrToOldest) s = execEvrToOldest s := rfl
theorem exec_evrToNew (s : State) : exec (.evrToNew) s = execEvrToNew s := rfl
theorem exec_maStatus (mb : Nat) (s : State) : exec (.maStatus mb) s = execMaStatus mb s := rfl
theorem exec_rplCapture (mb : Nat) (s : State) : exec (.rplCapture mb) s = execRplCapture mb s := rfl
theorem exec_rplSnapGet (mb : Nat) (s : State) : exec (.rplSnapGet mb) s = execRplSnapGet mb s := rfl
theorem exec_rplStart (mb : Nat) (s : State) : exec (.rplStart mb) s = execRplStart mb s := rfl
theorem exec_rplFeed (mb : Nat) (s : State) : exec (.rplFeed mb) s = execRplFeed mb s := rfl
theorem exec_rplOutput (mb : Nat) (s : State) : exec (.rplOutput mb) s = execRplOutput mb s := rfl
theorem exec_rplEnd (mb : Nat) (s : State) : exec (.rplEnd mb) s = execRplEnd mb s := rfl
theorem exec_lbwSelWrite (value : Word) (s : State) : exec (.lbwSelWrite value) s = execLbwSelWrite value s := rfl
theorem exec_lbwWatchWrite (value : Word) (s : State) : exec (.lbwWatchWrite value) s = execLbwWatchWrite value s := rfl
theorem exec_vntRelease (value : Word) (s : State) : exec (.vntRelease value) s = execVntRelease value s := rfl
theorem exec_vntReleaseAll (s : State) : exec (.vntReleaseAll) s = execVntReleaseAll s := rfl
theorem exec_vntFirstRead (s : State) : exec (.vntFirstRead) s = execVntFirstRead s := rfl
theorem exec_safeExit (s : State) : exec (.safeExit) s = execSafeExit s := rfl
theorem exec_mtrSnap (s : State) : exec (.mtrSnap) s = execMtrSnap s := rfl
theorem exec_mtrRelease (s : State) : exec (.mtrRelease) s = execMtrRelease s := rfl
theorem exec_cvStart (unit : Nat) (s : State) : exec (.cvStart unit) s = execCvStart unit s := rfl
theorem exec_cvFeed8 (unit : Nat) (value : Word) (s : State) : exec (.cvFeed8 unit value) s = execCvFeed8 unit value s := rfl
theorem exec_cvFeed16 (unit : Nat) (value : Word) (s : State) : exec (.cvFeed16 unit value) s = execCvFeed16 unit value s := rfl
theorem exec_cvFeed32 (unit : Nat) (value : Word) (s : State) : exec (.cvFeed32 unit value) s = execCvFeed32 unit value s := rfl
theorem exec_cvCfgWrite (unit : Nat) (value : Word) (s : State) : exec (.cvCfgWrite unit value) s = execCvCfgWrite unit value s := rfl
theorem exec_registerWrite (addr : Nat) (value : Word) (s : State) : exec (.registerWrite addr value) s = execRegisterWrite addr value s := rfl
theorem exec_vinGood (ticks : Nat) (s : State) : exec (.vinGood ticks) s = execVinGood ticks s := rfl
theorem exec_vinFail (s : State) : exec (.vinFail) s = execVinFail s := rfl
theorem exec_holdEnd (s : State) : exec (.holdEnd) s = execHoldEnd s := rfl
theorem exec_vbatLoss (s : State) : exec (.vbatLoss) s = execVbatLoss s := rfl
theorem exec_vioHChange (good : Bool) (s : State) : exec (.vioHChange good) s = execVioHChange good s := rfl
theorem exec_reset (cause : ResetCause) (s : State) : exec (.reset cause) s = execReset cause s := rfl
theorem exec_readyAssert (rootGood : Nat) (badSlots : List (Nat × Nat)) (s : State) : exec (.readyAssert rootGood badSlots) s = execReadyAssert rootGood badSlots s := rfl
theorem exec_activation (s : State) : exec (.activation) s = execActivation s := rfl
theorem exec_activationTimeout (s : State) : exec (.activationTimeout) s = execActivationTimeout s := rfl
theorem exec_xcvrFaultCleared (line : Nat) (fault : XcvrFault) (s : State) : exec (.xcvrFaultCleared line fault) s = execXcvrFaultCleared line fault s := rfl
theorem exec_busdom (line : Nat) (s : State) : exec (.busdom line) s = execBusdom line s := rfl
theorem exec_vbatPresent (s : State) : exec (.vbatPresent) s = execVbatPresent s := rfl
theorem exec_vholdCutoff (s : State) : exec (.vholdCutoff) s = execVholdCutoff s := rfl
theorem exec_vholdMeasure (millivolts : Nat) (s : State) : exec (.vholdMeasure millivolts) s = execVholdMeasure millivolts s := rfl
theorem exec_pcieLinkUp (s : State) : exec (.pcieLinkUp) s = execPcieLinkUp s := rfl
theorem exec_internalResetRelease (hostsel : Bool) (s : State) : exec (.internalResetRelease hostsel) s = execInternalResetRelease hostsel s := rfl
theorem exec_startupComplete (s : State) : exec (.startupComplete) s = execStartupComplete s := rfl
theorem exec_boundaryScanAccess (op : ScanOp) (s : State) : exec (.boundaryScanAccess op) s = execBoundaryScanAccess op s := rfl

end Sys2Proof.Machine
end

