-- ==== Sys2Proof/Laws/Memory.lean ====
section
/-! SUPPORT. The laws of the sparse tables and of the addressed memories: a read after a write, and the canonical form that every operation keeps. -/
namespace Sys2Proof.Machine

/-! One entry. -/

theorem lookup_of_lt {α : Type} {m : NMap α} {k : Nat} (h : ∀ p ∈ m, k < p.1) : lookup m k = none := by
  induction m with
  | nil => rfl
  | cons p t ih =>
    obtain ⟨j, v⟩ := p
    have hj : k < j := h (j, v) (by simp)
    have : j ≠ k := by omega
    simp only [lookup, if_neg this]
    exact ih (fun q hq => h q (by simp [hq]))

theorem lookup_insertAt_self {α : Type} (m : NMap α) (k : Nat) (v : α) : lookup (insertAt m k v) k = some v := by
  induction m with
  | nil => simp [insertAt, lookup]
  | cons p t ih =>
    obtain ⟨j, w⟩ := p
    simp only [insertAt]
    split
    · simp [lookup]
    · split
      · simp [lookup]
      · have : j ≠ k := by omega
        simp [lookup, this, ih]

theorem lookup_insertAt_ne {α : Type} (m : NMap α) {k a : Nat} (v : α) (h : a ≠ k) : lookup (insertAt m k v) a = lookup m a := by
  have hk : k ≠ a := Ne.symm h
  induction m with
  | nil => simp [insertAt, lookup, hk]
  | cons p t ih =>
    obtain ⟨j, w⟩ := p
    simp only [insertAt]
    split
    · simp [lookup, hk]
    · split
      · subst_vars; simp [lookup, hk]
      · simp [lookup, ih]

theorem lookup_eraseAt_self {α : Type} (m : NMap α) (k : Nat) : lookup (eraseAt m k) k = none := by
  induction m with
  | nil => rfl
  | cons p t ih =>
    obtain ⟨j, w⟩ := p
    simp only [eraseAt]
    split
    · exact ih
    · simp [lookup, *]

theorem lookup_eraseAt_ne {α : Type} (m : NMap α) {k a : Nat} (h : a ≠ k) : lookup (eraseAt m k) a = lookup m a := by
  induction m with
  | nil => rfl
  | cons p t ih =>
    obtain ⟨j, w⟩ := p
    simp only [eraseAt]
    split
    · subst_vars
      rw [ih]; simp [lookup, Ne.symm h]
    · simp [lookup, ih]

@[simp] theorem getD_setD_self {α : Type} [DecidableEq α] (d : α) (m : NMap α) (k : Nat) (v : α) : getD d (setD d m k v) k = v := by
  unfold setD getD
  split
  · simp [lookup_eraseAt_self, *]
  · simp [lookup_insertAt_self]

theorem getD_setD_ne {α : Type} [DecidableEq α] (d : α) (m : NMap α) {k a : Nat} (v : α) (h : a ≠ k) :
    getD d (setD d m k v) a = getD d m a := by
  unfold setD getD
  split
  · rw [lookup_eraseAt_ne m h]
  · rw [lookup_insertAt_ne m v h]

/-! The canonical form. -/

theorem mem_eraseAt {α : Type} {m : NMap α} {k : Nat} {p : Nat × α} (h : p ∈ eraseAt m k) : p ∈ m := by
  induction m with
  | nil => simp [eraseAt] at h
  | cons q t ih =>
    obtain ⟨j, w⟩ := q
    simp only [eraseAt] at h
    split at h
    · exact List.mem_cons_of_mem _ (ih h)
    · rcases List.mem_cons.mp h with h | h
      · simp [h]
      · exact List.mem_cons_of_mem _ (ih h)

theorem mem_insertAt {α : Type} {m : NMap α} {k : Nat} {v : α} {p : Nat × α} (h : p ∈ insertAt m k v) : p = (k, v) ∨ p ∈ m := by
  induction m with
  | nil => simpa [insertAt] using h
  | cons q t ih =>
    obtain ⟨j, w⟩ := q
    simp only [insertAt] at h
    split at h
    · simpa using h
    · split at h
      · rcases List.mem_cons.mp h with h | h
        · exact .inl h
        · exact .inr (List.mem_cons_of_mem _ h)
      · rcases List.mem_cons.mp h with h | h
        · simp [h]
        · rcases ih h with h | h
          · exact .inl h
          · exact .inr (List.mem_cons_of_mem _ h)

theorem eraseAt_ordered {α : Type} {m : NMap α} (k : Nat) (h : m.ordered) : (eraseAt m k).ordered := by
  induction m with
  | nil => exact h
  | cons q t ih =>
    obtain ⟨j, w⟩ := q
    have ht := List.pairwise_cons.mp h
    simp only [eraseAt]
    split
    · exact ih ht.2
    · exact List.pairwise_cons.mpr ⟨fun p hp => ht.1 p (mem_eraseAt hp), ih ht.2⟩

theorem insertAt_ordered {α : Type} {m : NMap α} (k : Nat) (v : α) (h : m.ordered) : (insertAt m k v).ordered := by
  induction m with
  | nil => simp [insertAt, NMap.ordered]
  | cons q t ih =>
    obtain ⟨j, w⟩ := q
    have ht := List.pairwise_cons.mp h
    simp only [insertAt]
    split
    · refine List.pairwise_cons.mpr ⟨fun p hp => ?_, h⟩
      rcases List.mem_cons.mp hp with hp | hp
      · subst hp; assumption
      · have := ht.1 p hp; simp at this ⊢; omega
    · split
      · subst_vars
        exact List.pairwise_cons.mpr ⟨ht.1, ht.2⟩
      · refine List.pairwise_cons.mpr ⟨fun p hp => ?_, ih ht.2⟩
        rcases mem_insertAt hp with hp | hp
        · subst hp; simp; omega
        · exact ht.1 p hp

theorem setD_canonical {α : Type} [DecidableEq α] (d : α) {m : NMap α} (k : Nat) (v : α) (h : NMap.canonical d m) :
    NMap.canonical d (setD d m k v) := by
  unfold setD
  split
  · exact ⟨eraseAt_ordered k h.1, fun p hp => h.2 p (mem_eraseAt hp)⟩
  · refine ⟨insertAt_ordered k v h.1, fun p hp => ?_⟩
    rcases mem_insertAt hp with hp | hp
    · subst hp; assumption
    · exact h.2 p hp

/-- The test `Memory.wf` says that a memory has the canonical form. -/
theorem wf_iff (m : Memory) : Memory.wf m = true ↔ NMap.canonical 0 m := by
  induction m with
  | nil => simp [Memory.wf, NMap.canonical, NMap.ordered]
  | cons p t ih =>
    cases t with
    | nil => simp [Memory.wf, NMap.canonical, NMap.ordered]
    | cons q u =>
      simp only [Memory.wf, Bool.and_eq_true, decide_eq_true_eq, ih]
      constructor
      · rintro ⟨⟨h0, h1⟩, h2, h3⟩
        refine ⟨List.pairwise_cons.mpr ⟨fun r hr => ?_, h2⟩, fun r hr => ?_⟩
        · rcases List.mem_cons.mp hr with hr | hr
          · subst hr; exact h1
          · have := (List.pairwise_cons.mp h2).1 r hr; omega
        · rcases List.mem_cons.mp hr with hr | hr
          · subst hr; exact h0
          · exact h3 r hr
      · rintro ⟨h1, h2⟩
        have h := List.pairwise_cons.mp h1
        exact ⟨⟨h2 p (by simp), h.1 q (by simp)⟩, h.2, fun r hr => h2 r (by simp [List.mem_cons.mp hr])⟩

/-! Bytes. -/

@[simp] theorem readByte_writeByte_self (m : Memory) (a : Nat) (b : Byte) : readByte (writeByte m a b) a = b := getD_setD_self 0 m a b

theorem readByte_writeByte_ne (m : Memory) {a k : Nat} (b : Byte) (h : a ≠ k) : readByte (writeByte m k b) a = readByte m a :=
  getD_setD_ne 0 m b h

theorem writeByte_wf {m : Memory} (a : Nat) (b : Byte) (h : Memory.wf m = true) : Memory.wf (writeByte m a b) = true :=
  (wf_iff _).mpr (setD_canonical 0 a b ((wf_iff _).mp h))

theorem writeBytes_wf {m : Memory} (bs : Bytes) (a : Nat) (h : Memory.wf m = true) : Memory.wf (writeBytes m a bs) = true := by
  induction bs generalizing m a with
  | nil => exact h
  | cons b t ih => exact ih (a + 1) (writeByte_wf a b h)

theorem readByte_writeBytes (m : Memory) (bs : Bytes) (a k : Nat) :
    readByte (writeBytes m a bs) k = if a ≤ k ∧ k < a + bs.length then nth 0 bs (k - a) else readByte m k := by
  induction bs generalizing m a with
  | nil =>
    have : ¬(a ≤ k ∧ k < a + 0) := by omega
    simp only [writeBytes, List.length_nil, if_neg this]
  | cons b t ih =>
    simp only [writeBytes, ih, List.length_cons]
    by_cases h : k = a
    · subst h
      have h1 : ¬(k + 1 ≤ k ∧ k < k + 1 + t.length) := by omega
      have h2 : k ≤ k ∧ k < k + (t.length + 1) := by omega
      simp [if_neg h1, if_pos h2, nth]
    · by_cases h1 : a + 1 ≤ k ∧ k < a + 1 + t.length
      · have h2 : a ≤ k ∧ k < a + (t.length + 1) := by omega
        rw [if_pos h1, if_pos h2]
        obtain ⟨d, hd⟩ : ∃ d, k - a = d + 1 := ⟨k - a - 1, by omega⟩
        have : k - (a + 1) = d := by omega
        simp [nth, hd, this]
      · have h2 : ¬(a ≤ k ∧ k < a + (t.length + 1)) := by omega
        rw [if_neg h1, if_neg h2, readByte_writeByte_ne m b h]

/-! Spans. -/

theorem mem_spanOf {bs : Bytes} {a : Nat} {p : Nat × Byte} (h : p ∈ spanOf a bs) : a ≤ p.1 ∧ p.1 < a + bs.length ∧ p.2 ≠ 0 := by
  induction bs generalizing a with
  | nil => simp [spanOf] at h
  | cons b t ih =>
    simp only [spanOf] at h
    split at h
    · have := ih h; simp only [List.length_cons]; exact ⟨by omega, by omega, this.2.2⟩
    · rcases List.mem_cons.mp h with h | h
      · subst h; simp only [List.length_cons]; exact ⟨by omega, by omega, by assumption⟩
      · have := ih h; simp only [List.length_cons]; exact ⟨by omega, by omega, this.2.2⟩

theorem spanOf_ordered (bs : Bytes) (a : Nat) : (spanOf a bs).ordered := by
  induction bs generalizing a with
  | nil => simp [spanOf, NMap.ordered]
  | cons b t ih =>
    simp only [spanOf]
    split
    · exact ih _
    · exact List.pairwise_cons.mpr ⟨fun p hp => by have := mem_spanOf hp; simp; omega, ih _⟩

/-- A write of bytes in one pass keeps the canonical form. -/
theorem writeSpan_wf {m : Memory} (a : Nat) (bs : Bytes) (h : Memory.wf m = true) : Memory.wf (writeSpan m a bs) = true := by
  have hc := (wf_iff _).mp h
  refine (wf_iff _).mpr ⟨?_, ?_⟩
  · unfold writeSpan pasteSpan NMap.ordered
    refine List.pairwise_append.mpr ⟨List.pairwise_append.mpr ⟨hc.1.filter _, spanOf_ordered bs a, ?_⟩, hc.1.filter _, ?_⟩
    · intro x hx y hy
      have h1 := (List.mem_filter.mp hx).2
      have h2 := mem_spanOf hy
      simp at h1; omega
    · intro x hx y hy
      have h1 := (List.mem_filter.mp hy).2
      simp at h1
      rcases List.mem_append.mp hx with hx | hx
      · have h2 := (List.mem_filter.mp hx).2
        simp at h2; omega
      · have h2 := mem_spanOf hx; omega
  · intro p hp
    unfold writeSpan pasteSpan at hp
    rcases List.mem_append.mp hp with hp | hp
    · rcases List.mem_append.mp hp with hp | hp
      · exact hc.2 p (List.mem_filter.mp hp).1
      · exact (mem_spanOf hp).2.2
    · exact hc.2 p (List.mem_filter.mp hp).1

theorem lookup_append {α : Type} (m l : NMap α) (k : Nat) : lookup (m ++ l) k = (lookup m k).or (lookup l k) := by
  induction m with
  | nil => simp [lookup]
  | cons p t ih =>
    obtain ⟨j, v⟩ := p
    simp only [List.cons_append, lookup]
    split <;> simp [ih]

theorem lookup_filter {α : Type} (m : NMap α) (f : Nat → Bool) (k : Nat) :
    lookup (m.filter (fun p => f p.1)) k = if f k then lookup m k else none := by
  induction m with
  | nil => simp [lookup]
  | cons p t ih =>
    obtain ⟨j, v⟩ := p
    simp only [List.filter_cons]
    by_cases hj : j = k
    · subst hj
      by_cases hf : f j <;> simp [hf, lookup, ih]
    · by_cases hf : f j <;> simp [hf, lookup, ih, hj]

theorem getD_spanOf (bs : Bytes) (a k : Nat) :
    (lookup (spanOf a bs) k).getD 0 = if a ≤ k ∧ k < a + bs.length then nth 0 bs (k - a) else 0 := by
  induction bs generalizing a with
  | nil => simp [spanOf, lookup, nth]
  | cons b t ih =>
    have key : (lookup (spanOf (a + 1) t) k).getD 0 = if a + 1 ≤ k ∧ k < a + 1 + t.length then nth 0 t (k - (a + 1)) else 0 := ih (a + 1)
    have main : (lookup (spanOf a (b :: t)) k).getD 0 = if k = a then b else (lookup (spanOf (a + 1) t) k).getD 0 := by
      simp only [spanOf]
      by_cases hb : b = 0
      · rw [if_pos hb]
        by_cases hk : k = a
        · have : ¬(a + 1 ≤ k ∧ k < a + 1 + t.length) := by omega
          rw [key, if_neg this, if_pos hk, hb]
        · rw [if_neg hk]
      · rw [if_neg hb]
        by_cases hk : k = a
        · simp [lookup, hk]
        · simp [lookup, Ne.symm hk, hk]
    rw [main, key]
    by_cases hk : k = a
    · subst hk
      have : k ≤ k ∧ k < k + (b :: t).length := by simp
      simp [nth]
    · rw [if_neg hk]
      by_cases h1 : a + 1 ≤ k ∧ k < a + 1 + t.length
      · have h2 : a ≤ k ∧ k < a + (b :: t).length := by simp; omega
        rw [if_pos h1, if_pos h2]
        obtain ⟨d, hd⟩ : ∃ d, k - a = d + 1 := ⟨k - a - 1, by omega⟩
        have : k - (a + 1) = d := by omega
        simp [nth, hd, this]
      · have h2 : ¬(a ≤ k ∧ k < a + (b :: t).length) := by simp; omega
        rw [if_neg h1, if_neg h2]

/-- A write of bytes in one pass is read back inside its span, and leaves every other byte. -/
theorem readByte_writeSpan (m : Memory) (bs : Bytes) (a k : Nat) :
    readByte (writeSpan m a bs) k = if a ≤ k ∧ k < a + bs.length then nth 0 bs (k - a) else readByte m k := by
  unfold readByte writeSpan pasteSpan getD
  rw [lookup_append, lookup_append, lookup_filter m (fun x => decide (x < a)), lookup_filter m (fun x => decide (a + bs.length ≤ x))]
  by_cases h1 : k < a
  · have h2 : ¬(a ≤ k ∧ k < a + bs.length) := by omega
    have h3 : lookup (spanOf a bs) k = none := lookup_of_lt (fun p hp => by have := mem_spanOf hp; omega)
    have h4 : ¬(a + bs.length ≤ k) := by omega
    simp [h1, h2, h3, h4]
  · by_cases h2 : k < a + bs.length
    · have h3 : a ≤ k ∧ k < a + bs.length := by omega
      have h4 : ¬(a + bs.length ≤ k) := by omega
      simp only [h1, h4, decide_false, Bool.false_eq_true, if_false, Option.none_or, Option.or_none, if_pos h3]
      rw [getD_spanOf, if_pos h3]
    · have h3 : ¬(a ≤ k ∧ k < a + bs.length) := by omega
      have h4 : a + bs.length ≤ k := by omega
      have h5 : lookup (spanOf a bs) k = none := by
        have : ∀ (l : Bytes) (b : Nat), b + l.length ≤ k → lookup (spanOf b l) k = none := by
          intro l
          induction l with
          | nil => intros; rfl
          | cons x t ih =>
            intro b hb
            simp only [List.length_cons] at hb
            have hne : b ≠ k := by omega
            simp only [spanOf]
            split
            · exact ih _ (by omega)
            · simp only [lookup, if_neg hne]; exact ih _ (by omega)
        exact this bs a h4
      simp [h1, h3, h4, h5]

end Sys2Proof.Machine
end

