-- ==== Sys2Proof/Laws/State.lean ====
section
/-! SUPPORT. What the named updates of the state leave unchanged, field by field. -/
namespace Sys2Proof.Machine

/-! drew changes free only. -/

@[simp] theorem drew_part (s : State) : (drew s).part = s.part := rfl
@[simp] theorem drew_clk (s : State) : (drew s).clk = s.clk := rfl
@[simp] theorem drew_pwr (s : State) : (drew s).pwr = s.pwr := rfl
@[simp] theorem drew_net (s : State) : (drew s).net = s.net := rfl
@[simp] theorem drew_un (s : State) : (drew s).un = s.un := rfl
@[simp] theorem drew_pt (s : State) : (drew s).pt = s.pt := rfl
@[simp] theorem drew_ln (s : State) : (drew s).ln = s.ln := rfl
@[simp] theorem drew_lnReq (s : State) : (drew s).lnReq = s.lnReq := rfl
@[simp] theorem drew_lbw (s : State) : (drew s).lbw = s.lbw := rfl
@[simp] theorem drew_ce (s : State) : (drew s).ce = s.ce := rfl
@[simp] theorem drew_sv (s : State) : (drew s).sv = s.sv := rfl
@[simp] theorem drew_vn (s : State) : (drew s).vn = s.vn := rfl
@[simp] theorem drew_ft (s : State) : (drew s).ft = s.ft := rfl
@[simp] theorem drew_mt (s : State) : (drew s).mt = s.mt := rfl
@[simp] theorem drew_hq (s : State) : (drew s).hq = s.hq := rfl
@[simp] theorem drew_glb (s : State) : (drew s).glb = s.glb := rfl
@[simp] theorem drew_pcie (s : State) : (drew s).pcie = s.pcie := rfl
@[simp] theorem drew_link (s : State) : (drew s).link = s.link := rfl
@[simp] theorem drew_mb (s : State) : (drew s).mb = s.mb := rfl
@[simp] theorem drew_im (s : State) : (drew s).im = s.im := rfl
@[simp] theorem drew_pa (s : State) : (drew s).pa = s.pa := rfl
@[simp] theorem drew_rtc (s : State) : (drew s).rtc = s.rtc := rfl
@[simp] theorem drew_rs (s : State) : (drew s).rs = s.rs := rfl
@[simp] theorem drew_cv (s : State) : (drew s).cv = s.cv := rfl
@[simp] theorem drew_ks (s : State) : (drew s).ks = s.ks := rfl
@[simp] theorem drew_ev (s : State) : (drew s).ev = s.ev := rfl
@[simp] theorem drew_ma (s : State) : (drew s).ma = s.ma := rfl
@[simp] theorem drew_rp (s : State) : (drew s).rp = s.rp := rfl
@[simp] theorem drew_pending (s : State) : (drew s).pending = s.pending := rfl

/-! setLine changes ln only. -/

@[simp] theorem setLine_part (s : State) (l : Nat) (x : Line) : (setLine s l x).part = s.part := rfl
@[simp] theorem setLine_clk (s : State) (l : Nat) (x : Line) : (setLine s l x).clk = s.clk := rfl
@[simp] theorem setLine_pwr (s : State) (l : Nat) (x : Line) : (setLine s l x).pwr = s.pwr := rfl
@[simp] theorem setLine_net (s : State) (l : Nat) (x : Line) : (setLine s l x).net = s.net := rfl
@[simp] theorem setLine_un (s : State) (l : Nat) (x : Line) : (setLine s l x).un = s.un := rfl
@[simp] theorem setLine_pt (s : State) (l : Nat) (x : Line) : (setLine s l x).pt = s.pt := rfl
@[simp] theorem setLine_lnReq (s : State) (l : Nat) (x : Line) : (setLine s l x).lnReq = s.lnReq := rfl
@[simp] theorem setLine_lbw (s : State) (l : Nat) (x : Line) : (setLine s l x).lbw = s.lbw := rfl
@[simp] theorem setLine_ce (s : State) (l : Nat) (x : Line) : (setLine s l x).ce = s.ce := rfl
@[simp] theorem setLine_sv (s : State) (l : Nat) (x : Line) : (setLine s l x).sv = s.sv := rfl
@[simp] theorem setLine_vn (s : State) (l : Nat) (x : Line) : (setLine s l x).vn = s.vn := rfl
@[simp] theorem setLine_ft (s : State) (l : Nat) (x : Line) : (setLine s l x).ft = s.ft := rfl
@[simp] theorem setLine_mt (s : State) (l : Nat) (x : Line) : (setLine s l x).mt = s.mt := rfl
@[simp] theorem setLine_hq (s : State) (l : Nat) (x : Line) : (setLine s l x).hq = s.hq := rfl
@[simp] theorem setLine_glb (s : State) (l : Nat) (x : Line) : (setLine s l x).glb = s.glb := rfl
@[simp] theorem setLine_pcie (s : State) (l : Nat) (x : Line) : (setLine s l x).pcie = s.pcie := rfl
@[simp] theorem setLine_link (s : State) (l : Nat) (x : Line) : (setLine s l x).link = s.link := rfl
@[simp] theorem setLine_mb (s : State) (l : Nat) (x : Line) : (setLine s l x).mb = s.mb := rfl
@[simp] theorem setLine_im (s : State) (l : Nat) (x : Line) : (setLine s l x).im = s.im := rfl
@[simp] theorem setLine_pa (s : State) (l : Nat) (x : Line) : (setLine s l x).pa = s.pa := rfl
@[simp] theorem setLine_rtc (s : State) (l : Nat) (x : Line) : (setLine s l x).rtc = s.rtc := rfl
@[simp] theorem setLine_rs (s : State) (l : Nat) (x : Line) : (setLine s l x).rs = s.rs := rfl
@[simp] theorem setLine_cv (s : State) (l : Nat) (x : Line) : (setLine s l x).cv = s.cv := rfl
@[simp] theorem setLine_ks (s : State) (l : Nat) (x : Line) : (setLine s l x).ks = s.ks := rfl
@[simp] theorem setLine_ev (s : State) (l : Nat) (x : Line) : (setLine s l x).ev = s.ev := rfl
@[simp] theorem setLine_ma (s : State) (l : Nat) (x : Line) : (setLine s l x).ma = s.ma := rfl
@[simp] theorem setLine_rp (s : State) (l : Nat) (x : Line) : (setLine s l x).rp = s.rp := rfl
@[simp] theorem setLine_free (s : State) (l : Nat) (x : Line) : (setLine s l x).free = s.free := rfl
@[simp] theorem setLine_pending (s : State) (l : Nat) (x : Line) : (setLine s l x).pending = s.pending := rfl

/-! onLine changes ln only. -/

@[simp] theorem onLine_part (s : State) (l : Nat) (f : Line → Line) : (onLine s l f).part = s.part := rfl
@[simp] theorem onLine_clk (s : State) (l : Nat) (f : Line → Line) : (onLine s l f).clk = s.clk := rfl
@[simp] theorem onLine_pwr (s : State) (l : Nat) (f : Line → Line) : (onLine s l f).pwr = s.pwr := rfl
@[simp] theorem onLine_net (s : State) (l : Nat) (f : Line → Line) : (onLine s l f).net = s.net := rfl
@[simp] theorem onLine_un (s : State) (l : Nat) (f : Line → Line) : (onLine s l f).un = s.un := rfl
@[simp] theorem onLine_pt (s : State) (l : Nat) (f : Line → Line) : (onLine s l f).pt = s.pt := rfl
@[simp] theorem onLine_lnReq (s : State) (l : Nat) (f : Line → Line) : (onLine s l f).lnReq = s.lnReq := rfl
@[simp] theorem onLine_lbw (s : State) (l : Nat) (f : Line → Line) : (onLine s l f).lbw = s.lbw := rfl
@[simp] theorem onLine_ce (s : State) (l : Nat) (f : Line → Line) : (onLine s l f).ce = s.ce := rfl
@[simp] theorem onLine_sv (s : State) (l : Nat) (f : Line → Line) : (onLine s l f).sv = s.sv := rfl
@[simp] theorem onLine_vn (s : State) (l : Nat) (f : Line → Line) : (onLine s l f).vn = s.vn := rfl
@[simp] theorem onLine_ft (s : State) (l : Nat) (f : Line → Line) : (onLine s l f).ft = s.ft := rfl
@[simp] theorem onLine_mt (s : State) (l : Nat) (f : Line → Line) : (onLine s l f).mt = s.mt := rfl
@[simp] theorem onLine_hq (s : State) (l : Nat) (f : Line → Line) : (onLine s l f).hq = s.hq := rfl
@[simp] theorem onLine_glb (s : State) (l : Nat) (f : Line → Line) : (onLine s l f).glb = s.glb := rfl
@[simp] theorem onLine_pcie (s : State) (l : Nat) (f : Line → Line) : (onLine s l f).pcie = s.pcie := rfl
@[simp] theorem onLine_link (s : State) (l : Nat) (f : Line → Line) : (onLine s l f).link = s.link := rfl
@[simp] theorem onLine_mb (s : State) (l : Nat) (f : Line → Line) : (onLine s l f).mb = s.mb := rfl
@[simp] theorem onLine_im (s : State) (l : Nat) (f : Line → Line) : (onLine s l f).im = s.im := rfl
@[simp] theorem onLine_pa (s : State) (l : Nat) (f : Line → Line) : (onLine s l f).pa = s.pa := rfl
@[simp] theorem onLine_rtc (s : State) (l : Nat) (f : Line → Line) : (onLine s l f).rtc = s.rtc := rfl
@[simp] theorem onLine_rs (s : State) (l : Nat) (f : Line → Line) : (onLine s l f).rs = s.rs := rfl
@[simp] theorem onLine_cv (s : State) (l : Nat) (f : Line → Line) : (onLine s l f).cv = s.cv := rfl
@[simp] theorem onLine_ks (s : State) (l : Nat) (f : Line → Line) : (onLine s l f).ks = s.ks := rfl
@[simp] theorem onLine_ev (s : State) (l : Nat) (f : Line → Line) : (onLine s l f).ev = s.ev := rfl
@[simp] theorem onLine_ma (s : State) (l : Nat) (f : Line → Line) : (onLine s l f).ma = s.ma := rfl
@[simp] theorem onLine_rp (s : State) (l : Nat) (f : Line → Line) : (onLine s l f).rp = s.rp := rfl
@[simp] theorem onLine_free (s : State) (l : Nat) (f : Line → Line) : (onLine s l f).free = s.free := rfl
@[simp] theorem onLine_pending (s : State) (l : Nat) (f : Line → Line) : (onLine s l f).pending = s.pending := rfl

/-! onBox changes mb only. -/

@[simp] theorem onBox_part (s : State) (n : Nat) (f : Mailbox → Mailbox) : (onBox s n f).part = s.part := rfl
@[simp] theorem onBox_clk (s : State) (n : Nat) (f : Mailbox → Mailbox) : (onBox s n f).clk = s.clk := rfl
@[simp] theorem onBox_pwr (s : State) (n : Nat) (f : Mailbox → Mailbox) : (onBox s n f).pwr = s.pwr := rfl
@[simp] theorem onBox_net (s : State) (n : Nat) (f : Mailbox → Mailbox) : (onBox s n f).net = s.net := rfl
@[simp] theorem onBox_un (s : State) (n : Nat) (f : Mailbox → Mailbox) : (onBox s n f).un = s.un := rfl
@[simp] theorem onBox_pt (s : State) (n : Nat) (f : Mailbox → Mailbox) : (onBox s n f).pt = s.pt := rfl
@[simp] theorem onBox_ln (s : State) (n : Nat) (f : Mailbox → Mailbox) : (onBox s n f).ln = s.ln := rfl
@[simp] theorem onBox_lnReq (s : State) (n : Nat) (f : Mailbox → Mailbox) : (onBox s n f).lnReq = s.lnReq := rfl
@[simp] theorem onBox_lbw (s : State) (n : Nat) (f : Mailbox → Mailbox) : (onBox s n f).lbw = s.lbw := rfl
@[simp] theorem onBox_ce (s : State) (n : Nat) (f : Mailbox → Mailbox) : (onBox s n f).ce = s.ce := rfl
@[simp] theorem onBox_sv (s : State) (n : Nat) (f : Mailbox → Mailbox) : (onBox s n f).sv = s.sv := rfl
@[simp] theorem onBox_vn (s : State) (n : Nat) (f : Mailbox → Mailbox) : (onBox s n f).vn = s.vn := rfl
@[simp] theorem onBox_ft (s : State) (n : Nat) (f : Mailbox → Mailbox) : (onBox s n f).ft = s.ft := rfl
@[simp] theorem onBox_mt (s : State) (n : Nat) (f : Mailbox → Mailbox) : (onBox s n f).mt = s.mt := rfl
@[simp] theorem onBox_hq (s : State) (n : Nat) (f : Mailbox → Mailbox) : (onBox s n f).hq = s.hq := rfl
@[simp] theorem onBox_glb (s : State) (n : Nat) (f : Mailbox → Mailbox) : (onBox s n f).glb = s.glb := rfl
@[simp] theorem onBox_pcie (s : State) (n : Nat) (f : Mailbox → Mailbox) : (onBox s n f).pcie = s.pcie := rfl
@[simp] theorem onBox_link (s : State) (n : Nat) (f : Mailbox → Mailbox) : (onBox s n f).link = s.link := rfl
@[simp] theorem onBox_im (s : State) (n : Nat) (f : Mailbox → Mailbox) : (onBox s n f).im = s.im := rfl
@[simp] theorem onBox_pa (s : State) (n : Nat) (f : Mailbox → Mailbox) : (onBox s n f).pa = s.pa := rfl
@[simp] theorem onBox_rtc (s : State) (n : Nat) (f : Mailbox → Mailbox) : (onBox s n f).rtc = s.rtc := rfl
@[simp] theorem onBox_rs (s : State) (n : Nat) (f : Mailbox → Mailbox) : (onBox s n f).rs = s.rs := rfl
@[simp] theorem onBox_cv (s : State) (n : Nat) (f : Mailbox → Mailbox) : (onBox s n f).cv = s.cv := rfl
@[simp] theorem onBox_ks (s : State) (n : Nat) (f : Mailbox → Mailbox) : (onBox s n f).ks = s.ks := rfl
@[simp] theorem onBox_ev (s : State) (n : Nat) (f : Mailbox → Mailbox) : (onBox s n f).ev = s.ev := rfl
@[simp] theorem onBox_ma (s : State) (n : Nat) (f : Mailbox → Mailbox) : (onBox s n f).ma = s.ma := rfl
@[simp] theorem onBox_rp (s : State) (n : Nat) (f : Mailbox → Mailbox) : (onBox s n f).rp = s.rp := rfl
@[simp] theorem onBox_free (s : State) (n : Nat) (f : Mailbox → Mailbox) : (onBox s n f).free = s.free := rfl
@[simp] theorem onBox_pending (s : State) (n : Nat) (f : Mailbox → Mailbox) : (onBox s n f).pending = s.pending := rfl

/-! onSlot changes sv only. -/

@[simp] theorem onSlot_part (s : State) (n : Nat) (f : SolveSlot → SolveSlot) : (onSlot s n f).part = s.part := rfl
@[simp] theorem onSlot_clk (s : State) (n : Nat) (f : SolveSlot → SolveSlot) : (onSlot s n f).clk = s.clk := rfl
@[simp] theorem onSlot_pwr (s : State) (n : Nat) (f : SolveSlot → SolveSlot) : (onSlot s n f).pwr = s.pwr := rfl
@[simp] theorem onSlot_net (s : State) (n : Nat) (f : SolveSlot → SolveSlot) : (onSlot s n f).net = s.net := rfl
@[simp] theorem onSlot_un (s : State) (n : Nat) (f : SolveSlot → SolveSlot) : (onSlot s n f).un = s.un := rfl
@[simp] theorem onSlot_pt (s : State) (n : Nat) (f : SolveSlot → SolveSlot) : (onSlot s n f).pt = s.pt := rfl
@[simp] theorem onSlot_ln (s : State) (n : Nat) (f : SolveSlot → SolveSlot) : (onSlot s n f).ln = s.ln := rfl
@[simp] theorem onSlot_lnReq (s : State) (n : Nat) (f : SolveSlot → SolveSlot) : (onSlot s n f).lnReq = s.lnReq := rfl
@[simp] theorem onSlot_lbw (s : State) (n : Nat) (f : SolveSlot → SolveSlot) : (onSlot s n f).lbw = s.lbw := rfl
@[simp] theorem onSlot_ce (s : State) (n : Nat) (f : SolveSlot → SolveSlot) : (onSlot s n f).ce = s.ce := rfl
@[simp] theorem onSlot_vn (s : State) (n : Nat) (f : SolveSlot → SolveSlot) : (onSlot s n f).vn = s.vn := rfl
@[simp] theorem onSlot_ft (s : State) (n : Nat) (f : SolveSlot → SolveSlot) : (onSlot s n f).ft = s.ft := rfl
@[simp] theorem onSlot_mt (s : State) (n : Nat) (f : SolveSlot → SolveSlot) : (onSlot s n f).mt = s.mt := rfl
@[simp] theorem onSlot_hq (s : State) (n : Nat) (f : SolveSlot → SolveSlot) : (onSlot s n f).hq = s.hq := rfl
@[simp] theorem onSlot_glb (s : State) (n : Nat) (f : SolveSlot → SolveSlot) : (onSlot s n f).glb = s.glb := rfl
@[simp] theorem onSlot_pcie (s : State) (n : Nat) (f : SolveSlot → SolveSlot) : (onSlot s n f).pcie = s.pcie := rfl
@[simp] theorem onSlot_link (s : State) (n : Nat) (f : SolveSlot → SolveSlot) : (onSlot s n f).link = s.link := rfl
@[simp] theorem onSlot_mb (s : State) (n : Nat) (f : SolveSlot → SolveSlot) : (onSlot s n f).mb = s.mb := rfl
@[simp] theorem onSlot_im (s : State) (n : Nat) (f : SolveSlot → SolveSlot) : (onSlot s n f).im = s.im := rfl
@[simp] theorem onSlot_pa (s : State) (n : Nat) (f : SolveSlot → SolveSlot) : (onSlot s n f).pa = s.pa := rfl
@[simp] theorem onSlot_rtc (s : State) (n : Nat) (f : SolveSlot → SolveSlot) : (onSlot s n f).rtc = s.rtc := rfl
@[simp] theorem onSlot_rs (s : State) (n : Nat) (f : SolveSlot → SolveSlot) : (onSlot s n f).rs = s.rs := rfl
@[simp] theorem onSlot_cv (s : State) (n : Nat) (f : SolveSlot → SolveSlot) : (onSlot s n f).cv = s.cv := rfl
@[simp] theorem onSlot_ks (s : State) (n : Nat) (f : SolveSlot → SolveSlot) : (onSlot s n f).ks = s.ks := rfl
@[simp] theorem onSlot_ev (s : State) (n : Nat) (f : SolveSlot → SolveSlot) : (onSlot s n f).ev = s.ev := rfl
@[simp] theorem onSlot_ma (s : State) (n : Nat) (f : SolveSlot → SolveSlot) : (onSlot s n f).ma = s.ma := rfl
@[simp] theorem onSlot_rp (s : State) (n : Nat) (f : SolveSlot → SolveSlot) : (onSlot s n f).rp = s.rp := rfl
@[simp] theorem onSlot_free (s : State) (n : Nat) (f : SolveSlot → SolveSlot) : (onSlot s n f).free = s.free := rfl
@[simp] theorem onSlot_pending (s : State) (n : Nat) (f : SolveSlot → SolveSlot) : (onSlot s n f).pending = s.pending := rfl

/-! setHeat changes hq only. -/

@[simp] theorem setHeat_part (s : State) (n : Nat) (h : Heat) : (setHeat s n h).part = s.part := rfl
@[simp] theorem setHeat_clk (s : State) (n : Nat) (h : Heat) : (setHeat s n h).clk = s.clk := rfl
@[simp] theorem setHeat_pwr (s : State) (n : Nat) (h : Heat) : (setHeat s n h).pwr = s.pwr := rfl
@[simp] theorem setHeat_net (s : State) (n : Nat) (h : Heat) : (setHeat s n h).net = s.net := rfl
@[simp] theorem setHeat_un (s : State) (n : Nat) (h : Heat) : (setHeat s n h).un = s.un := rfl
@[simp] theorem setHeat_pt (s : State) (n : Nat) (h : Heat) : (setHeat s n h).pt = s.pt := rfl
@[simp] theorem setHeat_ln (s : State) (n : Nat) (h : Heat) : (setHeat s n h).ln = s.ln := rfl
@[simp] theorem setHeat_lnReq (s : State) (n : Nat) (h : Heat) : (setHeat s n h).lnReq = s.lnReq := rfl
@[simp] theorem setHeat_lbw (s : State) (n : Nat) (h : Heat) : (setHeat s n h).lbw = s.lbw := rfl
@[simp] theorem setHeat_ce (s : State) (n : Nat) (h : Heat) : (setHeat s n h).ce = s.ce := rfl
@[simp] theorem setHeat_sv (s : State) (n : Nat) (h : Heat) : (setHeat s n h).sv = s.sv := rfl
@[simp] theorem setHeat_vn (s : State) (n : Nat) (h : Heat) : (setHeat s n h).vn = s.vn := rfl
@[simp] theorem setHeat_ft (s : State) (n : Nat) (h : Heat) : (setHeat s n h).ft = s.ft := rfl
@[simp] theorem setHeat_mt (s : State) (n : Nat) (h : Heat) : (setHeat s n h).mt = s.mt := rfl
@[simp] theorem setHeat_glb (s : State) (n : Nat) (h : Heat) : (setHeat s n h).glb = s.glb := rfl
@[simp] theorem setHeat_pcie (s : State) (n : Nat) (h : Heat) : (setHeat s n h).pcie = s.pcie := rfl
@[simp] theorem setHeat_link (s : State) (n : Nat) (h : Heat) : (setHeat s n h).link = s.link := rfl
@[simp] theorem setHeat_mb (s : State) (n : Nat) (h : Heat) : (setHeat s n h).mb = s.mb := rfl
@[simp] theorem setHeat_im (s : State) (n : Nat) (h : Heat) : (setHeat s n h).im = s.im := rfl
@[simp] theorem setHeat_pa (s : State) (n : Nat) (h : Heat) : (setHeat s n h).pa = s.pa := rfl
@[simp] theorem setHeat_rtc (s : State) (n : Nat) (h : Heat) : (setHeat s n h).rtc = s.rtc := rfl
@[simp] theorem setHeat_rs (s : State) (n : Nat) (h : Heat) : (setHeat s n h).rs = s.rs := rfl
@[simp] theorem setHeat_cv (s : State) (n : Nat) (h : Heat) : (setHeat s n h).cv = s.cv := rfl
@[simp] theorem setHeat_ks (s : State) (n : Nat) (h : Heat) : (setHeat s n h).ks = s.ks := rfl
@[simp] theorem setHeat_ev (s : State) (n : Nat) (h : Heat) : (setHeat s n h).ev = s.ev := rfl
@[simp] theorem setHeat_ma (s : State) (n : Nat) (h : Heat) : (setHeat s n h).ma = s.ma := rfl
@[simp] theorem setHeat_rp (s : State) (n : Nat) (h : Heat) : (setHeat s n h).rp = s.rp := rfl
@[simp] theorem setHeat_free (s : State) (n : Nat) (h : Heat) : (setHeat s n h).free = s.free := rfl
@[simp] theorem setHeat_pending (s : State) (n : Nat) (h : Heat) : (setHeat s n h).pending = s.pending := rfl

/-! owe changes link and pcie only. -/

@[simp] theorem owe_part (s : State) (v : Nat) : (owe s v).part = s.part := rfl
@[simp] theorem owe_clk (s : State) (v : Nat) : (owe s v).clk = s.clk := rfl
@[simp] theorem owe_pwr (s : State) (v : Nat) : (owe s v).pwr = s.pwr := rfl
@[simp] theorem owe_net (s : State) (v : Nat) : (owe s v).net = s.net := rfl
@[simp] theorem owe_un (s : State) (v : Nat) : (owe s v).un = s.un := rfl
@[simp] theorem owe_pt (s : State) (v : Nat) : (owe s v).pt = s.pt := rfl
@[simp] theorem owe_ln (s : State) (v : Nat) : (owe s v).ln = s.ln := rfl
@[simp] theorem owe_lnReq (s : State) (v : Nat) : (owe s v).lnReq = s.lnReq := rfl
@[simp] theorem owe_lbw (s : State) (v : Nat) : (owe s v).lbw = s.lbw := rfl
@[simp] theorem owe_ce (s : State) (v : Nat) : (owe s v).ce = s.ce := rfl
@[simp] theorem owe_sv (s : State) (v : Nat) : (owe s v).sv = s.sv := rfl
@[simp] theorem owe_vn (s : State) (v : Nat) : (owe s v).vn = s.vn := rfl
@[simp] theorem owe_ft (s : State) (v : Nat) : (owe s v).ft = s.ft := rfl
@[simp] theorem owe_mt (s : State) (v : Nat) : (owe s v).mt = s.mt := rfl
@[simp] theorem owe_hq (s : State) (v : Nat) : (owe s v).hq = s.hq := rfl
@[simp] theorem owe_glb (s : State) (v : Nat) : (owe s v).glb = s.glb := rfl
@[simp] theorem owe_mb (s : State) (v : Nat) : (owe s v).mb = s.mb := rfl
@[simp] theorem owe_im (s : State) (v : Nat) : (owe s v).im = s.im := rfl
@[simp] theorem owe_pa (s : State) (v : Nat) : (owe s v).pa = s.pa := rfl
@[simp] theorem owe_rtc (s : State) (v : Nat) : (owe s v).rtc = s.rtc := rfl
@[simp] theorem owe_rs (s : State) (v : Nat) : (owe s v).rs = s.rs := rfl
@[simp] theorem owe_cv (s : State) (v : Nat) : (owe s v).cv = s.cv := rfl
@[simp] theorem owe_ks (s : State) (v : Nat) : (owe s v).ks = s.ks := rfl
@[simp] theorem owe_ev (s : State) (v : Nat) : (owe s v).ev = s.ev := rfl
@[simp] theorem owe_ma (s : State) (v : Nat) : (owe s v).ma = s.ma := rfl
@[simp] theorem owe_rp (s : State) (v : Nat) : (owe s v).rp = s.rp := rfl
@[simp] theorem owe_free (s : State) (v : Nat) : (owe s v).free = s.free := rfl
@[simp] theorem owe_pending (s : State) (v : Nat) : (owe s v).pending = s.pending := rfl

/-! setIrq changes glb only. -/

@[simp] theorem setIrq_part (s : State) (b : Nat) : (setIrq s b).part = s.part := rfl
@[simp] theorem setIrq_clk (s : State) (b : Nat) : (setIrq s b).clk = s.clk := rfl
@[simp] theorem setIrq_pwr (s : State) (b : Nat) : (setIrq s b).pwr = s.pwr := rfl
@[simp] theorem setIrq_net (s : State) (b : Nat) : (setIrq s b).net = s.net := rfl
@[simp] theorem setIrq_un (s : State) (b : Nat) : (setIrq s b).un = s.un := rfl
@[simp] theorem setIrq_pt (s : State) (b : Nat) : (setIrq s b).pt = s.pt := rfl
@[simp] theorem setIrq_ln (s : State) (b : Nat) : (setIrq s b).ln = s.ln := rfl
@[simp] theorem setIrq_lnReq (s : State) (b : Nat) : (setIrq s b).lnReq = s.lnReq := rfl
@[simp] theorem setIrq_lbw (s : State) (b : Nat) : (setIrq s b).lbw = s.lbw := rfl
@[simp] theorem setIrq_ce (s : State) (b : Nat) : (setIrq s b).ce = s.ce := rfl
@[simp] theorem setIrq_sv (s : State) (b : Nat) : (setIrq s b).sv = s.sv := rfl
@[simp] theorem setIrq_vn (s : State) (b : Nat) : (setIrq s b).vn = s.vn := rfl
@[simp] theorem setIrq_ft (s : State) (b : Nat) : (setIrq s b).ft = s.ft := rfl
@[simp] theorem setIrq_mt (s : State) (b : Nat) : (setIrq s b).mt = s.mt := rfl
@[simp] theorem setIrq_hq (s : State) (b : Nat) : (setIrq s b).hq = s.hq := rfl
@[simp] theorem setIrq_pcie (s : State) (b : Nat) : (setIrq s b).pcie = s.pcie := rfl
@[simp] theorem setIrq_link (s : State) (b : Nat) : (setIrq s b).link = s.link := rfl
@[simp] theorem setIrq_mb (s : State) (b : Nat) : (setIrq s b).mb = s.mb := rfl
@[simp] theorem setIrq_im (s : State) (b : Nat) : (setIrq s b).im = s.im := rfl
@[simp] theorem setIrq_pa (s : State) (b : Nat) : (setIrq s b).pa = s.pa := rfl
@[simp] theorem setIrq_rtc (s : State) (b : Nat) : (setIrq s b).rtc = s.rtc := rfl
@[simp] theorem setIrq_rs (s : State) (b : Nat) : (setIrq s b).rs = s.rs := rfl
@[simp] theorem setIrq_cv (s : State) (b : Nat) : (setIrq s b).cv = s.cv := rfl
@[simp] theorem setIrq_ks (s : State) (b : Nat) : (setIrq s b).ks = s.ks := rfl
@[simp] theorem setIrq_ev (s : State) (b : Nat) : (setIrq s b).ev = s.ev := rfl
@[simp] theorem setIrq_ma (s : State) (b : Nat) : (setIrq s b).ma = s.ma := rfl
@[simp] theorem setIrq_rp (s : State) (b : Nat) : (setIrq s b).rp = s.rp := rfl
@[simp] theorem setIrq_free (s : State) (b : Nat) : (setIrq s b).free = s.free := rfl
@[simp] theorem setIrq_pending (s : State) (b : Nat) : (setIrq s b).pending = s.pending := rfl

/-! countPw changes glb only. -/

@[simp] theorem countPw_part (s : State) : (countPw s).part = s.part := rfl
@[simp] theorem countPw_clk (s : State) : (countPw s).clk = s.clk := rfl
@[simp] theorem countPw_pwr (s : State) : (countPw s).pwr = s.pwr := rfl
@[simp] theorem countPw_net (s : State) : (countPw s).net = s.net := rfl
@[simp] theorem countPw_un (s : State) : (countPw s).un = s.un := rfl
@[simp] theorem countPw_pt (s : State) : (countPw s).pt = s.pt := rfl
@[simp] theorem countPw_ln (s : State) : (countPw s).ln = s.ln := rfl
@[simp] theorem countPw_lnReq (s : State) : (countPw s).lnReq = s.lnReq := rfl
@[simp] theorem countPw_lbw (s : State) : (countPw s).lbw = s.lbw := rfl
@[simp] theorem countPw_ce (s : State) : (countPw s).ce = s.ce := rfl
@[simp] theorem countPw_sv (s : State) : (countPw s).sv = s.sv := rfl
@[simp] theorem countPw_vn (s : State) : (countPw s).vn = s.vn := rfl
@[simp] theorem countPw_ft (s : State) : (countPw s).ft = s.ft := rfl
@[simp] theorem countPw_mt (s : State) : (countPw s).mt = s.mt := rfl
@[simp] theorem countPw_hq (s : State) : (countPw s).hq = s.hq := rfl
@[simp] theorem countPw_pcie (s : State) : (countPw s).pcie = s.pcie := rfl
@[simp] theorem countPw_link (s : State) : (countPw s).link = s.link := rfl
@[simp] theorem countPw_mb (s : State) : (countPw s).mb = s.mb := rfl
@[simp] theorem countPw_im (s : State) : (countPw s).im = s.im := rfl
@[simp] theorem countPw_pa (s : State) : (countPw s).pa = s.pa := rfl
@[simp] theorem countPw_rtc (s : State) : (countPw s).rtc = s.rtc := rfl
@[simp] theorem countPw_rs (s : State) : (countPw s).rs = s.rs := rfl
@[simp] theorem countPw_cv (s : State) : (countPw s).cv = s.cv := rfl
@[simp] theorem countPw_ks (s : State) : (countPw s).ks = s.ks := rfl
@[simp] theorem countPw_ev (s : State) : (countPw s).ev = s.ev := rfl
@[simp] theorem countPw_ma (s : State) : (countPw s).ma = s.ma := rfl
@[simp] theorem countPw_rp (s : State) : (countPw s).rp = s.rp := rfl
@[simp] theorem countPw_free (s : State) : (countPw s).free = s.free := rfl
@[simp] theorem countPw_pending (s : State) : (countPw s).pending = s.pending := rfl

/-! countMb changes glb only. -/

@[simp] theorem countMb_part (s : State) : (countMb s).part = s.part := rfl
@[simp] theorem countMb_clk (s : State) : (countMb s).clk = s.clk := rfl
@[simp] theorem countMb_pwr (s : State) : (countMb s).pwr = s.pwr := rfl
@[simp] theorem countMb_net (s : State) : (countMb s).net = s.net := rfl
@[simp] theorem countMb_un (s : State) : (countMb s).un = s.un := rfl
@[simp] theorem countMb_pt (s : State) : (countMb s).pt = s.pt := rfl
@[simp] theorem countMb_ln (s : State) : (countMb s).ln = s.ln := rfl
@[simp] theorem countMb_lnReq (s : State) : (countMb s).lnReq = s.lnReq := rfl
@[simp] theorem countMb_lbw (s : State) : (countMb s).lbw = s.lbw := rfl
@[simp] theorem countMb_ce (s : State) : (countMb s).ce = s.ce := rfl
@[simp] theorem countMb_sv (s : State) : (countMb s).sv = s.sv := rfl
@[simp] theorem countMb_vn (s : State) : (countMb s).vn = s.vn := rfl
@[simp] theorem countMb_ft (s : State) : (countMb s).ft = s.ft := rfl
@[simp] theorem countMb_mt (s : State) : (countMb s).mt = s.mt := rfl
@[simp] theorem countMb_hq (s : State) : (countMb s).hq = s.hq := rfl
@[simp] theorem countMb_pcie (s : State) : (countMb s).pcie = s.pcie := rfl
@[simp] theorem countMb_link (s : State) : (countMb s).link = s.link := rfl
@[simp] theorem countMb_mb (s : State) : (countMb s).mb = s.mb := rfl
@[simp] theorem countMb_im (s : State) : (countMb s).im = s.im := rfl
@[simp] theorem countMb_pa (s : State) : (countMb s).pa = s.pa := rfl
@[simp] theorem countMb_rtc (s : State) : (countMb s).rtc = s.rtc := rfl
@[simp] theorem countMb_rs (s : State) : (countMb s).rs = s.rs := rfl
@[simp] theorem countMb_cv (s : State) : (countMb s).cv = s.cv := rfl
@[simp] theorem countMb_ks (s : State) : (countMb s).ks = s.ks := rfl
@[simp] theorem countMb_ev (s : State) : (countMb s).ev = s.ev := rfl
@[simp] theorem countMb_ma (s : State) : (countMb s).ma = s.ma := rfl
@[simp] theorem countMb_rp (s : State) : (countMb s).rp = s.rp := rfl
@[simp] theorem countMb_free (s : State) : (countMb s).free = s.free := rfl
@[simp] theorem countMb_pending (s : State) : (countMb s).pending = s.pending := rfl

/-! countSpi changes glb only. -/

@[simp] theorem countSpi_part (s : State) : (countSpi s).part = s.part := rfl
@[simp] theorem countSpi_clk (s : State) : (countSpi s).clk = s.clk := rfl
@[simp] theorem countSpi_pwr (s : State) : (countSpi s).pwr = s.pwr := rfl
@[simp] theorem countSpi_net (s : State) : (countSpi s).net = s.net := rfl
@[simp] theorem countSpi_un (s : State) : (countSpi s).un = s.un := rfl
@[simp] theorem countSpi_pt (s : State) : (countSpi s).pt = s.pt := rfl
@[simp] theorem countSpi_ln (s : State) : (countSpi s).ln = s.ln := rfl
@[simp] theorem countSpi_lnReq (s : State) : (countSpi s).lnReq = s.lnReq := rfl
@[simp] theorem countSpi_lbw (s : State) : (countSpi s).lbw = s.lbw := rfl
@[simp] theorem countSpi_ce (s : State) : (countSpi s).ce = s.ce := rfl
@[simp] theorem countSpi_sv (s : State) : (countSpi s).sv = s.sv := rfl
@[simp] theorem countSpi_vn (s : State) : (countSpi s).vn = s.vn := rfl
@[simp] theorem countSpi_ft (s : State) : (countSpi s).ft = s.ft := rfl
@[simp] theorem countSpi_mt (s : State) : (countSpi s).mt = s.mt := rfl
@[simp] theorem countSpi_hq (s : State) : (countSpi s).hq = s.hq := rfl
@[simp] theorem countSpi_pcie (s : State) : (countSpi s).pcie = s.pcie := rfl
@[simp] theorem countSpi_link (s : State) : (countSpi s).link = s.link := rfl
@[simp] theorem countSpi_mb (s : State) : (countSpi s).mb = s.mb := rfl
@[simp] theorem countSpi_im (s : State) : (countSpi s).im = s.im := rfl
@[simp] theorem countSpi_pa (s : State) : (countSpi s).pa = s.pa := rfl
@[simp] theorem countSpi_rtc (s : State) : (countSpi s).rtc = s.rtc := rfl
@[simp] theorem countSpi_rs (s : State) : (countSpi s).rs = s.rs := rfl
@[simp] theorem countSpi_cv (s : State) : (countSpi s).cv = s.cv := rfl
@[simp] theorem countSpi_ks (s : State) : (countSpi s).ks = s.ks := rfl
@[simp] theorem countSpi_ev (s : State) : (countSpi s).ev = s.ev := rfl
@[simp] theorem countSpi_ma (s : State) : (countSpi s).ma = s.ma := rfl
@[simp] theorem countSpi_rp (s : State) : (countSpi s).rp = s.rp := rfl
@[simp] theorem countSpi_free (s : State) : (countSpi s).free = s.free := rfl
@[simp] theorem countSpi_pending (s : State) : (countSpi s).pending = s.pending := rfl

/-! countLink changes glb only. -/

@[simp] theorem countLink_part (s : State) : (countLink s).part = s.part := rfl
@[simp] theorem countLink_clk (s : State) : (countLink s).clk = s.clk := rfl
@[simp] theorem countLink_pwr (s : State) : (countLink s).pwr = s.pwr := rfl
@[simp] theorem countLink_net (s : State) : (countLink s).net = s.net := rfl
@[simp] theorem countLink_un (s : State) : (countLink s).un = s.un := rfl
@[simp] theorem countLink_pt (s : State) : (countLink s).pt = s.pt := rfl
@[simp] theorem countLink_ln (s : State) : (countLink s).ln = s.ln := rfl
@[simp] theorem countLink_lnReq (s : State) : (countLink s).lnReq = s.lnReq := rfl
@[simp] theorem countLink_lbw (s : State) : (countLink s).lbw = s.lbw := rfl
@[simp] theorem countLink_ce (s : State) : (countLink s).ce = s.ce := rfl
@[simp] theorem countLink_sv (s : State) : (countLink s).sv = s.sv := rfl
@[simp] theorem countLink_vn (s : State) : (countLink s).vn = s.vn := rfl
@[simp] theorem countLink_ft (s : State) : (countLink s).ft = s.ft := rfl
@[simp] theorem countLink_mt (s : State) : (countLink s).mt = s.mt := rfl
@[simp] theorem countLink_hq (s : State) : (countLink s).hq = s.hq := rfl
@[simp] theorem countLink_pcie (s : State) : (countLink s).pcie = s.pcie := rfl
@[simp] theorem countLink_link (s : State) : (countLink s).link = s.link := rfl
@[simp] theorem countLink_mb (s : State) : (countLink s).mb = s.mb := rfl
@[simp] theorem countLink_im (s : State) : (countLink s).im = s.im := rfl
@[simp] theorem countLink_pa (s : State) : (countLink s).pa = s.pa := rfl
@[simp] theorem countLink_rtc (s : State) : (countLink s).rtc = s.rtc := rfl
@[simp] theorem countLink_rs (s : State) : (countLink s).rs = s.rs := rfl
@[simp] theorem countLink_cv (s : State) : (countLink s).cv = s.cv := rfl
@[simp] theorem countLink_ks (s : State) : (countLink s).ks = s.ks := rfl
@[simp] theorem countLink_ev (s : State) : (countLink s).ev = s.ev := rfl
@[simp] theorem countLink_ma (s : State) : (countLink s).ma = s.ma := rfl
@[simp] theorem countLink_rp (s : State) : (countLink s).rp = s.rp := rfl
@[simp] theorem countLink_free (s : State) : (countLink s).free = s.free := rfl
@[simp] theorem countLink_pending (s : State) : (countLink s).pending = s.pending := rfl

/-! setProgSlot changes ce only. -/

@[simp] theorem setProgSlot_part (s : State) (i : Nat) (x : ProgSlot) : (setProgSlot s i x).part = s.part := rfl
@[simp] theorem setProgSlot_clk (s : State) (i : Nat) (x : ProgSlot) : (setProgSlot s i x).clk = s.clk := rfl
@[simp] theorem setProgSlot_pwr (s : State) (i : Nat) (x : ProgSlot) : (setProgSlot s i x).pwr = s.pwr := rfl
@[simp] theorem setProgSlot_net (s : State) (i : Nat) (x : ProgSlot) : (setProgSlot s i x).net = s.net := rfl
@[simp] theorem setProgSlot_un (s : State) (i : Nat) (x : ProgSlot) : (setProgSlot s i x).un = s.un := rfl
@[simp] theorem setProgSlot_pt (s : State) (i : Nat) (x : ProgSlot) : (setProgSlot s i x).pt = s.pt := rfl
@[simp] theorem setProgSlot_ln (s : State) (i : Nat) (x : ProgSlot) : (setProgSlot s i x).ln = s.ln := rfl
@[simp] theorem setProgSlot_lnReq (s : State) (i : Nat) (x : ProgSlot) : (setProgSlot s i x).lnReq = s.lnReq := rfl
@[simp] theorem setProgSlot_lbw (s : State) (i : Nat) (x : ProgSlot) : (setProgSlot s i x).lbw = s.lbw := rfl
@[simp] theorem setProgSlot_sv (s : State) (i : Nat) (x : ProgSlot) : (setProgSlot s i x).sv = s.sv := rfl
@[simp] theorem setProgSlot_vn (s : State) (i : Nat) (x : ProgSlot) : (setProgSlot s i x).vn = s.vn := rfl
@[simp] theorem setProgSlot_ft (s : State) (i : Nat) (x : ProgSlot) : (setProgSlot s i x).ft = s.ft := rfl
@[simp] theorem setProgSlot_mt (s : State) (i : Nat) (x : ProgSlot) : (setProgSlot s i x).mt = s.mt := rfl
@[simp] theorem setProgSlot_hq (s : State) (i : Nat) (x : ProgSlot) : (setProgSlot s i x).hq = s.hq := rfl
@[simp] theorem setProgSlot_glb (s : State) (i : Nat) (x : ProgSlot) : (setProgSlot s i x).glb = s.glb := rfl
@[simp] theorem setProgSlot_pcie (s : State) (i : Nat) (x : ProgSlot) : (setProgSlot s i x).pcie = s.pcie := rfl
@[simp] theorem setProgSlot_link (s : State) (i : Nat) (x : ProgSlot) : (setProgSlot s i x).link = s.link := rfl
@[simp] theorem setProgSlot_mb (s : State) (i : Nat) (x : ProgSlot) : (setProgSlot s i x).mb = s.mb := rfl
@[simp] theorem setProgSlot_im (s : State) (i : Nat) (x : ProgSlot) : (setProgSlot s i x).im = s.im := rfl
@[simp] theorem setProgSlot_pa (s : State) (i : Nat) (x : ProgSlot) : (setProgSlot s i x).pa = s.pa := rfl
@[simp] theorem setProgSlot_rtc (s : State) (i : Nat) (x : ProgSlot) : (setProgSlot s i x).rtc = s.rtc := rfl
@[simp] theorem setProgSlot_rs (s : State) (i : Nat) (x : ProgSlot) : (setProgSlot s i x).rs = s.rs := rfl
@[simp] theorem setProgSlot_cv (s : State) (i : Nat) (x : ProgSlot) : (setProgSlot s i x).cv = s.cv := rfl
@[simp] theorem setProgSlot_ks (s : State) (i : Nat) (x : ProgSlot) : (setProgSlot s i x).ks = s.ks := rfl
@[simp] theorem setProgSlot_ev (s : State) (i : Nat) (x : ProgSlot) : (setProgSlot s i x).ev = s.ev := rfl
@[simp] theorem setProgSlot_ma (s : State) (i : Nat) (x : ProgSlot) : (setProgSlot s i x).ma = s.ma := rfl
@[simp] theorem setProgSlot_rp (s : State) (i : Nat) (x : ProgSlot) : (setProgSlot s i x).rp = s.rp := rfl
@[simp] theorem setProgSlot_free (s : State) (i : Nat) (x : ProgSlot) : (setProgSlot s i x).free = s.free := rfl
@[simp] theorem setProgSlot_pending (s : State) (i : Nat) (x : ProgSlot) : (setProgSlot s i x).pending = s.pending := rfl

/-! setActiveArea changes ce only. -/

@[simp] theorem setActiveArea_part (s : State) (a : NMap Word) : (setActiveArea s a).part = s.part := rfl
@[simp] theorem setActiveArea_clk (s : State) (a : NMap Word) : (setActiveArea s a).clk = s.clk := rfl
@[simp] theorem setActiveArea_pwr (s : State) (a : NMap Word) : (setActiveArea s a).pwr = s.pwr := rfl
@[simp] theorem setActiveArea_net (s : State) (a : NMap Word) : (setActiveArea s a).net = s.net := rfl
@[simp] theorem setActiveArea_un (s : State) (a : NMap Word) : (setActiveArea s a).un = s.un := rfl
@[simp] theorem setActiveArea_pt (s : State) (a : NMap Word) : (setActiveArea s a).pt = s.pt := rfl
@[simp] theorem setActiveArea_ln (s : State) (a : NMap Word) : (setActiveArea s a).ln = s.ln := rfl
@[simp] theorem setActiveArea_lnReq (s : State) (a : NMap Word) : (setActiveArea s a).lnReq = s.lnReq := rfl
@[simp] theorem setActiveArea_lbw (s : State) (a : NMap Word) : (setActiveArea s a).lbw = s.lbw := rfl
@[simp] theorem setActiveArea_sv (s : State) (a : NMap Word) : (setActiveArea s a).sv = s.sv := rfl
@[simp] theorem setActiveArea_vn (s : State) (a : NMap Word) : (setActiveArea s a).vn = s.vn := rfl
@[simp] theorem setActiveArea_ft (s : State) (a : NMap Word) : (setActiveArea s a).ft = s.ft := rfl
@[simp] theorem setActiveArea_mt (s : State) (a : NMap Word) : (setActiveArea s a).mt = s.mt := rfl
@[simp] theorem setActiveArea_hq (s : State) (a : NMap Word) : (setActiveArea s a).hq = s.hq := rfl
@[simp] theorem setActiveArea_glb (s : State) (a : NMap Word) : (setActiveArea s a).glb = s.glb := rfl
@[simp] theorem setActiveArea_pcie (s : State) (a : NMap Word) : (setActiveArea s a).pcie = s.pcie := rfl
@[simp] theorem setActiveArea_link (s : State) (a : NMap Word) : (setActiveArea s a).link = s.link := rfl
@[simp] theorem setActiveArea_mb (s : State) (a : NMap Word) : (setActiveArea s a).mb = s.mb := rfl
@[simp] theorem setActiveArea_im (s : State) (a : NMap Word) : (setActiveArea s a).im = s.im := rfl
@[simp] theorem setActiveArea_pa (s : State) (a : NMap Word) : (setActiveArea s a).pa = s.pa := rfl
@[simp] theorem setActiveArea_rtc (s : State) (a : NMap Word) : (setActiveArea s a).rtc = s.rtc := rfl
@[simp] theorem setActiveArea_rs (s : State) (a : NMap Word) : (setActiveArea s a).rs = s.rs := rfl
@[simp] theorem setActiveArea_cv (s : State) (a : NMap Word) : (setActiveArea s a).cv = s.cv := rfl
@[simp] theorem setActiveArea_ks (s : State) (a : NMap Word) : (setActiveArea s a).ks = s.ks := rfl
@[simp] theorem setActiveArea_ev (s : State) (a : NMap Word) : (setActiveArea s a).ev = s.ev := rfl
@[simp] theorem setActiveArea_ma (s : State) (a : NMap Word) : (setActiveArea s a).ma = s.ma := rfl
@[simp] theorem setActiveArea_rp (s : State) (a : NMap Word) : (setActiveArea s a).rp = s.rp := rfl
@[simp] theorem setActiveArea_free (s : State) (a : NMap Word) : (setActiveArea s a).free = s.free := rfl
@[simp] theorem setActiveArea_pending (s : State) (a : NMap Word) : (setActiveArea s a).pending = s.pending := rfl

/-! onTask changes ce only. -/

@[simp] theorem onTask_part (s : State) (t : Nat) (f : TaskRun → TaskRun) : (onTask s t f).part = s.part := rfl
@[simp] theorem onTask_clk (s : State) (t : Nat) (f : TaskRun → TaskRun) : (onTask s t f).clk = s.clk := rfl
@[simp] theorem onTask_pwr (s : State) (t : Nat) (f : TaskRun → TaskRun) : (onTask s t f).pwr = s.pwr := rfl
@[simp] theorem onTask_net (s : State) (t : Nat) (f : TaskRun → TaskRun) : (onTask s t f).net = s.net := rfl
@[simp] theorem onTask_un (s : State) (t : Nat) (f : TaskRun → TaskRun) : (onTask s t f).un = s.un := rfl
@[simp] theorem onTask_pt (s : State) (t : Nat) (f : TaskRun → TaskRun) : (onTask s t f).pt = s.pt := rfl
@[simp] theorem onTask_ln (s : State) (t : Nat) (f : TaskRun → TaskRun) : (onTask s t f).ln = s.ln := rfl
@[simp] theorem onTask_lnReq (s : State) (t : Nat) (f : TaskRun → TaskRun) : (onTask s t f).lnReq = s.lnReq := rfl
@[simp] theorem onTask_lbw (s : State) (t : Nat) (f : TaskRun → TaskRun) : (onTask s t f).lbw = s.lbw := rfl
@[simp] theorem onTask_sv (s : State) (t : Nat) (f : TaskRun → TaskRun) : (onTask s t f).sv = s.sv := rfl
@[simp] theorem onTask_vn (s : State) (t : Nat) (f : TaskRun → TaskRun) : (onTask s t f).vn = s.vn := rfl
@[simp] theorem onTask_ft (s : State) (t : Nat) (f : TaskRun → TaskRun) : (onTask s t f).ft = s.ft := rfl
@[simp] theorem onTask_mt (s : State) (t : Nat) (f : TaskRun → TaskRun) : (onTask s t f).mt = s.mt := rfl
@[simp] theorem onTask_hq (s : State) (t : Nat) (f : TaskRun → TaskRun) : (onTask s t f).hq = s.hq := rfl
@[simp] theorem onTask_glb (s : State) (t : Nat) (f : TaskRun → TaskRun) : (onTask s t f).glb = s.glb := rfl
@[simp] theorem onTask_pcie (s : State) (t : Nat) (f : TaskRun → TaskRun) : (onTask s t f).pcie = s.pcie := rfl
@[simp] theorem onTask_link (s : State) (t : Nat) (f : TaskRun → TaskRun) : (onTask s t f).link = s.link := rfl
@[simp] theorem onTask_mb (s : State) (t : Nat) (f : TaskRun → TaskRun) : (onTask s t f).mb = s.mb := rfl
@[simp] theorem onTask_im (s : State) (t : Nat) (f : TaskRun → TaskRun) : (onTask s t f).im = s.im := rfl
@[simp] theorem onTask_pa (s : State) (t : Nat) (f : TaskRun → TaskRun) : (onTask s t f).pa = s.pa := rfl
@[simp] theorem onTask_rtc (s : State) (t : Nat) (f : TaskRun → TaskRun) : (onTask s t f).rtc = s.rtc := rfl
@[simp] theorem onTask_rs (s : State) (t : Nat) (f : TaskRun → TaskRun) : (onTask s t f).rs = s.rs := rfl
@[simp] theorem onTask_cv (s : State) (t : Nat) (f : TaskRun → TaskRun) : (onTask s t f).cv = s.cv := rfl
@[simp] theorem onTask_ks (s : State) (t : Nat) (f : TaskRun → TaskRun) : (onTask s t f).ks = s.ks := rfl
@[simp] theorem onTask_ev (s : State) (t : Nat) (f : TaskRun → TaskRun) : (onTask s t f).ev = s.ev := rfl
@[simp] theorem onTask_ma (s : State) (t : Nat) (f : TaskRun → TaskRun) : (onTask s t f).ma = s.ma := rfl
@[simp] theorem onTask_rp (s : State) (t : Nat) (f : TaskRun → TaskRun) : (onTask s t f).rp = s.rp := rfl
@[simp] theorem onTask_free (s : State) (t : Nat) (f : TaskRun → TaskRun) : (onTask s t f).free = s.free := rfl
@[simp] theorem onTask_pending (s : State) (t : Nat) (f : TaskRun → TaskRun) : (onTask s t f).pending = s.pending := rfl

/-! finish changes mb and glb only. -/

@[simp] theorem finish_part (s : State) (n : Nat) (r : Reply) : (finish s n r).part = s.part := rfl
@[simp] theorem finish_clk (s : State) (n : Nat) (r : Reply) : (finish s n r).clk = s.clk := rfl
@[simp] theorem finish_pwr (s : State) (n : Nat) (r : Reply) : (finish s n r).pwr = s.pwr := rfl
@[simp] theorem finish_net (s : State) (n : Nat) (r : Reply) : (finish s n r).net = s.net := rfl
@[simp] theorem finish_un (s : State) (n : Nat) (r : Reply) : (finish s n r).un = s.un := rfl
@[simp] theorem finish_pt (s : State) (n : Nat) (r : Reply) : (finish s n r).pt = s.pt := rfl
@[simp] theorem finish_ln (s : State) (n : Nat) (r : Reply) : (finish s n r).ln = s.ln := rfl
@[simp] theorem finish_lnReq (s : State) (n : Nat) (r : Reply) : (finish s n r).lnReq = s.lnReq := rfl
@[simp] theorem finish_lbw (s : State) (n : Nat) (r : Reply) : (finish s n r).lbw = s.lbw := rfl
@[simp] theorem finish_ce (s : State) (n : Nat) (r : Reply) : (finish s n r).ce = s.ce := rfl
@[simp] theorem finish_sv (s : State) (n : Nat) (r : Reply) : (finish s n r).sv = s.sv := rfl
@[simp] theorem finish_vn (s : State) (n : Nat) (r : Reply) : (finish s n r).vn = s.vn := rfl
@[simp] theorem finish_ft (s : State) (n : Nat) (r : Reply) : (finish s n r).ft = s.ft := rfl
@[simp] theorem finish_mt (s : State) (n : Nat) (r : Reply) : (finish s n r).mt = s.mt := rfl
@[simp] theorem finish_hq (s : State) (n : Nat) (r : Reply) : (finish s n r).hq = s.hq := rfl
@[simp] theorem finish_pcie (s : State) (n : Nat) (r : Reply) : (finish s n r).pcie = s.pcie := rfl
@[simp] theorem finish_link (s : State) (n : Nat) (r : Reply) : (finish s n r).link = s.link := rfl
@[simp] theorem finish_im (s : State) (n : Nat) (r : Reply) : (finish s n r).im = s.im := rfl
@[simp] theorem finish_pa (s : State) (n : Nat) (r : Reply) : (finish s n r).pa = s.pa := rfl
@[simp] theorem finish_rtc (s : State) (n : Nat) (r : Reply) : (finish s n r).rtc = s.rtc := rfl
@[simp] theorem finish_rs (s : State) (n : Nat) (r : Reply) : (finish s n r).rs = s.rs := rfl
@[simp] theorem finish_cv (s : State) (n : Nat) (r : Reply) : (finish s n r).cv = s.cv := rfl
@[simp] theorem finish_ks (s : State) (n : Nat) (r : Reply) : (finish s n r).ks = s.ks := rfl
@[simp] theorem finish_ev (s : State) (n : Nat) (r : Reply) : (finish s n r).ev = s.ev := rfl
@[simp] theorem finish_ma (s : State) (n : Nat) (r : Reply) : (finish s n r).ma = s.ma := rfl
@[simp] theorem finish_rp (s : State) (n : Nat) (r : Reply) : (finish s n r).rp = s.rp := rfl
@[simp] theorem finish_free (s : State) (n : Nat) (r : Reply) : (finish s n r).free = s.free := rfl
@[simp] theorem finish_pending (s : State) (n : Nat) (r : Reply) : (finish s n r).pending = s.pending := rfl

/-! refuse changes mb and glb only. -/

@[simp] theorem refuse_part (s : State) (n st : Nat) : (refuse s n st).part = s.part := rfl
@[simp] theorem refuse_clk (s : State) (n st : Nat) : (refuse s n st).clk = s.clk := rfl
@[simp] theorem refuse_pwr (s : State) (n st : Nat) : (refuse s n st).pwr = s.pwr := rfl
@[simp] theorem refuse_net (s : State) (n st : Nat) : (refuse s n st).net = s.net := rfl
@[simp] theorem refuse_un (s : State) (n st : Nat) : (refuse s n st).un = s.un := rfl
@[simp] theorem refuse_pt (s : State) (n st : Nat) : (refuse s n st).pt = s.pt := rfl
@[simp] theorem refuse_ln (s : State) (n st : Nat) : (refuse s n st).ln = s.ln := rfl
@[simp] theorem refuse_lnReq (s : State) (n st : Nat) : (refuse s n st).lnReq = s.lnReq := rfl
@[simp] theorem refuse_lbw (s : State) (n st : Nat) : (refuse s n st).lbw = s.lbw := rfl
@[simp] theorem refuse_ce (s : State) (n st : Nat) : (refuse s n st).ce = s.ce := rfl
@[simp] theorem refuse_sv (s : State) (n st : Nat) : (refuse s n st).sv = s.sv := rfl
@[simp] theorem refuse_vn (s : State) (n st : Nat) : (refuse s n st).vn = s.vn := rfl
@[simp] theorem refuse_ft (s : State) (n st : Nat) : (refuse s n st).ft = s.ft := rfl
@[simp] theorem refuse_mt (s : State) (n st : Nat) : (refuse s n st).mt = s.mt := rfl
@[simp] theorem refuse_hq (s : State) (n st : Nat) : (refuse s n st).hq = s.hq := rfl
@[simp] theorem refuse_pcie (s : State) (n st : Nat) : (refuse s n st).pcie = s.pcie := rfl
@[simp] theorem refuse_link (s : State) (n st : Nat) : (refuse s n st).link = s.link := rfl
@[simp] theorem refuse_im (s : State) (n st : Nat) : (refuse s n st).im = s.im := rfl
@[simp] theorem refuse_pa (s : State) (n st : Nat) : (refuse s n st).pa = s.pa := rfl
@[simp] theorem refuse_rtc (s : State) (n st : Nat) : (refuse s n st).rtc = s.rtc := rfl
@[simp] theorem refuse_rs (s : State) (n st : Nat) : (refuse s n st).rs = s.rs := rfl
@[simp] theorem refuse_cv (s : State) (n st : Nat) : (refuse s n st).cv = s.cv := rfl
@[simp] theorem refuse_ks (s : State) (n st : Nat) : (refuse s n st).ks = s.ks := rfl
@[simp] theorem refuse_ev (s : State) (n st : Nat) : (refuse s n st).ev = s.ev := rfl
@[simp] theorem refuse_ma (s : State) (n st : Nat) : (refuse s n st).ma = s.ma := rfl
@[simp] theorem refuse_rp (s : State) (n st : Nat) : (refuse s n st).rp = s.rp := rfl
@[simp] theorem refuse_free (s : State) (n st : Nat) : (refuse s n st).free = s.free := rfl
@[simp] theorem refuse_pending (s : State) (n st : Nat) : (refuse s n st).pending = s.pending := rfl

/-! accept changes mb only. -/

@[simp] theorem accept_part (s : State) (n : Nat) : (accept s n).part = s.part := rfl
@[simp] theorem accept_clk (s : State) (n : Nat) : (accept s n).clk = s.clk := rfl
@[simp] theorem accept_pwr (s : State) (n : Nat) : (accept s n).pwr = s.pwr := rfl
@[simp] theorem accept_net (s : State) (n : Nat) : (accept s n).net = s.net := rfl
@[simp] theorem accept_un (s : State) (n : Nat) : (accept s n).un = s.un := rfl
@[simp] theorem accept_pt (s : State) (n : Nat) : (accept s n).pt = s.pt := rfl
@[simp] theorem accept_ln (s : State) (n : Nat) : (accept s n).ln = s.ln := rfl
@[simp] theorem accept_lnReq (s : State) (n : Nat) : (accept s n).lnReq = s.lnReq := rfl
@[simp] theorem accept_lbw (s : State) (n : Nat) : (accept s n).lbw = s.lbw := rfl
@[simp] theorem accept_ce (s : State) (n : Nat) : (accept s n).ce = s.ce := rfl
@[simp] theorem accept_sv (s : State) (n : Nat) : (accept s n).sv = s.sv := rfl
@[simp] theorem accept_vn (s : State) (n : Nat) : (accept s n).vn = s.vn := rfl
@[simp] theorem accept_ft (s : State) (n : Nat) : (accept s n).ft = s.ft := rfl
@[simp] theorem accept_mt (s : State) (n : Nat) : (accept s n).mt = s.mt := rfl
@[simp] theorem accept_hq (s : State) (n : Nat) : (accept s n).hq = s.hq := rfl
@[simp] theorem accept_glb (s : State) (n : Nat) : (accept s n).glb = s.glb := rfl
@[simp] theorem accept_pcie (s : State) (n : Nat) : (accept s n).pcie = s.pcie := rfl
@[simp] theorem accept_link (s : State) (n : Nat) : (accept s n).link = s.link := rfl
@[simp] theorem accept_im (s : State) (n : Nat) : (accept s n).im = s.im := rfl
@[simp] theorem accept_pa (s : State) (n : Nat) : (accept s n).pa = s.pa := rfl
@[simp] theorem accept_rtc (s : State) (n : Nat) : (accept s n).rtc = s.rtc := rfl
@[simp] theorem accept_rs (s : State) (n : Nat) : (accept s n).rs = s.rs := rfl
@[simp] theorem accept_cv (s : State) (n : Nat) : (accept s n).cv = s.cv := rfl
@[simp] theorem accept_ks (s : State) (n : Nat) : (accept s n).ks = s.ks := rfl
@[simp] theorem accept_ev (s : State) (n : Nat) : (accept s n).ev = s.ev := rfl
@[simp] theorem accept_ma (s : State) (n : Nat) : (accept s n).ma = s.ma := rfl
@[simp] theorem accept_rp (s : State) (n : Nat) : (accept s n).rp = s.rp := rfl
@[simp] theorem accept_free (s : State) (n : Nat) : (accept s n).free = s.free := rfl
@[simp] theorem accept_pending (s : State) (n : Nat) : (accept s n).pending = s.pending := rfl

/-! settle changes link and pcie only. -/

@[simp] theorem settle_part (s : State) : (settle s).part = s.part := by unfold settle; dsimp only; split <;> rfl
@[simp] theorem settle_clk (s : State) : (settle s).clk = s.clk := by unfold settle; dsimp only; split <;> rfl
@[simp] theorem settle_pwr (s : State) : (settle s).pwr = s.pwr := by unfold settle; dsimp only; split <;> rfl
@[simp] theorem settle_net (s : State) : (settle s).net = s.net := by unfold settle; dsimp only; split <;> rfl
@[simp] theorem settle_un (s : State) : (settle s).un = s.un := by unfold settle; dsimp only; split <;> rfl
@[simp] theorem settle_pt (s : State) : (settle s).pt = s.pt := by unfold settle; dsimp only; split <;> rfl
@[simp] theorem settle_ln (s : State) : (settle s).ln = s.ln := by unfold settle; dsimp only; split <;> rfl
@[simp] theorem settle_lnReq (s : State) : (settle s).lnReq = s.lnReq := by unfold settle; dsimp only; split <;> rfl
@[simp] theorem settle_lbw (s : State) : (settle s).lbw = s.lbw := by unfold settle; dsimp only; split <;> rfl
@[simp] theorem settle_ce (s : State) : (settle s).ce = s.ce := by unfold settle; dsimp only; split <;> rfl
@[simp] theorem settle_sv (s : State) : (settle s).sv = s.sv := by unfold settle; dsimp only; split <;> rfl
@[simp] theorem settle_vn (s : State) : (settle s).vn = s.vn := by unfold settle; dsimp only; split <;> rfl
@[simp] theorem settle_ft (s : State) : (settle s).ft = s.ft := by unfold settle; dsimp only; split <;> rfl
@[simp] theorem settle_mt (s : State) : (settle s).mt = s.mt := by unfold settle; dsimp only; split <;> rfl
@[simp] theorem settle_hq (s : State) : (settle s).hq = s.hq := by unfold settle; dsimp only; split <;> rfl
@[simp] theorem settle_glb (s : State) : (settle s).glb = s.glb := by unfold settle; dsimp only; split <;> rfl
@[simp] theorem settle_mb (s : State) : (settle s).mb = s.mb := by unfold settle; dsimp only; split <;> rfl
@[simp] theorem settle_im (s : State) : (settle s).im = s.im := by unfold settle; dsimp only; split <;> rfl
@[simp] theorem settle_pa (s : State) : (settle s).pa = s.pa := by unfold settle; dsimp only; split <;> rfl
@[simp] theorem settle_rtc (s : State) : (settle s).rtc = s.rtc := by unfold settle; dsimp only; split <;> rfl
@[simp] theorem settle_rs (s : State) : (settle s).rs = s.rs := by unfold settle; dsimp only; split <;> rfl
@[simp] theorem settle_cv (s : State) : (settle s).cv = s.cv := by unfold settle; dsimp only; split <;> rfl
@[simp] theorem settle_ks (s : State) : (settle s).ks = s.ks := by unfold settle; dsimp only; split <;> rfl
@[simp] theorem settle_ev (s : State) : (settle s).ev = s.ev := by unfold settle; dsimp only; split <;> rfl
@[simp] theorem settle_ma (s : State) : (settle s).ma = s.ma := by unfold settle; dsimp only; split <;> rfl
@[simp] theorem settle_rp (s : State) : (settle s).rp = s.rp := by unfold settle; dsimp only; split <;> rfl
@[simp] theorem settle_free (s : State) : (settle s).free = s.free := by unfold settle; dsimp only; split <;> rfl
@[simp] theorem settle_pending (s : State) : (settle s).pending = s.pending := by unfold settle; dsimp only; split <;> rfl

/-! advanceTo changes clk, rtc, ce, sv only. -/

@[simp] theorem advanceTo_part (s : State) (t : Nat) : (advanceTo s t).part = s.part := by unfold advanceTo; split <;> rfl
@[simp] theorem advanceTo_pwr (s : State) (t : Nat) : (advanceTo s t).pwr = s.pwr := by unfold advanceTo; split <;> rfl
@[simp] theorem advanceTo_net (s : State) (t : Nat) : (advanceTo s t).net = s.net := by unfold advanceTo; split <;> rfl
@[simp] theorem advanceTo_un (s : State) (t : Nat) : (advanceTo s t).un = s.un := by unfold advanceTo; split <;> rfl
@[simp] theorem advanceTo_pt (s : State) (t : Nat) : (advanceTo s t).pt = s.pt := by unfold advanceTo; split <;> rfl
@[simp] theorem advanceTo_ln (s : State) (t : Nat) : (advanceTo s t).ln = s.ln := by unfold advanceTo; split <;> rfl
@[simp] theorem advanceTo_lnReq (s : State) (t : Nat) : (advanceTo s t).lnReq = s.lnReq := by unfold advanceTo; split <;> rfl
@[simp] theorem advanceTo_lbw (s : State) (t : Nat) : (advanceTo s t).lbw = s.lbw := by unfold advanceTo; split <;> rfl
@[simp] theorem advanceTo_vn (s : State) (t : Nat) : (advanceTo s t).vn = s.vn := by unfold advanceTo; split <;> rfl
@[simp] theorem advanceTo_ft (s : State) (t : Nat) : (advanceTo s t).ft = s.ft := by unfold advanceTo; split <;> rfl
@[simp] theorem advanceTo_mt (s : State) (t : Nat) : (advanceTo s t).mt = s.mt := by unfold advanceTo; split <;> rfl
@[simp] theorem advanceTo_hq (s : State) (t : Nat) : (advanceTo s t).hq = s.hq := by unfold advanceTo; split <;> rfl
@[simp] theorem advanceTo_glb (s : State) (t : Nat) : (advanceTo s t).glb = s.glb := by unfold advanceTo; split <;> rfl
@[simp] theorem advanceTo_pcie (s : State) (t : Nat) : (advanceTo s t).pcie = s.pcie := by unfold advanceTo; split <;> rfl
@[simp] theorem advanceTo_link (s : State) (t : Nat) : (advanceTo s t).link = s.link := by unfold advanceTo; split <;> rfl
@[simp] theorem advanceTo_mb (s : State) (t : Nat) : (advanceTo s t).mb = s.mb := by unfold advanceTo; split <;> rfl
@[simp] theorem advanceTo_im (s : State) (t : Nat) : (advanceTo s t).im = s.im := by unfold advanceTo; split <;> rfl
@[simp] theorem advanceTo_pa (s : State) (t : Nat) : (advanceTo s t).pa = s.pa := by unfold advanceTo; split <;> rfl
@[simp] theorem advanceTo_rs (s : State) (t : Nat) : (advanceTo s t).rs = s.rs := by unfold advanceTo; split <;> rfl
@[simp] theorem advanceTo_cv (s : State) (t : Nat) : (advanceTo s t).cv = s.cv := by unfold advanceTo; split <;> rfl
@[simp] theorem advanceTo_ks (s : State) (t : Nat) : (advanceTo s t).ks = s.ks := by unfold advanceTo; split <;> rfl
@[simp] theorem advanceTo_ev (s : State) (t : Nat) : (advanceTo s t).ev = s.ev := by unfold advanceTo; split <;> rfl
@[simp] theorem advanceTo_ma (s : State) (t : Nat) : (advanceTo s t).ma = s.ma := by unfold advanceTo; split <;> rfl
@[simp] theorem advanceTo_rp (s : State) (t : Nat) : (advanceTo s t).rp = s.rp := by unfold advanceTo; split <;> rfl
@[simp] theorem advanceTo_free (s : State) (t : Nat) : (advanceTo s t).free = s.free := by unfold advanceTo; split <;> rfl
@[simp] theorem advanceTo_pending (s : State) (t : Nat) : (advanceTo s t).pending = s.pending := by unfold advanceTo; split <;> rfl

/-! idleTick changes clk, rtc, ce, sv only. -/

@[simp] theorem idleTick_part (s : State) : (idleTick s).part = s.part := by unfold idleTick; repeat (first | split | simp)
@[simp] theorem idleTick_pwr (s : State) : (idleTick s).pwr = s.pwr := by unfold idleTick; repeat (first | split | simp)
@[simp] theorem idleTick_net (s : State) : (idleTick s).net = s.net := by unfold idleTick; repeat (first | split | simp)
@[simp] theorem idleTick_un (s : State) : (idleTick s).un = s.un := by unfold idleTick; repeat (first | split | simp)
@[simp] theorem idleTick_pt (s : State) : (idleTick s).pt = s.pt := by unfold idleTick; repeat (first | split | simp)
@[simp] theorem idleTick_ln (s : State) : (idleTick s).ln = s.ln := by unfold idleTick; repeat (first | split | simp)
@[simp] theorem idleTick_lnReq (s : State) : (idleTick s).lnReq = s.lnReq := by unfold idleTick; repeat (first | split | simp)
@[simp] theorem idleTick_lbw (s : State) : (idleTick s).lbw = s.lbw := by unfold idleTick; repeat (first | split | simp)
@[simp] theorem idleTick_vn (s : State) : (idleTick s).vn = s.vn := by unfold idleTick; repeat (first | split | simp)
@[simp] theorem idleTick_ft (s : State) : (idleTick s).ft = s.ft := by unfold idleTick; repeat (first | split | simp)
@[simp] theorem idleTick_mt (s : State) : (idleTick s).mt = s.mt := by unfold idleTick; repeat (first | split | simp)
@[simp] theorem idleTick_hq (s : State) : (idleTick s).hq = s.hq := by unfold idleTick; repeat (first | split | simp)
@[simp] theorem idleTick_glb (s : State) : (idleTick s).glb = s.glb := by unfold idleTick; repeat (first | split | simp)
@[simp] theorem idleTick_pcie (s : State) : (idleTick s).pcie = s.pcie := by unfold idleTick; repeat (first | split | simp)
@[simp] theorem idleTick_link (s : State) : (idleTick s).link = s.link := by unfold idleTick; repeat (first | split | simp)
@[simp] theorem idleTick_mb (s : State) : (idleTick s).mb = s.mb := by unfold idleTick; repeat (first | split | simp)
@[simp] theorem idleTick_im (s : State) : (idleTick s).im = s.im := by unfold idleTick; repeat (first | split | simp)
@[simp] theorem idleTick_pa (s : State) : (idleTick s).pa = s.pa := by unfold idleTick; repeat (first | split | simp)
@[simp] theorem idleTick_rs (s : State) : (idleTick s).rs = s.rs := by unfold idleTick; repeat (first | split | simp)
@[simp] theorem idleTick_cv (s : State) : (idleTick s).cv = s.cv := by unfold idleTick; repeat (first | split | simp)
@[simp] theorem idleTick_ks (s : State) : (idleTick s).ks = s.ks := by unfold idleTick; repeat (first | split | simp)
@[simp] theorem idleTick_ev (s : State) : (idleTick s).ev = s.ev := by unfold idleTick; repeat (first | split | simp)
@[simp] theorem idleTick_ma (s : State) : (idleTick s).ma = s.ma := by unfold idleTick; repeat (first | split | simp)
@[simp] theorem idleTick_rp (s : State) : (idleTick s).rp = s.rp := by unfold idleTick; repeat (first | split | simp)
@[simp] theorem idleTick_free (s : State) : (idleTick s).free = s.free := by unfold idleTick; repeat (first | split | simp)
@[simp] theorem idleTick_pending (s : State) : (idleTick s).pending = s.pending := by unfold idleTick; repeat (first | split | simp)

end Sys2Proof.Machine
end

