-- ==== Sys2Proof/Laws/Ops.lean ====
section
/-! SUPPORT. What each shared operation can do, said once: the end of every meaning, the run of a block instance, the run of a mailbox command, completion, long responses, the passing of time. -/
namespace Sys2Proof.Machine

/-! The end of a meaning. -/

theorem done_eq {s t : State} (h : done s = .next t) : t = settle s := by
  unfold done at h; injection h with h; exact h.symm

/-- What settling changes: the messages owed, the vectors known as pending, the Pending bits. -/
theorem settle_frame (s : State) : settle s = { s with
    link := { s.link with msiDue := (settle s).link.msiDue, msiWas := (settle s).link.msiWas }
    pcie := { s.pcie with msiPending := (settle s).pcie.msiPending } } := by
  unfold settle; dsimp only; split <;> rfl

@[simp] theorem settle_msiWas (s : State) : (settle s).link.msiWas = vectorsPending s := rfl

@[simp] theorem settle_rdata (s : State) : (settle s).link.rdata = s.link.rdata := by rw [settle_frame]

@[simp] theorem settle_msi (s : State) : (settle s).link.msi = s.link.msi := by rw [settle_frame]

/-- The vectors pending depend on neither the messages owed nor the Pending bits. -/
@[simp] theorem vectorsPending_settle (s : State) : vectorsPending (settle s) = vectorsPending s := by
  rw [settle_frame]; rfl

/-! Time. -/

/-- NT moves on to an instant that lies ahead, and what counts time counts it. -/
theorem advanceTo_of_lt {s : State} {t : Nat} (h : s.clk.nt < t) : advanceTo s t = { s with
    clk := { s.clk with nt := t }, rtc := rtcAfter s (t - s.clk.nt)
    ce := { s.ce with idle := idleRun s (t - s.clk.nt) }, sv := { s.sv with busy := busyRun s (t - s.clk.nt) } } := by
  have : ¬ t ≤ s.clk.nt := by omega
  simp [advanceTo, this]

/-- An instant that has passed changes nothing. -/
theorem advanceTo_of_le {s : State} {t : Nat} (h : t ≤ s.clk.nt) : advanceTo s t = s := by simp [advanceTo, h]

/-- NT never goes backwards. -/
theorem advanceTo_nt (s : State) (t : Nat) : (advanceTo s t).clk.nt = max s.clk.nt t := by
  by_cases h : t ≤ s.clk.nt
  · rw [advanceTo_of_le h]; omega
  · rw [advanceTo_of_lt (by omega)]; simp only; omega

/-- Time that passes moves NT, the RTC, the idle counters and the engine's busy time. -/
theorem advanceTo_frame (s : State) (t : Nat) : advanceTo s t = { s with
    clk := (advanceTo s t).clk, rtc := (advanceTo s t).rtc, ce := (advanceTo s t).ce, sv := (advanceTo s t).sv } := by
  unfold advanceTo; split <;> rfl

/-! Records. -/

/-- A record that is offered changes the recorder only. -/
theorem record_frame (s : State) (code source : Nat) (words : List Word) :
    record s code source words = { s with ev := (record s code source words).ev } := by
  unfold record offerRecord; dsimp only; split
  · rfl
  · split <;> rfl

/-- An event of the RTC changes the recorder, or waits in the RTC. -/
theorem tellRtc_frame (s : State) (code : Nat) (words : List Word) : tellRtc s code words =
    { s with ev := (tellRtc s code words).ev, rtc := { s.rtc with told := (tellRtc s code words).rtc.told } } := by
  unfold tellRtc; split
  · rw [record_frame]
  · rfl

/-- Edges that pass without a clock change the RTC, and the recorder by an alarm. -/
theorem passTicks_frame (s : State) (n : Nat) : passTicks s n = { s with rtc := (passTicks s n).rtc, ev := (passTicks s n).ev } := by
  unfold passTicks fireAlarm; dsimp only; split
  · rfl
  · split
    · rw [tellRtc_frame]
    · rfl

/-! Lists and lines by number. -/

theorem nth_modifyNth_self {α : Type} (d : α) (l : List α) (i : Nat) (f : α → α) (h : i < l.length) :
    nth d (modifyNth l i f) i = f (nth d l i) := by
  induction l generalizing i with
  | nil => simp at h
  | cons a t ih =>
    cases i with
    | zero => simp [modifyNth, nth]
    | succ i =>
      have := ih i (by simpa using h)
      simpa [modifyNth, nth] using this

theorem nth_modifyNth_ne {α : Type} (d : α) (l : List α) {i j : Nat} (f : α → α) (h : j ≠ i) :
    nth d (modifyNth l i f) j = nth d l j := by
  induction l generalizing i j with
  | nil => rfl
  | cons a t ih =>
    cases i with
    | zero =>
      obtain ⟨k, rfl⟩ : ∃ k, j = k + 1 := ⟨j - 1, by omega⟩
      simp [modifyNth, nth]
    | succ i =>
      cases j with
      | zero => simp [modifyNth, nth]
      | succ j =>
        have := ih (i := i) (j := j) (by omega)
        simpa [modifyNth, nth] using this

@[simp] theorem length_modifyNth {α : Type} (l : List α) (i : Nat) (f : α → α) : (modifyNth l i f).length = l.length := by
  induction l generalizing i with
  | nil => rfl
  | cons a t ih => cases i <;> simp [modifyNth, ih]

@[simp] theorem lineOf_setLine_self (s : State) (l : Nat) (x : Line) : lineOf (setLine s l x) l = x := getD_setD_self _ _ _ _

theorem lineOf_setLine_ne (s : State) {l k : Nat} (x : Line) (h : k ≠ l) : lineOf (setLine s l x) k = lineOf s k :=
  getD_setD_ne _ _ _ h

@[simp] theorem heatOf_setHeat_self (s : State) (n : Nat) (h : Heat) : heatOf (setHeat s n h) n = h := getD_setD_self _ _ _ _

theorem box_onBox_self {s : State} {n : Nat} (f : Mailbox → Mailbox) (h : n < s.mb.boxes.length) : box (onBox s n f) n = f (box s n) :=
  nth_modifyNth_self _ _ _ _ h

theorem box_onBox_ne (s : State) {n m : Nat} (f : Mailbox → Mailbox) (h : m ≠ n) : box (onBox s n f) m = box s m :=
  nth_modifyNth_ne _ _ _ h

/-! Mailbox commands. -/

/-- A command that is taken does what its meaning says. -/
theorem runCommand_taken {s : State} {n code : Nat} (h : Taken s n code) (k : Mailbox → State) :
    runCommand s n code k = .next (settle (k (box s n))) := by
  simp [runCommand, h.1, h.2, done]

/-- What a run of a mailbox command can be: nothing, a refusal for an argument word that the command does not name, or its own effect. -/
theorem runCommand_cases (s : State) (n code : Nat) (k : Mailbox → State) :
    runCommand s n code k = done s ∨
    (executes s n code = true ∧ runCommand s n code k = done (refuse s n stBadParameter)) ∨
    (Taken s n code ∧ runCommand s n code k = done (k (box s n))) := by
  unfold runCommand Taken
  cases h1 : executes s n code
  · simp
  · cases h2 : (box s n).unnamedZero (((ruleOf code).map (fun r => r.args)).getD 15) <;> simp [h2]

/-- A metering command that is taken: NOT_PERMITTED on QG64-C40 (10 R310). -/
theorem runMeter_taken {s : State} {n code : Nat} (h : Taken s n code) (k : Mailbox → State) :
    runMeter s n code k = .next (settle (if s.part.m40 then k (box s n) else refuse s n stNotPermitted)) :=
  runCommand_taken h _

/-- A completed command changes its mailbox and the global registers. -/
theorem finish_frame (s : State) (n : Nat) (r : Reply) : finish s n r = { s with mb := (finish s n r).mb, glb := (finish s n r).glb } := rfl

theorem box_finish_ne (s : State) {n m : Nat} (r : Reply) (h : m ≠ n) : box (finish s n r) m = box s m := box_onBox_ne _ _ h

theorem box_finish_self {s : State} {n : Nat} (r : Reply) (h : n < s.mb.boxes.length) : box (finish s n r) n = { box s n with
    state := .done, status := r.status, rtag := (box s n).cmd
    rspLen := r.page.length, page := writeSpan (box s n).page 0 r.page
    res0 := r.res0 % 2 ^ 32, res1 := r.res1 % 2 ^ 32, res2 := r.res2 % 2 ^ 32, res3 := r.res3 % 2 ^ 32
    time := Nat.min (s.clk.nt - (box s n).bellNt) (2 ^ 32 - 1)
    reply := none, dmaWait := false } := box_onBox_self _ h

/-- A completed command keeps the canonical form of its payload page. -/
theorem finish_page_wf {s : State} {n : Nat} (r : Reply) (h : n < s.mb.boxes.length) (hw : Memory.wf (box s n).page = true) :
    Memory.wf (box (finish s n r) n).page = true := by
  rw [box_finish_self r h]; exact writeSpan_wf 0 r.page hw

/-- What a response that can exceed a page becomes: a refusal, a reply with a piece of it, or an accepted command whose transfer is to come. -/
theorem deliver_cases (s : State) (n : Nat) (r : Reply) (total : Bytes) (gen : Nat) :
    deliver s n r total gen = refuse s n stBadParameter ∨
    (∃ r' : Reply, deliver s n r total gen = finish s n r') ∨
    (∃ b : Mailbox → Mailbox, deliver s n r total gen = onBox (accept s n) n b) := by
  unfold deliver
  dsimp only
  split
  · split
    · exact .inl rfl
    · exact .inr (.inr ⟨_, rfl⟩)
  · split
    · exact .inl rfl
    · exact .inr (.inl ⟨_, rfl⟩)

/-! Block instances. -/

/-- An instance that is about to run does what its block makes of what it sees, and its effect beyond its own state. -/
theorem runEffect_at {s : State} {core code : Nat} {c : Ctx} (h : AtBlock s core code c) (f : Ctx → BlkOut) (g : Ctx → BlkOut → State → State) :
    runEffect s core code f g = .next (settle (endInst (g c (f c) s) c core (f c))) := by
  obtain ⟨h1, h2, h3, n, p, t, e, i, h4, h5, h6, h7, rfl⟩ := h
  have h8 : ¬ 4 ≤ core := by omega
  simp [runEffect, h4, h5, h2, h3, h6, h7, h8, done]

theorem runBlock_at {s : State} {core code : Nat} {c : Ctx} (h : AtBlock s core code c) (f : Ctx → BlkOut) :
    runBlock s core code f = .next (settle (endInst s c core (f c))) := runEffect_at h f _

/-- What the run of an instance can be: nothing, or the block's own effect at an instance. -/
theorem runEffect_cases (s : State) (core code : Nat) (f : Ctx → BlkOut) (g : Ctx → BlkOut → State → State) :
    runEffect s core code f g = done s ∨
    ∃ c, AtBlock s core code c ∧ runEffect s core code f g = done (endInst (g c (f c) s) c core (f c)) := by
  cases hn : s.net.image with
  | none => exact .inl (by simp [runEffect, hn])
  | some n =>
    cases hp : activeProg s with
    | none => exact .inl (by simp [runEffect, hn, hp])
    | some p =>
      by_cases hc : (4 ≤ core || !cycling s || s.ft.hwsafe) = true
      · exact .inl (by simp only [runEffect, hn, hp]; rw [if_pos (by simpa using hc)])
      · cases hi : nextInst s p core with
        | none => exact .inl (by simp [runEffect, hn, hp, hi])
        | some q =>
          obtain ⟨t, e, i⟩ := q
          by_cases hb : (p.instAt i).block = code
          · have hc' : core < 4 ∧ cycling s = true ∧ s.ft.hwsafe = false := by
              simp at hc; exact ⟨by omega, hc.1.2, hc.2⟩
            have hat : AtBlock s core code (ctxOf s n p core t e i) :=
              ⟨hc'.1, hc'.2.1, hc'.2.2, n, p, t, e, i, hn, hp, hi, hb, rfl⟩
            exact .inr ⟨_, hat, runEffect_at hat f g⟩
          · exact .inl (by simp [runEffect, hn, hp, hi, hb])

theorem completeTask_frame (s : State) (t : Nat) (e : Exec) : completeTask s t e = { s with ce := (completeTask s t e).ce } := rfl

/-- Completing a task changes the cycle engine only. -/
theorem settleTask_frame (s : State) (t : Nat) : settleTask s t = { s with ce := (settleTask s t).ce } := by
  unfold settleTask
  split
  · split
    · exact completeTask_frame _ _ _
    · rfl
  · rfl

/-- The end of an instance changes the cycle engine only. -/
theorem endInst_frame (s : State) (c : Ctx) (core : Nat) (o : BlkOut) :
    endInst s c core o = { s with ce := (endInst s c core o).ce } := by
  unfold endInst; dsimp only; rw [settleTask_frame]; rfl

end Sys2Proof.Machine
end

