-- ==== Sys2Proof/WellFormed.lean ====
section
/-! DEFINITION. The operands that the table's commands admit: the checks of a command as syntax. -/
namespace Sys2Proof

/-- A frame as ISO 11898-1 forms it: an 11- or 29-bit identifier, a data length code, and at most 64 payload bytes, of the length that the code gives (03 Table 3-6). -/
def Frame.wellFormed (f : Frame) : Bool :=
  decide (f.ident < (if f.ide then 2 ^ 29 else 2 ^ 11)) && decide (f.dlc < 16) && decide (f.data.length ≤ 64) &&
  (f.fdf || decide (f.data.length ≤ 8)) && !(f.remote && f.fdf)

/-- Sample rows of a tick or a part of it: at most 80, each with a 24-bit sample of all 48 channels (10 R286, R293). -/
def sampleRows (rows : List (List Nat)) : Bool :=
  decide (rows.length ≤ 80) && rows.all (fun r => r.length == 48 && r.all (fun x => decide (x < 2 ^ 24)))

/-- The reader of a poisoned word names a core, slot, channel or mailbox that exists. -/
def Reader.wellFormed : Reader → Bool
  | .cycleEngine c => decide (c < 4)
  | .tile n | .staging n | .tileMemory n => decide (n < 4)
  | .meteringDsp c => decide (c < 48)
  | .hostDma n => decide (n < 16)
  | .lineDma | .supervisor | .ventRules | .hostPage => true

/-- Every operand of the command lies in the range that the spec gives it. -/
def Instr.wellFormed : Instr → Bool
  | .boundary => true
  | .safeExitDecision => true
  | .fenceHoldExpiry line => decide (line < 64)
  | .recoveryWindowExpiry line => decide (line < 64)
  | .networkRelease => true
  | .fastRelease => true
  | .taskDeadline _ => true
  | .taskStop _ => true
  | .barrierRelease _ => true
  | .swapStart => true
  | .nop core => decide (core < 4)
  | .add core => decide (core < 4)
  | .sub core => decide (core < 4)
  | .mul core => decide (core < 4)
  | .div core => decide (core < 4)
  | .mod core => decide (core < 4)
  | .abs core => decide (core < 4)
  | .neg core => decide (core < 4)
  | .min core => decide (core < 4)
  | .max core => decide (core < 4)
  | .limit core => decide (core < 4)
  | .sqrt core => decide (core < 4)
  | .scale core => decide (core < 4)
  | .conv core => decide (core < 4)
  | .cmp core => decide (core < 4)
  | .and core => decide (core < 4)
  | .or core => decide (core < 4)
  | .xor core => decide (core < 4)
  | .not core => decide (core < 4)
  | .sel core => decide (core < 4)
  | .mux core => decide (core < 4)
  | .sr core => decide (core < 4)
  | .rs core => decide (core < 4)
  | .bitget core => decide (core < 4)
  | .bitset core => decide (core < 4)
  | .rtrig core => decide (core < 4)
  | .ftrig core => decide (core < 4)
  | .ton core => decide (core < 4)
  | .tof core => decide (core < 4)
  | .tp core => decide (core < 4)
  | .tonL core => decide (core < 4)
  | .ctu core => decide (core < 4)
  | .ctd core => decide (core < 4)
  | .ctud core => decide (core < 4)
  | .ramp core => decide (core < 4)
  | .rate core => decide (core < 4)
  | .pid core => decide (core < 4)
  | .pt1 core => decide (core < 4)
  | .deadband core => decide (core < 4)
  | .hyst core => decide (core < 4)
  | .curve core => decide (core < 4)
  | .heatcurve core => decide (core < 4)
  | .split core => decide (core < 4)
  | .total core => decide (core < 4)
  | .getp core => decide (core < 4)
  | .putp core => decide (core < 4)
  | .qual core => decide (core < 4)
  | .unitstat core => decide (core < 4)
  | .solveReq core => decide (core < 4)
  | .solveGet core => decide (core < 4)
  | .evrec core => decide (core < 4)
  | .clock core => decide (core < 4)
  | .taskDispatch tile => decide (tile < 16)
  | .taskComputeDone tile ctx => decide (tile < 16) && decide (ctx < 2)
  | .taskRetire tile ctx => decide (tile < 16) && decide (ctx < 2)
  | .stagingCopy slot block _ => decide (slot < 4) && decide (block < 1048575)
  | .solveBackstop slot => decide (slot < 4)
  | .basicCycleStart => true
  | .referenceFrame line _ => decide (line < 64)
  | .referenceFrameTimeout line => decide (line < 64)
  | .txWindowStart line window => decide (line < 64) && decide (window.entry < 2048)
  | .txFrameDone line _ _ => decide (line < 64)
  | .retrySend line window _ => decide (line < 64) && decide (window < 2048)
  | .injectionSend line _ => decide (line < 64)
  | .frameReceived line _ frame => decide (line < 64) && frame.wellFormed
  | .rxWindowEnd line window => decide (line < 64) && decide (window < 2048)
  | .lineError line kind _ _ _ => decide (line < 64) && decide (1 ≤ kind ∧ kind ≤ 6)
  | .lineIntegrated line => decide (line < 64)
  | .busOffRecovery line => decide (line < 64)
  | .xcvrFault line _ => decide (line < 64)
  | .ventEvent => true
  | .diChange input _ _ => decide (input < 16)
  | .diFilterExpiry input => decide (input < 16)
  | .faultRaised code cls words => decide (code < 0x10000) && decide (1 ≤ cls ∧ cls ≤ 5) && decide (words.length ≤ 9)
  | .faultHandling => true
  | .safeEntryWatchdog => true
  | .clockLoss _ => true
  | .lockstepMismatch => true
  | .poisonedRead reader _ => reader.wellFormed
  | .scrubPass => true
  | .heartbeat => true
  | .supWdog => true
  | .meterTick samples poisoned => sampleRows samples && poisoned.all (fun x => decide (x.1 < samples.length ∧ x.2.1 < 48))
  | .fundamentalCycle set _ samples => decide (set < 4) && sampleRows samples
  | .lockTimeout set => decide (set < 4)
  | .meterSecond => true
  | .periodicSave => true
  | .meteringStop => true
  | .watchSecond samples => samples.all (fun p => p.length == 3 && p.all (fun x => decide (x.length ≤ 2048) && x.all (fun v => decide (v < 2 ^ 24))))
  | .watchLimit => true
  | .spiWrite addr _ => decide (addr < 0x1000000)
  | .spiRead addr _ => decide (addr < 0x1000000)
  | .spiReserved command => decide (command < 256 ∧ command ≠ 0x02 ∧ command ≠ 0x0B)
  | .spiFrameAbort _ addr _ => decide (addr < 0x1000000)
  | .pcieMemRead addr _ => decide (addr < 0x40000 ∧ addr % 4 = 0)
  | .pcieMemWrite addr _ => decide (addr < 0x40000 ∧ addr % 4 = 0)
  | .pcieConfigAccess _ offset _ enables => decide (offset < 0x1000 ∧ offset % 4 = 0) && decide (enables < 16)
  | .pciePowerState _ => true
  | .linkDown _ => true
  | .msiSend vector => decide (vector < 8)
  | .glbNtLoRead => true
  | .glbCplRead => true
  | .glbIrqStatWrite _ => true
  | .glbIrqEnWrite _ => true
  | .glbIrqMapWrite _ => true
  | .mbDoorbell mb _ => decide (mb < 16)
  | .mailboxTake _ => true
  | .commandCompletion mb _ => decide (mb < 16)
  | .dmaTransfer mb _ _ => decide (mb < 16)
  | .dmaError mb error _ => decide (mb < 16) && decide (error < 16)
  | .dmaCompletionTimeout mb _ => decide (mb < 16)
  | .sysInfo mb => decide (mb < 16)
  | .sysState mb => decide (mb < 16)
  | .sysReset mb => decide (mb < 16)
  | .sysResetExpiry => true
  | .parRead mb => decide (mb < 16)
  | .parWrite mb => decide (mb < 16)
  | .cfgCommit mb => decide (mb < 16)
  | .cfgDiscard mb => decide (mb < 16)
  | .imgPut mb => decide (mb < 16)
  | .imgLoad mb => decide (mb < 16)
  | .imgInfo mb => decide (mb < 16)
  | .fwStage mb => decide (mb < 16)
  | .unitRead mb => decide (mb < 16)
  | .unitService mb => decide (mb < 16)
  | .ptRead mb => decide (mb < 16)
  | .ptDir mb => decide (mb < 16)
  | .ptForce mb => decide (mb < 16)
  | .ptRelease mb => decide (mb < 16)
  | .ptForces mb => decide (mb < 16)
  | .lnService mb => decide (mb < 16)
  | .mxRead mb => decide (mb < 16)
  | .stnRead mb => decide (mb < 16)
  | .ceStatus mb => decide (mb < 16)
  | .ceSwap mb => decide (mb < 16)
  | .ceSwapCancel mb => decide (mb < 16)
  | .ceVarRead mb => decide (mb < 16)
  | .slvEngineStatus mb => decide (mb < 16)
  | .slvSlots mb => decide (mb < 16)
  | .slvResult mb => decide (mb < 16)
  | .slvAbort mb => decide (mb < 16)
  | .slvProgramInfo mb => decide (mb < 16)
  | .slvUnload mb => decide (mb < 16)
  | .mtrRead mb => decide (mb < 16)
  | .mtrReadSigned mb => decide (mb < 16)
  | .mtrRecord mb => decide (mb < 16)
  | .mtrLoss mb => decide (mb < 16)
  | .mtrAckLoss mb => decide (mb < 16)
  | .mtrCalBegin mb => decide (mb < 16)
  | .mtrCalSet mb => decide (mb < 16)
  | .mtrCalMeasure mb => decide (mb < 16)
  | .mtrCalCommit mb => decide (mb < 16)
  | .mtrCalCancel mb => decide (mb < 16)
  | .mtrWatchRead mb => decide (mb < 16)
  | .mtrWatchClear mb => decide (mb < 16)
  | .hqRead mb => decide (mb < 16)
  | .hqReadSigned mb => decide (mb < 16)
  | .hqRecord mb => decide (mb < 16)
  | .hqAckLoss mb => decide (mb < 16)
  | .timeGet mb => decide (mb < 16)
  | .timeSet mb => decide (mb < 16)
  | .timeAdjust mb => decide (mb < 16)
  | .timeChangeApply => true
  | .alarmSet mb => decide (mb < 16)
  | .timeTrim mb => decide (mb < 16)
  | .alarmFire => true
  | .beyondReached => true
  | .oscStop => true
  | .oscRestart => true
  | .batlowCheck _ => true
  | .rtcRegisterRead offset => decide (offset < 0x100 ∧ offset % 4 = 0)
  | .rtcTickHiRead => true
  | .rtcBlockWrite offset _ => decide (offset < 0x100 ∧ offset % 4 = 0)
  | .rtcShadowTimeout => true
  | .rsStore mb => decide (mb < 16)
  | .rsInfo mb => decide (mb < 16)
  | .ctrRead mb => decide (mb < 16)
  | .pageStore => true
  | .counterIncrement => true
  | .rsCmdStore _ => true
  | .rsCmdCtrInc _ => true
  | .rsWdataRead => true
  | .rsWdataWrite _ => true
  | .recallComplete => true
  | .keyInfo mb => decide (mb < 16)
  | .keyStage mb => decide (mb < 16)
  | .keyVerify mb => decide (mb < 16)
  | .keyCommit mb => decide (mb < 16)
  | .keyDiscard mb => decide (mb < 16)
  | .attest mb => decide (mb < 16)
  | .keyPublic mb => decide (mb < 16)
  | .keySlotCheck bad => bad.all (fun x => decide (x.1 < 64) && decide (x.2 < 4))
  | .evrRead mb => decide (mb < 16)
  | .evrExcerpt mb => decide (mb < 16)
  | .evrCode mb => decide (mb < 16)
  | .recordOffer code cls source words => decide (code < 0x10000) && decide (cls ≤ 5) && decide (source ≤ 8) && decide (words.length ≤ 9)
  | .recordWrite => true
  | .excerptDirtyTimeout page => decide (page < 64)
  | .evrCurHiWrite _ => true
  | .evrToOldest => true
  | .evrToNew => true
  | .maStatus mb => decide (mb < 16)
  | .rplCapture mb => decide (mb < 16)
  | .rplSnapGet mb => decide (mb < 16)
  | .rplStart mb => decide (mb < 16)
  | .rplFeed mb => decide (mb < 16)
  | .rplOutput mb => decide (mb < 16)
  | .rplEnd mb => decide (mb < 16)
  | .lbwSelWrite _ => true
  | .lbwWatchWrite _ => true
  | .vntRelease _ => true
  | .vntReleaseAll => true
  | .vntFirstRead => true
  | .safeExit => true
  | .mtrSnap => true
  | .mtrRelease => true
  | .cvStart unit => decide (unit < 8)
  | .cvFeed8 unit _ => decide (unit < 8)
  | .cvFeed16 unit _ => decide (unit < 8)
  | .cvFeed32 unit _ => decide (unit < 8)
  | .cvCfgWrite unit _ => decide (unit < 8)
  | .registerWrite addr _ => decide (addr < 0x40000 ∧ addr % 4 = 0)
  | .vinGood _ => true
  | .vinFail => true
  | .holdEnd => true
  | .vbatLoss => true
  | .vioHChange _ => true
  | .reset _ => true
  | .readyAssert rootGood badSlots => decide (rootGood < 4) && badSlots.all (fun x => decide (x.1 < 64) && decide (x.2 < 4))
  | .activation => true
  | .activationTimeout => true
  | .xcvrFaultCleared line _ => decide (line < 64)
  | .busdom line => decide (line < 64)
  | .vbatPresent => true
  | .vholdCutoff => true
  | .vholdMeasure _ => true
  | .pcieLinkUp => true
  | .internalResetRelease _ => true
  | .startupComplete => true
  | .boundaryScanAccess _ => true

end Sys2Proof
end

