-- ==== Sys2Proof/Tests/Slice0.lean ====
section
/-! SUPPORT. The checks of well-formedness, small tests of single commands, and for every statement with hypotheses states and operands that meet them, clause by clause. -/
set_option Elab.async false
namespace Sys2Proof.Tests
open Sys2Proof.Machine

/-! Ill-formed commands: one for each check. -/

/-- A core, tile, context or slot that does not exist. -/
theorem test_wellFormed_refuses_units :
    ([.nop 4, .add 4, .sub 4, .mul 4, .div 4, .mod 4, .abs 4, .neg 4, .min 4, .max 4, .limit 4, .sqrt 4, .scale 4, .conv 4, .cmp 4, .and 4, .or 4,
      .xor 4, .not 4, .sel 4, .mux 4, .sr 4, .rs 4, .bitget 4, .bitset 4, .rtrig 4, .ftrig 4, .ton 4, .tof 4, .tp 4, .tonL 4, .ctu 4, .ctd 4,
      .ctud 4, .ramp 4, .rate 4, .pid 4, .pt1 4, .deadband 4, .hyst 4, .curve 4, .heatcurve 4, .split 4, .total 4, .getp 4, .putp 4, .qual 4,
      .unitstat 4, .solveReq 4, .solveGet 4, .evrec 4, .clock 4, .taskDispatch 16, .taskComputeDone 16 0, .taskComputeDone 0 2, .taskRetire 16 0,
      .taskRetire 0 2, .stagingCopy 4 0 true, .stagingCopy 0 1048575 true, .solveBackstop 4, .cvStart 8, .cvFeed8 8 0, .cvFeed16 8 0,
      .cvFeed32 8 0, .cvCfgWrite 8 0] : List Instr).all (fun c => !c.wellFormed) = true := by decide +kernel

/-- A line, window, input or frame that does not exist. -/
theorem test_wellFormed_refuses_lines :
    ([.fenceHoldExpiry 64, .recoveryWindowExpiry 64, .referenceFrame 64 0, .referenceFrameTimeout 64, .txWindowStart 64 { entry := 0, idle := 0 }, .txWindowStart 0 { entry := 2048, idle := 0 },
      .txFrameDone 64 0 .acked, .retrySend 64 0 0, .retrySend 0 2048 0, .injectionSend 64 0,
      .frameReceived 64 0 { ident := 0, ide := false, fdf := false, brs := false, esi := false, remote := false, dlc := 0, data := [] },
      .frameReceived 0 0 { ident := 2048, ide := false, fdf := false, brs := false, esi := false, remote := false, dlc := 0, data := [] },
      .frameReceived 0 0 { ident := 2 ^ 29, ide := true, fdf := false, brs := false, esi := false, remote := false, dlc := 0, data := [] },
      .frameReceived 0 0 { ident := 0, ide := false, fdf := false, brs := false, esi := false, remote := false, dlc := 16, data := [] },
      .frameReceived 0 0 { ident := 0, ide := false, fdf := true, brs := false, esi := false, remote := false, dlc := 15, data := List.replicate 65 0 },
      .frameReceived 0 0 { ident := 0, ide := false, fdf := false, brs := false, esi := false, remote := false, dlc := 8, data := List.replicate 9 0 },
      .frameReceived 0 0 { ident := 0, ide := false, fdf := true, brs := false, esi := false, remote := true, dlc := 0, data := [] },
      .rxWindowEnd 64 0, .rxWindowEnd 0 2048, .lineError 64 1 false false .plain, .lineError 0 0 false false .plain, .lineError 0 7 false false .plain,
      .lineIntegrated 64, .busOffRecovery 64, .xcvrFault 64 .thermal, .xcvrFaultCleared 64 .thermal, .busdom 64, .diChange 16 true 0,
      .diFilterExpiry 16] : List Instr).all (fun c => !c.wellFormed) = true := by decide +kernel

/-- A fault, reader, sample block, link access, mailbox, page or register that does not exist. -/
theorem test_wellFormed_refuses_rest :
    ([.faultRaised 0x10000 1 [], .faultRaised 0 0 [], .faultRaised 0 6 [], .faultRaised 0 1 (List.replicate 10 0),
      .poisonedRead (.cycleEngine 4) 0, .poisonedRead (.tile 4) 0, .poisonedRead (.staging 4) 0, .poisonedRead (.tileMemory 4) 0,
      .poisonedRead (.meteringDsp 48) 0, .poisonedRead (.hostDma 16) 0,
      .meterTick (List.replicate 81 (List.replicate 48 0)) [], .meterTick (List.replicate 80 (List.replicate 47 0)) [],
      .meterTick (List.replicate 80 (List.replicate 48 (2 ^ 24))) [], .meterTick [List.replicate 48 0] [(1, 0, 0)], .meterTick [List.replicate 48 0] [(0, 48, 0)],
      .fundamentalCycle 4 0 [], .fundamentalCycle 0 0 (List.replicate 81 (List.replicate 48 0)), .lockTimeout 4,
      .watchSecond [[[0], [0]]], .watchSecond [[[0], [0], [2 ^ 24]]], .watchSecond [[[0], [0], List.replicate 2049 0]],
      .keySlotCheck [(64, 1)], .keySlotCheck [(0, 4)], .readyAssert 4 [], .readyAssert 3 [(64, 1)], .readyAssert 3 [(0, 4)],
      .spiWrite 0x1000000 [], .spiRead 0x1000000 0, .spiReserved 256, .spiReserved 0x02, .spiReserved 0x0B, .spiFrameAbort true 0x1000000 [],
      .pcieMemRead 0x40000 1, .pcieMemRead 2 1, .pcieMemWrite 0x40000 [], .pcieMemWrite 2 [], .pcieConfigAccess false 0x1000 0 0,
      .pcieConfigAccess false 2 0 0, .pcieConfigAccess false 0 0 16, .msiSend 8, .mbDoorbell 16 0, .commandCompletion 16 0, .dmaTransfer 16 [] [],
      .dmaError 16 1 0, .dmaError 0 16 0, .dmaCompletionTimeout 16 0, .rtcRegisterRead 0x100, .rtcRegisterRead 2, .rtcBlockWrite 0x100 0,
      .rtcBlockWrite 2 0, .recordOffer 0x10000 0 0 [], .recordOffer 0 6 0 [], .recordOffer 0 0 9 [], .recordOffer 0 0 0 (List.replicate 10 0),
      .excerptDirtyTimeout 64, .registerWrite 0x40000 0, .registerWrite 2 0] : List Instr).all (fun c => !c.wellFormed) = true := by decide +kernel

/-- A command of a mailbox that does not exist, for every mailbox command. -/
theorem test_wellFormed_refuses_mailboxes : mailboxRows.all (fun r => !(r.2 16).wellFormed && (r.2 15).wellFormed) = true := by decide +kernel

/-! States to test with. -/

/-- The module in RUN, its clocks running, recall made. -/
def live : State := { State.reset with
  clk := { State.reset.clk with nt := 100, running := true, t0 := some 0, begun := true }
  pwr := { Pwr.reset with pstate := 3, ready := true, recalling := false, startDone := true, vhold := 30000 }
  rs := { State.reset.rs with vhold := 30000 } }

/-- The state with a command in EXEC in a mailbox. -/
def posted (s : State) (mb code : Nat) (args : List Nat) : State := onBox s mb (fun b => { b with
  state := .exec, cmd := word code, arg0 := word (nth 0 args 0), arg1 := word (nth 0 args 1), arg2 := word (nth 0 args 2), arg3 := word (nth 0 args 3) })

/-- The same of the module in RUN, in mailbox 1. -/
def cmd (code : Nat) (args : List Nat) : State := posted live 1 code args

/-- The same with an upload or a response by DMA. -/
def dma (s : State) : State := onBox s 1 (fun b => { b with dmaCtl := 1 })

/-! Witnesses: the general statements and the blocks. -/

theorem test_witness_StepRunsTheFrontCommand : { live with pending := [Instr.scrubPass] }.pending = Instr.scrubPass :: [] := rfl

theorem test_witness_StepWithoutACommandIsOneClockCycle :
    (live.pending = [] ∧ live.clk.running = true ∧ live.clk.refOk = true) ∧ (State.reset.pending = [] ∧ State.reset.clk.running = false) ∧
    (∀ fail ∈ [true, false], ∀ power ∈ [true, false],
      let s := { live with clk := { live.clk with refOk := false }, rtc := { live.rtc with oscFail := fail }
                           pwr := { live.pwr with vin := power, vbat := power } }
      s.pending = [] ∧ s.clk.refOk = false ∧ s.rtc.oscFail = fail ∧ s.pwr.vin = power ∧ s.pwr.vbat = power) := by
  decide +kernel

theorem test_witness_HostIrqFollowsTheEnabledSources : State.reset.clk.running = false ∧ live.clk.running = true := by decide

/-- A settled state whose next step is a next state. -/
theorem test_witness_EveryStepKeepsMessagesSettled : MsiSettled State.reset ∧ ∃ t, step State.reset = .next t := ⟨rfl, _, rfl⟩

/-- An instance of a block, NETWORK task, core 0, state at offset 0, no variable bound. -/
def instOf (block : Nat) : Inst :=
  { block := block, task := 1, core := 0, ident := 1, stateOfs := 0, inputs := [], types := [], params := [], outs := [0xFFFFFFFF, 0xFFFFFFFF] }

/-- A network image with nothing in it but a cycle of 10 ms. -/
def netNone : NetImage := { readNet [] with len := 10000, basics := 1, lines := [], rules := [], injs := [], fsRecs := [], events := [], snapLists := [], binTables := [] }

/-- A program of one NETWORK instance on core 0. -/
def progOf (block : Nat) : ProgImage :=
  { readProg [] with tasks := [{ mask := 0, barriers := 0, offs := [], lens := [] }, { mask := 1, barriers := 0, offs := [0], lens := [1] }]
                     lists := [.inst 0], insts := [instOf block] }

/-- An execution of the NETWORK task at its start. -/
def execOf (pos : Nat) : Exec :=
  { start := 100, cycle := 0, release := 100, deadline := 10000, dt := 0, pos := [pos, 0, 0, 0], snap := [], di := 0, skipped := 0, missed := false
    tick := 0, valid := true, beyond := false, pubs := [], view := none }

/-- The module with that program, at the instance. -/
def atInst (block : Nat) : State := { live with
  net := { live.net with image := some netNone }
  ce := { Ce.reset with slotA := { ProgSlot.empty with img := some (progOf block) }, network := { TaskRun.reset with exec := some (execOf 0) } } }

theorem atInst_next : ∀ block < 64, nextInst (atInst block) (progOf block) 0 = some (1, execOf 0, 0) := by decide +kernel

theorem atInst_at (block : Nat) (h : block < 64) : AtBlock (atInst block) 0 block (ctxOf (atInst block) netNone (progOf block) 0 1 (execOf 0) 0) :=
  ⟨by decide, by rfl, by rfl, netNone, progOf block, 1, execOf 0, 0, by rfl, by rfl, atInst_next block h, by rfl, by rfl⟩

theorem blocks_small : ∀ row ∈ arithmeticRows ++ logicRows ++ timeRows ++ controlRows ++ readingRows, row.code < 64 := by decide

/-- Every row of the block statements has a state that is at its block. -/
theorem test_witness_TheBlocksRun :
    ∀ row ∈ arithmeticRows ++ logicRows ++ timeRows ++ controlRows, ∃ s c, AtBlock s 0 row.code c := fun row h => ⟨_, _, atInst_at row.code (blocks_small row (by simp only [List.mem_append] at h ⊢; exact Or.inl h))⟩

theorem test_witness_InterfaceBlocksRun :
    (∀ row ∈ readingRows, ∃ s c, AtBlock s 0 row.code c) ∧
    (∃ s c, AtBlock s 0 0x39 c ∧ c.flag 1 = false) ∧ (∃ s c, AtBlock s 0 0x3E c) ∧ (∃ s c, AtBlock s 0 0x3C c) :=
  ⟨fun row h => ⟨_, _, atInst_at row.code (blocks_small row (by simp only [List.mem_append]; exact Or.inr h))⟩, ⟨_, _, atInst_at 0x39 (by decide), by decide +kernel⟩,
    ⟨_, _, atInst_at 0x3E (by decide)⟩, ⟨_, _, atInst_at 0x3C (by decide)⟩⟩


/-- A program of one PUTP whose input 1 is a constant 1. -/
def putProg : ProgImage := { progOf 0x39 with args := [5, 1, 0], insts := [{ instOf 0x39 with inputs := [0x40000000, 0x40000001], types := [1, 0] }] }

/-- The module at it. -/
def atPut : State := { atInst 0x39 with ce := { (atInst 0x39).ce with slotA := { ProgSlot.empty with img := some putProg } } }

theorem test_witness_InterfaceBlocksRun_write :
    AtBlock atPut 0 0x39 (ctxOf atPut netNone putProg 0 1 (execOf 0) 0) ∧ (ctxOf atPut netNone putProg 0 1 (execOf 0) 0).flag 1 = true :=
  ⟨⟨by decide, by rfl, by rfl, netNone, putProg, 1, execOf 0, 0, by rfl, by rfl, by decide +kernel, by rfl, by rfl⟩, by decide +kernel⟩

theorem test_witness_BlockCommandsChangeOnlyTheCycleEngine : ∃ t, exec (.add 0) (atInst 1) = .next t := ⟨_, rfl⟩

/-! Witnesses: numbers, boundaries, tasks, solves. -/

/-- An instance's view with two immediate inputs, no state before it. -/
def ctx0 (typ : Nat) (vals : List Nat) (params : List Nat) : Ctx :=
  { s := live, net := netNone, prog := progOf 1, exec := execOf 0, task := 1, index := 0
    inst := { instOf 1 with types := List.replicate 8 (word typ), params := params.map word }
    ins := vals.map (fun v => { value := word v, quality := 0 }), prev := [], spec := [], first := false, dt := 0, trig := false }

theorem test_witness_OutputsReachTheirSlots :
    let c := ctxOf (atInst 1) netNone (progOf 1) 0 1 (execOf 0) 0
    c.inst.block ≠ 0 ∧ poisonOf (atInst 1) 0 = none ∧ (∀ e < 2, bindingElem (nth 0xFFFFFFFF c.inst.outs e) = none) ∧
    bindingElem (nth 0xFFFFFFFF c.inst.outs 2) = none ∧ (addBlock c).outs.length = c.inst.outputs ∧ 0 < (addBlock c).outs.length := by decide +kernel

theorem test_witness_ExactResultsSaturateOnce :
    (typeLimits 1 = (-2147483648, 2147483647)) ∧ (typeLimits 1).1 ≤ (typeLimits 1).2 ∧ -2147483649 < (typeLimits 1).1 ∧ (typeLimits 1).2 < 2147483648 ∧
    (ctx0 1 [1, 2] [2]).typ ≠ 3 := by decide +kernel

theorem test_witness_ZeroDivisorsGiveTheStatedResults :
    (∀ a ∈ [1, 0xFFFFFFFF, 0], (ctx0 1 [a, 0] []).typ ≠ 3 ∧ intOf 1 ((ctx0 1 [a, 0] []).input 1).value = 0) ∧
    0 < intOf 1 ((ctx0 1 [1, 0] []).input 0).value ∧ intOf 1 ((ctx0 1 [0xFFFFFFFF, 0] []).input 0).value < 0 ∧ intOf 1 ((ctx0 1 [0, 0] []).input 0).value = 0 ∧
    ((ctx0 3 [0, 0x80000000] []).typ = 3 ∧ feq ((ctx0 3 [0, 0x80000000] []).input 1).value 0 = true) ∧
    ((ctx0 1 [0x80000000, 0xFFFFFFFF] []).input 0).value = 0x80000000 ∧ ((ctx0 1 [0x80000000, 0xFFFFFFFF] []).input 1).value = 0xFFFFFFFF := by decide +kernel

theorem test_witness_SelectionBlocksSelect :
    (ctx0 1 [1] []).flag 0 = true ∧ (ctx0 1 [0, 1] []).flag 0 = false ∧ (ctx0 1 [0, 1] []).flag 1 = true ∧ (ctx0 1 [0, 0] []).flag 1 = false ∧
    ((ctx0 1 [1] [2]).input 0).value.toNat < ((ctx0 1 [1] [2]).param 0).toNat ∧
    (((ctx0 1 [2] [2]).param 0).toNat = 1 + 1 ∧ 1 + 1 ≤ ((ctx0 1 [2] [2]).input 0).value.toNat) := by decide +kernel

theorem test_witness_TimersKeepTheirPhase :
    let t : Timer := { elapsed := 2 ^ 64 - 2, prev := true, run := true }
    t.run = true ∧ 0 < 1 ∧ t.elapsed + 1 < 2 ^ 64 := by decide

/-- The module in a cycle of a network image with one cycle program. -/
def cyc (n : NetImage) (p : ProgImage) : State := { live with
  net := { live.net with image := some n }
  ce := { Ce.reset with slotA := { ProgSlot.empty with img := some p }, pubNt := some 250 } }

/-- A program with a FAST and a NETWORK task of one instance on core 0, and a SLOW task. -/
def tasks : ProgImage :=
  { progOf 1 with fastPeriod := 1000, slowFactor := 2
                  tasks := [{ mask := 1, barriers := 0, offs := [0], lens := [1] }, { mask := 1, barriers := 0, offs := [0], lens := [1] },
                            { mask := 1, barriers := 0, offs := [0], lens := [1] }] }

/-- The same in matrix cycle `k`. -/
def atCycle (k : Nat) : State := { cyc netNone tasks with clk := { live.clk with nt := 10000 * k + 100, k := k } }

theorem test_witness_BoundaryClosesACycleAndOpensTheNext :
    (let s := cyc netNone tasks
     s.net.image = some netNone ∧ s.clk.t0 = some 0 ∧ inRun s = true ∧ s.ft.hwsafe = false ∧ s.clk.begun = true ∧ s.pwr.toState = none) ∧
    (let s := { cyc netNone tasks with clk := { live.clk with t0 := some 25000, begun := false } }
     s.net.image = some netNone ∧ s.clk.t0 = some 25000 ∧ inRun s = true ∧ s.ft.hwsafe = false ∧ s.clk.begun = false ∧ s.pwr.toState = none) ∧
    (∀ x ∈ [none, some { network := [], cycle := [], solves := [], mb := 1, persist := false }],
      let s := { cyc netNone tasks with clk := { live.clk with t0 := some 25000, begun := false }, im := { live.im with netLoad := x } }
      (applyRequests (latchInputs s) netNone).im.netLoad = x) := by decide +kernel

theorem test_witness_TasksAreReleasedAtTheirInstants :
    (∀ k < 2, let s := atCycle k
      let u := publishDue (swapCompletes (advanceTo s (cycleStart s + 250))) (cycleStart s + 250)
      releases s = true ∧ s.ce.network.nextRel = 0 ∧ activeProg u = some tasks ∧ tasks.present 1 = true ∧
      slowDue (releaseTask u tasks 1 250 (boundaryNt u (u.clk.k + 1))) tasks = (k == 0)) ∧
    (activeProg (atCycle 0) = some tasks ∧ releases (atCycle 0) = true ∧ (atCycle 0).ce.fast.nextRel < fastReleases (atCycle 0) tasks) ∧
    (let s := { atCycle 0 with ce := { (atCycle 0).ce with fast := { TaskRun.reset with nextRel := 9 } } }
     activeProg s = some tasks ∧ releases s = true ∧ s.ce.fast.nextRel < fastReleases s tasks) ∧
    (activeProg (atCycle 0) = some tasks ∧ (atCycle 0).ce.network.exec = none ∧ (atCycle 0).ce.network.late = false ∧
     (atCycle 0).ce.slow.exec = none ∧ (atCycle 0).ce.fast.exec = none ∧ slowDue (atCycle 0) tasks = true ∧ (atCycle 0).rp.cycle = none ∧
     (∀ t < 3, 0 ∈ tasks.cores t ∧ tasks.coreList t 0 ≠ [])) ∧
    ((atInst 1).ce.network.exec = some (execOf 0) ∧ (atInst 1).ce.network.stat.recent < 2) := by decide +kernel

/-- The module with an execution of the NETWORK task. -/
def withExec (p : ProgImage) (e : Exec) : State :=
  { cyc netNone p with ce := { (cyc netNone p).ce with network := { TaskRun.reset with exec := some e } } }

/-- A program whose NETWORK list on core 0 is a barrier. -/
def barred : ProgImage := { tasks with lists := [.barrier 0] }

theorem test_witness_DeadlineStopAndBarrier :
    (let s := withExec tasks (execOf 0)
     (taskRun s (taskNo .network)).exec = some (execOf 0) ∧ (execOf 0).missed = false ∧ cycling s = true) ∧
    (let e := { execOf 0 with skipped := 8 }
     (taskRun (withExec tasks e) (taskNo .network)).exec = some e ∧ 8 ≤ e.skipped ∧ cycling (withExec tasks e) = true) ∧
    (let s := withExec barred (execOf 0)
     activeProg s = some barred ∧ (taskRun s (taskNo .network)).exec = some (execOf 0) ∧ cycling s = true ∧ barred.cores 1 ≠ [] ∧
     (∀ c ∈ barred.cores 1, (barred.coreList 1 c)[nth 0 (execOf 0).pos c]? = some (.barrier 0))) := by decide +kernel

/-- The module with a standby program and a swap pending from cycle `first` on, every FAST release made. -/
def swapping (first : Nat) : State :=
  { cyc netNone tasks with ce := { (cyc netNone tasks).ce with
      slotB := { ProgSlot.empty with img := some barred }, fast := { TaskRun.reset with nextRel := 10 }
      swap := some { mb := 1, deferrals := 0, firstCycle := first, started := false } } }

theorem test_witness_SwapChangesTheActiveProgram :
    (∀ first < 2, let s := swapping first
      let x : Swap := { mb := 1, deferrals := 0, firstCycle := first, started := false }
      s.ce.swap = some x ∧ s.net.image = some netNone ∧ activeProg s = some tasks ∧ (progSlot s (1 - s.ce.active)).img = some barred ∧
      swapReady s tasks x = (first == 0) ∧ s.ce.active ≤ 1) ∧
    (let s := swapping 0
     s.clk.k = 0 ∧ releases s = true ∧ s.ce.pubNt = some (cycleStart s + 250) ∧ s.ce.network.exec = none ∧ s.ce.fast.exec = none ∧
     s.ce.slow.exec = none ∧ fastReleases s tasks ≤ s.ce.fast.nextRel ∧ s.clk.nt + 200 ≤ boundaryNt s (s.clk.k + 1)) := by decide +kernel

/-- A solve program of one task over two bulk blocks. -/
def solveProg : SolveImage :=
  { readSolve netNone [] with
    cls := 1, sections := [{ role := 1, first := 0, count := 1 }], stageAhead := 1
    blocks := [{ scale := 0, shape := 1, bulk := true, rows := 1, cols := 1, addr := 0 }, { scale := 0, shape := 1, bulk := true, rows := 1, cols := 1, addr := 4 }]
    tasks := [{ kind := 0, dir := false, fuse := false, nrhs := 1, vop := 0, target := 1, srcA := 0, srcB := 0xFFFFF, accPrev := none, deps := []
                cycFx := 1000, cycFp := 1000, footprint := 0 }] }

/-- A solve of it, before its first task, or with that task retired. -/
def solveOf (retired : List Nat) (status : Option Nat) : Solve :=
  { cycle := 0, scope := 0, role := 1, iters := 0, fp := false, stay := false, guard := false, numeric := false, poison := false, low := none, admitted := 1
    retired := retired, refine := [], xs := [], bs := [], conv := [], iterMem := [], iterFmt := [], notConv := false, verdict := none, status := status
    budget := 1000, backstop := 5000, pubCycle := 1, notGood := 0
    report := { fxPasses := 0, fpPasses := 0, guardPasses := 0, lowest := none, sats := 0, pivots := 0, refSteps := 0, notConv := 0, flags := 0 } }

/-- The module with that solve bound in slot 0, some blocks staged, and a context of tile 0. -/
def solving (x : Solve) (staged : List StageSlot) (c : Option TileCtx) : State :=
  { live with sv := { live.sv with
      slots := setNth live.sv.slots 0 { SolveSlot.empty with img := some solveProg, solve := some x }, order := [0], staged := staged
      tiles := setNth live.sv.tiles 0 (setNth (nth [] live.sv.tiles 0) 0 c) } }

/-- Block `b` of slot 0 in a staging slot. -/
def stage0 (b : Nat) (dirty : Bool) : StageSlot := { slot := 0, block := b, dirty := dirty }

/-- The task in its context. -/
def ctxOne (isDone : Bool) : TileCtx := { slot := 0, task := 0, fp := false, srcA := [], srcB := [], fmtA := false, fmtB := false, since := 100, done := isDone }

theorem test_witness_TheSolverEngineWorksOnItsTasks :
    (let s := solving (solveOf [] none) [stage0 0 false] none
     solverRuns s = true ∧ ((indexed (nth [] (admitTasks s).sv.tiles 0)).find? (fun q => q.2.isNone)) = some (0, none) ∧
     ((servedOrder (admitTasks s)).find? (fun n => (readyTask (admitTasks s) n).isSome)) = some 0 ∧
     readyTask (admitTasks s) 0 = some (solveProg, solveOf [] none, 0)) ∧
    (let s := solving (solveOf [] none) [stage0 0 false, stage0 1 false] (some (ctxOne false))
     ctxAt s 0 0 = some (ctxOne false) ∧ (ctxOne false).done = false ∧ solverRuns s = true ∧
     runningSolve s 0 = some (solveProg, solveOf [] none) ∧ inStage s 0 solveProg (solveProg.taskAt 0).target = true) ∧
    (let s := solving (solveOf [] none) [stage0 0 false, stage0 1 false] (some (ctxOne true))
     ctxAt s 0 0 = some (ctxOne true) ∧ (ctxOne true).done = true ∧ solverRuns s = true ∧ runningSolve s 0 = some (solveProg, solveOf [] none) ∧
     (solveProg.taskAt 0).accPrev = none) ∧
    (let s := solving (solveOf [] none) (List.replicate 255 (stage0 9 false)) none
     runningSolve s 0 = some (solveProg, solveOf [] none) ∧ solverRuns s = true ∧ (solveProg.blockAt 0).bulk = true ∧ s.sv.staged.length < 256 ∧
     stageNext s 0 solveProg (solveOf [] none) 0 = true ∧ 4 * (solveProg.blockAt 0).elements ≤ 245760) ∧
    (let s := solving (solveOf [0] none) [stage0 0 false, stage0 1 true] none
     runningSolve s 0 = some (solveProg, solveOf [0] none) ∧ solverRuns s = true ∧ (solveProg.blockAt 1).bulk = true ∧
     stageOf s 0 1 = some (stage0 1 true) ∧ chainRetired solveProg (solveOf [0] none) 1 = true ∧ stage0 0 false ∈ s.sv.staged ∧
     stageDone solveProg (solveOf [0] none) 0 = true ∧ (solveOf [0] none).role ≠ 8) := by decide +kernel

/-! Witnesses: the lines. -/

/-- A window entry of line 0. -/
def windowOf_ (kind address start length : Nat) (mac : Bool) : Window :=
  { kind := kind, e2e := false, mac := mac, bc := 0, address := address, start := start, length := length, buf := 3, dlc := 8
    ident := 0x100 + kind, ide := false, fdf := true, brs := false }

/-- A network of one line with a TX_EXCL, an RX_EXCL, a FREE window, a short FREE one, an RX_EXCL of an address without a station and a TX_EXCL one with MAC; station 5 is unit 1; a point of each direction. -/
def rigNet : NetImage := { netNone with
  linesUsed := 1, len := 10000, basics := 2
  units := [{ typ := 0, portCount := 0, depth := 0, parent := 0, subtreeEnd := 3, firstPoint := 0, pointCount := 0, scopeMask := 0, tspec := 0, key := 0 },
            { typ := 1, portCount := 0, depth := 1, parent := 0, subtreeEnd := 2, firstPoint := 0, pointCount := 2, scopeMask := 0, tspec := 0x500, key := 0 },
            { typ := 1, portCount := 0, depth := 1, parent := 0, subtreeEnd := 3, firstPoint := 2, pointCount := 0, scopeMask := 0, tspec := 0x700, key := 0 }]
  lines := [{ abt := 0x00020506, dbt := 0, ssp := 0, fmt := 0x0401, guard := 10, firstWindow := 0, windowCount := 6, firstAcc := 0, accCount := 1, refId := 1
              absentN := 3, maxDelta := 3, boffLimit := 3, lineKey := 17, recovery := 100, fenceHold := 10, safeInj := 0xFF }]
  windows := [windowOf_ 1 5 1000 500 false, windowOf_ 2 5 1500 500 false, windowOf_ 0 0 2000 1000 false, windowOf_ 0 0 3000 20 false,
              windowOf_ 2 9 3100 500 false, windowOf_ 1 7 3600 500 true]
  accs := [{ ident := 0x300, ide := false, fdf := true, buf := 2, dlc := 8 }]
  points := [{ typ := 0, kind := 1, policy := 0, scale := 0, rangeMode := 0, param := 0, unit := 1, ageLimit := 0, source := 0x100, key := 0 },
             { typ := 0, kind := 2, policy := 0, scale := 0, rangeMode := 0, param := 0, unit := 1, ageLimit := 0, source := 0, key := 0 }]
  params := [{ min := 0, max := 0, subst := 0, failsafe := 0 }]
  rules := [{ src := 1, latch := true, reqE2e := false, allLines := false, line := 0, di := 0, raw := false, edge := 1, op := 0, signed := false
              offset := 0, width := 0, ident := 0, ide := false, fdf := false, k := 0, actDo := false, doLevel := false, doNo := 0, actInj := false, inj := 0
              actFs := false, fs := 0, actFlt := false, fltClass := 0, bitNo := 0 }]
  injs := [{ line := 0, ide := false, fdf := true, brs := false, dlc := 8, ident := 0x80, payload := [] }] }

/-- The module in RUN in matrix cycle 1, line 0 ERROR_ACTIVE and joined, stations served. -/
def rig : State :=
  let s := { cyc rigNet tasks with clk := { live.clk with nt := 10100, k := 1 } }
  onLine { s with un := { s.un with run := [(1, { UnitRun.reset with station := 0 }), (2, { UnitRun.reset with station := 1 })] } } 0 (fun l => { l with state := 1, joined := true })

/-- The same with line 0 changed. -/
def rigLine (f : Line → Line) : State := onLine rig 0 f

/-- The frame of window 0 on the bus. -/
def busFrame : OnBus :=
  { role := .window 0, data := [], start := 11010, ident := 0x101, ide := false, fdf := true, brs := false, dlc := 8, esi := false, safe := false }

/-- Window `w` of the rig. -/
def rigWindow (w : Nat) : Window := nth (windowOf_ 0 0 0 0 false) rigNet.windows w

theorem test_witness_TheScheduleSendsItsFrames :
    (cycling rig = true ∧ rig.ft.hwsafe = false ∧ rig.clk.bc + 1 < basics rig) ∧
    (let s := rigLine (fun l => { l with refDue := some 15000 })
     (lineOf s 0).refDue = some 15000 ∧ lineRec s 0 = some (rigNet.lineAt 0) ∧ cycling s = true ∧ mayStart s (lineOf s 0) = true ∧ s.ft.hwsafe = false ∧
     (rigNet.lineAt 0).guard = 10) ∧
    (∀ w ∈ [0, 5], windowAt rig 0 w = some (rigWindow w) ∧ (rigWindow w).kind = 1 ∧ (rigWindow w).bc = rig.clk.bc ∧
      let u := advanceTo rig (basicStart rig + (rigWindow w).start)
      rig.net.image = some rigNet ∧ outstop u = false ∧ (lineOf u 0).on = true ∧ (lineOf u 0).joined = true ∧
      stationServed u rigNet 0 (rigWindow w).address = true) ∧
    (keyUnusable rig (rigNet.lineAt 0) (rigWindow 0) = false) ∧
    (keyUnusable { rig with ks := { rig.ks with lineBad := [17] } } (rigNet.lineAt 0) (rigWindow 5) = true) := by decide +kernel

/-- A built frame of window 0 that waits. -/
def waiting (f : Line → Line) : State := rigLine (fun l => f { l with txWait := some { window := 0, data := [] } })

theorem test_witness_TheScheduleSendsItsFrames_waiting :
    ∀ idle ∈ [11000, 11010, 12000], ∀ bus ∈ [none, some busFrame], ∀ inj ∈ [[], [{ entry := 0, tries := 0 }]],
      let s := waiting (fun l => { l with onBus := bus, inj := inj })
      lineRec s 0 = some (rigNet.lineAt 0) ∧ (lineOf s 0).txWait = some { window := 0, data := [] } ∧ windowAt s 0 0 = some (rigWindow 0) ∧
      (lineOf s 0).onBus = bus ∧ (lineOf s 0).inj = inj ∧ inRun s = true ∧ s.ft.hwsafe = false ∧
      fits (rigNet.lineAt 0) (rigWindow 0) (basicStart s + (rigWindow 0).start) (Nat.max idle (basicStart s + (rigWindow 0).start + (rigNet.lineAt 0).guard))
        ((rigNet.lineAt 0).windowDur (rigWindow 0)) = (idle != 12000) := by decide +kernel

theorem test_witness_ASentFrameIsJudged :
    let s := rigLine (fun l => { l with onBus := some busFrame })
    (lineOf s 0).onBus = some busFrame ∧ lineRec s 0 = some (rigNet.lineAt 0) ∧ s.clk.running = true := by decide +kernel

/-- Line 0 with the frame of window 0 to be sent again. -/
def rigRetry : State := rigLine (fun l => { l with retries := [{ window := 0, data := [] }] })

/-- The window that a retry of window 0 takes at an instant. -/
def retryOf (at_ : Nat) : Option (Nat × Window) :=
  retryWindow rigRetry 0 (rigNet.lineAt 0) 0 at_ ((rigNet.lineAt 0).windowDur (rigWindow 0))

/-- An injection queued on line 0. -/
def rigInj (f : Line → Line) : State := rigLine (fun l => f { l with inj := [{ entry := 0, tries := 0 }] })

theorem test_witness_RetriesAndInjectionsAreSent :
    (let s := rigRetry
     s.net.image = some rigNet ∧ lineRec s 0 = some (rigNet.lineAt 0) ∧ cycling s = true ∧ s.ft.hwsafe = false ∧ s.clk.nt ≤ 12010 ∧
     lapseWaiting s 0 (rigNet.lineAt 0) 12010 (lineOf s 0) = lineOf s 0 ∧ lapseWaiting s 0 (rigNet.lineAt 0) 13010 (lineOf s 0) = lineOf s 0 ∧
     (lineOf s 0).txWait = none ∧ (lineOf s 0).retries = [{ window := 0, data := [] }] ∧ windowAt s 0 0 = some (rigWindow 0) ∧
     stationServed s rigNet 0 (rigWindow 0).address = true ∧ retryOf 12010 = some (2, rigWindow 2) ∧ retryOf 13010 = none ∧
     basicStart s + (rigWindow 2).start + (rigNet.lineAt 0).guard = 12010 ∧ mayStart s (lineOf s 0) = true) ∧
    (stationServed { rigRetry with un := { rigRetry.un with run := [(1, { UnitRun.reset with station := 2 })] } } rigNet 0 5 = false) ∧
    (let s := rigInj id
     s.net.image = some rigNet ∧ (lineOf s 0).inj = [{ entry := 0, tries := 0 }] ∧ rigNet.injs[0]?.isSome = true ∧
     s.clk.running = true ∧ s.pwr.pstate ≠ 6 ∧ (lineOf s 0).on = true ∧ (lineOf s 0).onBus = none ∧ (lineOf s 0).joined = true ∧ s.ft.hwsafe = false) ∧
    (let s := { rigInj id with ft := { rig.ft with hwsafe := true } }
     s.ft.hwsafe = true ∧ (lineOf s 0).safeSent = false ∧ (lineOf s 0).thermNow = false ∧ (lineOf s 0).gsupNow = false ∧ (lineOf s 0).domNow = false) ∧
    (let s := rigInj (fun l => { l with onBus := some busFrame })
     (lineOf s 0).onBus = some busFrame ∧ busFrame.role = .window 0 ∧ s.clk.nt < busFrame.start) := by decide +kernel

/-- A classic or FD frame with an identifier. -/
def frameOf (ident : Nat) : Frame := { ident := ident, ide := false, fdf := true, brs := false, esi := false, remote := false, dlc := 8, data := List.replicate 8 0 }

theorem test_witness_ReceivedFramesAreDeliveredAndJudged :
    (rig.net.image = some rigNet ∧ lineRec rig 0 = some (rigNet.lineAt 0) ∧ rig.clk.running = true ∧ (lineOf rig 0).state = 1 ∧ (lineOf rig 0).gsupNow = false) ∧
    (delivery (advanceTo rig 11600) rigNet 0 (frameOf 0x7FF) (windowOver (advanceTo rig 11600) 0 11600) = none) ∧
    (delivery (advanceTo rig 11500) rigNet 0 (frameOf 0x102) (windowOver (advanceTo rig 11500) 0 11500) = some (3, some (1, windowOf_ 2 5 1500 500 false))) ∧
    (delivery (advanceTo rig 12999) rigNet 0 (frameOf 0x300) (windowOver (advanceTo rig 12999) 0 12999) = some (2, none)) ∧
    (∀ w ∈ [1, 4], (windowAt rig 0 w).isSome = true ∧ (nth (windowOf_ 0 0 0 0 false) rigNet.windows w).kind = 2 ∧
      (nth (windowOf_ 0 0 0 0 false) rigNet.windows w).bc = rig.clk.bc) ∧
    (cycling rig = true ∧ rig.ft.hwsafe = false ∧ rigNet.stationAt 0 5 = some 1 ∧ rigNet.stationAt 0 9 = none) ∧
    (windowOver rig 0 11500 = some (1, rigWindow 1) ∧ (rigWindow 1).kind = 2 ∧ (rigWindow 1).ident = (frameOf 0x102).ident ∧
     (rigWindow 1).ide = (frameOf 0x102).ide ∧ (rigWindow 1).fdf = (frameOf 0x102).fdf ∧ (frameOf 0x102).remote = false) ∧
    (windowOver rig 0 14990 = none ∧ { frameOf 0x102 with remote := true }.remote = true) ∧
    (∀ st ∈ [2, 4], let s := rigLine (fun l => { l with state := st })
      (lineOf s 0).state = st ∧ lineRec s 0 = some (rigNet.lineAt 0) ∧ (lineOf s 0).gsupNow = false) := by decide +kernel

theorem test_witness_LinesFollowTheirErrorsAndEvents :
    (rig.clk.running = true ∧ (lineOf rig 0).on = true ∧ (lineRec rig 0).isSome = true ∧ rig.ft.hwsafe = false ∧ ErrorStep.silent ≠ .dominantRun) ∧
    (∀ st ∈ [0, 2, 3, 4], let s := rigLine (fun l => { l with state := st })
      (lineOf s 0).state = st ∧ (lineRec s 0).isSome = true ∧ s.clk.running = true ∧ s.ft.hwsafe = false) ∧
    ((lineOf (rigLine (fun l => { l with state := 2 })) 0).on = true) ∧
    (XcvrFault.dominant ≠ .groupSupply ∧ XcvrFault.thermal ≠ .groupSupply ∧ (lineOf rig 0).state ≠ 5 ∧ (lineOf rig 0).gsupNow = false) ∧
    (∀ h < 2, let s := rigLine (fun l => { l with state := 4, fhold := h })
      lineRec s 0 = some (rigNet.lineAt 0) ∧ s.clk.t0 = some 0 ∧ inRun s = true ∧ s.ft.hwsafe = false ∧ (lineOf s 0).state = 4 ∧ (lineOf s 0).fhold ≤ 1 ∧
      (rigNet.lineAt 0).fenceHold ≠ 0 ∧ (lineOf s 0).domNow = false ∧ (lineOf s 0).thermNow = false ∧ (lineOf s 0).gsupNow = false) := by decide +kernel

/-! Witnesses: the vent path, faults, metering. -/

/-- An event of a DI. -/
def diEvent : VentEv := .di 0 0 1 1 100

theorem test_witness_TheVentPathTakesEventsAndReleases :
    (let s := { rig with vn := { rig.vn with queue := [diEvent] } }
     s.vn.queue = [diEvent] ∧ s.net.image = some rigNet) ∧
    (∀ i ∈ [0, 15], live.clk.running = true ∧ live.vn.diRaw.testBit i = !true ∧ diFilter (advanceTo live 100) i = 0) ∧
    (let s := { live with net := { live.net with image := some { netNone with diFilter := List.replicate 16 65535 } } }
     diFilter (advanceTo s 100) 15 ≠ 0) ∧
    (let s := { live with vn := { live.vn with diRaw := 1 } }
     s.clk.running = true ∧ s.vn.diFilt.testBit 0 = !s.vn.diRaw.testBit 0 ∧ s.vn.diFilt.testBit 0 = !true ∧
     { s with vn := { s.vn with diFilt := 1 } }.vn.diFilt.testBit 0 = !false) ∧
    ((0x3FF : Word).getLsbD 31 = false ∧ (0x80000000 : Word).getLsbD 31 = true) ∧
    (rig.net.image = some rigNet ∧ rigNet.rules.length ≤ 1024 ∧ rigNet.rules[0]?.isSome = true) ∧
    ({ live with vn := { live.vn with first := some 1023 } }.vn.first = some 1023 ∧ live.vn.first = none) := by decide +kernel

/-- A fault of a class that is handled. -/
def faultOf (cls : Nat) : FaultItem := { code := 0x0130, cls := cls, words := [], source := 1, nt := 0, mcc := 0, replay := false }

/-- The module with a fault of class 3 in its handling, some queued. -/
def handling (queued : Nat) (latch : Option Nat) : State :=
  { live with ft := { live.ft with stack := [faultOf 3], queue := List.replicate queued (faultOf 1), ovfLatch := latch } }

/-- The module in RUN with a SAFE fault in effect, an exit requested, at a boundary. -/
def exiting (active : Nat) : State :=
  let n := { netNone with rules := [{ src := 1, latch := true, reqE2e := false, allLines := false, line := 0, di := 0, raw := false, edge := 1, op := 0
                                      signed := false, offset := 0, width := 0, ident := 0, ide := false, fdf := false, k := 0, actDo := false
                                      doLevel := false, doNo := 0, actInj := false, inj := 0, actFs := false, fs := 0, actFlt := true, fltClass := 4, bitNo := 0 }] }
  let s := cyc n tasks
  { s with clk := { live.clk with nt := 0 }, vn := { s.vn with active := active }, ft := { s.ft with safe := true, safeExit := true } }

theorem test_witness_FaultsAreTakenByClass :
    (live.clk.running = true ∧ live.ft.hwsafe = false ∧ live.ft.entry = none ∧ directCause 0x0130 = none ∧ live.ft.stack = []) ∧
    ((handling 0 none).ft.stack = [faultOf 3] ∧ (faultOf 3).cls < 5 ∧ (faultOf 3).cls < 4 ∧ 1 ≤ (faultOf 3).cls ∧ 3 ≤ (faultOf 3).cls) ∧
    ((handling 15 none).ft.queue.length < 16 ∧ 16 ≤ (handling 16 none).ft.queue.length ∧ (handling 16 none).ft.ovfLatch = none ∧
     (handling 16 (some 1)).ft.ovfLatch = some 1) ∧
    (∀ c, 1 ≤ c → c ≤ 5 → ∀ s ∈ [live, handling 0 none, handling 15 none, handling 16 none, handling 16 (some 1)],
      faultClass s 0x0130 c = c ∧ s.clk.running = true ∧ s.ft.hwsafe = false ∧ s.ft.entry = none ∧ s.ft.safe = false) ∧
    ({ live with ft := { live.ft with safe := true } }.ft.safe = true) ∧
    ((exiting 0).net.image.isSome = true ∧ ((exiting 0).net.image.bind (fun n => n.rules[0]?)).any (fun r => r.actFlt) = true) := by
  refine ⟨by decide +kernel, by decide +kernel, by decide +kernel, ?_, by decide +kernel, by decide +kernel⟩
  intro c h1 h5
  have : c = 1 ∨ c = 2 ∨ c = 3 ∨ c = 4 ∨ c = 5 := by omega
  rcases this with rfl | rfl | rfl | rfl | rfl <;> decide +kernel

theorem test_witness_TheHardwareSafeStateIsEnteredAndOnlyCounts :
    (let s := { live with ft := { live.ft with entry := some 90 } }
     s.clk.running = true ∧ s.ft.hwsafe = false ∧ s.ft.entry = some 90 ∧ directCause 0x0130 = none ∧ faultClass s 0x0130 1 = 1) ∧
    (live.clk.refOk = true ∧ live.clk.pllOk = true ∧ live.ft.hwsafe = false) ∧
    (live.pwr.pstate ≠ 6 ∧ live.pwr.pstate ≠ 7 ∧ { live with pwr := { live.pwr with pstate := 6 } }.pwr.pstate = 6) ∧
    (let s := { live with ft := { live.ft with hwsafe := true } }
     s.clk.running = true ∧ s.ft.hwsafe = true ∧ faultClass s 0x0130 1 = 1 ∧ faultClass s 0x0107 1 = 5) := by
  decide +kernel

/-- A command in ACCEPTED with a transfer before it, in mailbox 1. -/
def moving (b : Mailbox → Mailbox) : State :=
  onBox { live with pwr := { live.pwr with linkSpi := false }, pcie := { live.pcie with up := true, cfg := live.pcie.cfg } } 1
    (fun x => b { x with cmd := 0x0303, state := .accepted, dmaWait := true })

/-- With a response to transfer. -/
def responding (b : Mailbox) : Mailbox := { b with reply := some { Reply.ok with body := some [] } }

theorem test_witness_HandlingsHeartbeatsAndTheSafeExit :
    ((handling 0 none).ft.stack = [faultOf 3]) ∧
    (∀ step < 3, let s := { live with ft := { live.ft with stack := [faultOf 4], entry := some 90, entryStep := step + 1 } }
      s.ft.stack = [faultOf 4] ∧ (faultOf 4).cls = 4 ∧ s.ft.entry = some 90 ∧ s.ft.entryStep = step + 1) ∧ dspRuns live = true ∧
    (let s := { live with pwr := { live.pwr with pstate := 4 }, ft := { live.ft with beat := some 0 } }
     beats s = true ∧ s.ft.beat = some 0) ∧
    (let s := { live with ft := { live.ft with beat := some 0 } }
     s.ft.beat = some 0 ∧ inRun s = true ∧ s.ft.hwsafe = false ∧ s.clk.running = true ∧ s.part.m40 = true) ∧
    ((solveSlot (solving (solveOf [] none) [] none) 0).solve.isSome = true) ∧
    (transferring (moving responding) 1 = true ∧ (box (moving responding) 1).uploads = false) ∧ (inPages 0x20000 = true ∧ inPages 0x2FFFC = true) ∧
    ((exiting 0).ft.safeExit = true ∧ (exiting 0).ft.entry = none ∧ (exiting 0).ft.hwsafe = false ∧ exitInstant (exiting 0) = true ∧ (exiting 0).ft.safe = true ∧
     (ruleCause (exiting 0) || stoppedCause (exiting 0)) = false ∧ ruleCause (exiting 1) = true) ∧
    (let s := { exiting 0 with ft := { (exiting 0).ft with safe := false } }
     s.ft.safeExit = true ∧ exitInstant s = true ∧ s.ft.safe = false) := by decide +kernel

theorem test_witness_ATickEndAccumulatesAndShows :
    (dspRuns live = true ∧ live.part.m40 = true ∧ live.clk.running = true ∧ { live with mt := { live.mt with tickNt := 0 } }.mt.tickNt < live.clk.nt) ∧
    ({ live with part := { live.part with m40 := false } }.part.m40 = false) := by decide +kernel

theorem test_witness_CyclesAndSecondsFormTheirValues :
    (dspRuns live = true) ∧ (cycleInRange 15384616 = true ∧ cycleInRange 22222222 = true ∧ cycleInRange 15384615 = false ∧ cycleInRange 22222223 = false) ∧
    (let s := { live with clk := { live.clk with nt := 1000000 }, mt := { live.mt with tickNt := 1000000, secNt := 0 }, pa := { live.pa with meter := [(0x0760, 1)] } }
     dspRuns s = true ∧ s.mt.tickNt % 1000000 = 0 ∧ s.mt.tickNt = s.clk.nt ∧ s.mt.secNt ≠ s.mt.tickNt ∧ 0 ∈ metered s) ∧
    (∀ locked ∈ [true, false], ∀ u ∈ [0, 0x4085E00000000000],
      let s := { live with mt := { live.mt with rms := [u], locks := [{ Lock.reset with locked := locked, quiet := some 50 }] } }
      (nth Lock.reset (takeSamples s [] []).mt.locks 0).locked = locked ∧ (lockPhase (takeSamples s [] []) 0 = 3) = (u = 0) ∧ (lockPhase s 0 = 3) = (u = 0) ∧
      (nth Lock.reset s.mt.locks 0).quiet = some 50) := by decide +kernel

/-- The module with NOLOAD 0 at point 0. -/
def noThreshold : State := { live with pa := { live.pa with meter := [(0x076C, 0)] } }

theorem test_witness_CyclesAndSecondsFormTheirValues_noload (power : Nat) : belowNoload noThreshold 0 power = false := by
  have : (meterPar noThreshold 0x076C).toNat = 0 := by decide +kernel
  simp [belowNoload, this]

/-- The module in BACKUP, its watch running with a limit of one hour. -/
def watching : State := { State.reset with
  pwr := { Pwr.reset with pstate := 1, vin := false, watchStart := some 0 }
  rtc := { State.reset.rtc with oscFail := false }
  mt := { State.reset.mt with watchCfg := 0x00010001 } }

theorem test_witness_SavesTheMeteringStopAndTheWatch :
    (let s := { live with mt := { live.mt with saveDue := true } }
     s.part.m40 = true ∧ dspRuns s = true ∧ s.mt.saveDue = true ∧ s.mt.tailing = false) ∧
    (∀ p ∈ [3, 5], let s := { live with part := { live.part with m40 := false }, pwr := { live.pwr with pstate := p } }
     s.part.m40 = false ∧ s.clk.running = true ∧ s.ft.hwsafe = false ∧ 3 ≤ s.pwr.pstate ∧ s.pwr.pstate ≤ 5) ∧
    (let h : Hold := { since := 0, metering := true }
     { live with pwr := { live.pwr with pstate := 6, hold := some h } }.pwr.hold = some h ∧ h.metering = true) ∧
    (watching.pwr.pstate = 1 ∧ watching.pwr.watchStart = some 0 ∧ watching.rtc.oscFail = false ∧ watchLimitTicks watching ≠ 0) := by decide +kernel

/-! Witnesses: mailboxes. -/

theorem test_witness_DoorbellsPostAndAreTaken :
    (live.clk.running = true ∧ (box live 0).inFlight = false ∧ (box live 15).inFlight = false) ∧ ((box (cmd 0x0101 []) 1).inFlight = true) ∧
    (∀ code ∈ [0x0101, 0x7FFF], let s := { cmd code [] with mb := { (cmd code []).mb with bells := [1] } }
      s.mb.bells = [1] ∧ takes s = true ∧ checking s = true ∧ commonChecks s 1 (box s 1) = (if code = 0x0101 then stOk else 0x8002) ∧
      checkServed s 1 (box s 1).code (ruleOf (box s 1).code) = stOk ∧ (ruleOf (box s 1).code).isSome = (code == 0x0101)) ∧
    (∀ code ∈ [0x0101, 0x7FFF], let s := onBox { cmd code [] with mb := { (cmd code []).mb with bells := [1] } } 1 (fun b => { b with state := .posted })
      s.mb.bells = [1] ∧ takes s = true ∧ checking s = false) ∧
    (checkServed { live with pwr := { live.pwr with pstate := 4 } } 1 0x0101 (ruleOf 0x0101) ≠ stOk) ∧
    (let s := posted (cmd 0x0101 []) 2 0x0101 []
     let r := (ruleOf 0x0101).getD { code := 0, mark := .all, states := [], kind := .short, args := 0 }
     checkServed s 1 0x0101 (ruleOf 0x0101) = stOk ∧ ruleOf 0x0101 = some r ∧
     (indexed s.mb.boxes).any (fun p => p.1 != 1 && p.2.inFlight && p.2.tag == (box s 1).tag) = true ∧
     (indexed (cmd 0x0101 []).mb.boxes).any (fun p => p.1 != 1 && p.2.inFlight && p.2.tag == (box s 1).tag) = false ∧
     dmaFieldsOk live r (box (cmd 0x0101 []) 1) = true ∧ r.isLong (box (cmd 0x0101 []) 1) = false) ∧
    (let s := { cmd 0x0112 [] with mb := { (cmd 0x0112 []).mb with boxes := (List.range 16).map (fun i =>
        if i = 1 then box (cmd 0x0112 []) 1 else { Mailbox.reset with cmd := word ((i + 1) * 65536 + 0x0112), state := .accepted }) } }
     let r := (ruleOf 0x0112).getD { code := 0, mark := .all, states := [], kind := .short, args := 0 }
     checkServed s 1 0x0112 (ruleOf 0x0112) = stOk ∧ r.isLong (box s 1) = true ∧ 15 ≤ acceptedCount s ∧ dmaFieldsOk s r (box s 1) = true ∧
     (indexed s.mb.boxes).any (fun p => p.1 != 1 && p.2.inFlight && p.2.tag == (box s 1).tag) = false) ∧
    ({ live with pwr := { live.pwr with pstate := 6 } }.pwr.pstate = 6) ∧
    ({ live with part := { live.part with m40 := false } }.part.m40 = false) := by decide +kernel

theorem test_witness_CompletionsAndLongResponses :
    (15 < live.mb.boxes.length ∧ Memory.wf (box live 15).page = true) ∧
    (let s := dma (cmd 0x0303 [0, 1])
     (box s 1).dmaEn = true ∧ (box s 1).arg3 = 0 ∧ (box (dma (cmd 0x0303 [0, 1, 0, 4096])) 1).arg3 ≠ 0) ∧
    (∀ off ∈ [0, 4096], let b := box (cmd 0x0303 [0, 1, 0, off]) 1
     b.dmaEn = false ∧ b.arg3.toNat % 4096 = 0 ∧ (b.arg3 = 0 ∨ b.arg3.toNat < 4097)) ∧
    ((box (cmd 0x0303 [0, 1, 0, 4095]) 1).arg3.toNat % 4096 ≠ 0 ∧ (box (cmd 0x0303 [0, 1, 0, 4096]) 1).arg3 ≠ 0 ∧
     4096 ≤ (box (cmd 0x0303 [0, 1, 0, 4096]) 1).arg3.toNat) := by decide +kernel

theorem test_witness_UnnamedArgumentsAreRefused :
    (∀ a ∈ [0x80000000, 1], let s := cmd 0x0101 [0, 0, 0, a]
      executes s 1 0x0101 = true ∧ (box s 1).unnamedZero (((ruleOf 0x0101).map (fun r => r.args)).getD 15) = false ∧ s.rtc.change = none ∧ s.mt.reads = []) ∧
    ((0x0101, Instr.sysInfo) ∈ mailboxRows) := ⟨by decide +kernel, List.mem_append_left _ (List.mem_append_left _ List.mem_cons_self)⟩

/-- The link by PCI Express in use. -/
def pcie (s : State) (master : Bool) : State :=
  { s with pwr := { s.pwr with linkSpi := false, vioH := true }
           pcie := { s.pcie with up := true, cfg := insertAt s.pcie.cfg 4 (if master then 6 else 0) } }

theorem test_witness_LongCommandsAndTransfersEnd :
    (let s := onBox live 1 (fun b => { b with cmd := 0x0713, state := .accepted, reply := some Reply.ok })
     (box s 1).state = .accepted ∧ (box s 1).reply = some Reply.ok ∧ (box s 1).dmaWait = false ∧ completes s = true ∧ calPageWaits s = false) ∧
    (∀ m ∈ [true, false], let s := pcie (moving id) m
      transferring s 1 = true ∧ s.pwr.linkSpi = false ∧ s.pcie.d3 = false ∧ busLost s = !m ∧ hostHolds (box s 1) [] [] = true ∧
      (box s 1).readsHost = true ∧ (∀ e ∈ [1, 3], errorMeets s 1 e = true) ∧ (cfgLe s.pcie 0x98 2).testBit 4 = false) ∧
    (errorMeets (pcie (moving responding) true) 1 4 = true ∧ errorMeets (pcie (moving responding) false) 1 5 = true) ∧
    (let b := { box (moving id) 1 with dmaCtl := 0x00010002 }
     b.sg = true ∧ sgOk b (List.replicate 16 0) = false) ∧
    ((4092, 4) ∈ requestsOf 128 [(4092, 8)] ∧ 0 < 128 ∧ 15 < live.mb.boxes.length ∧ (box (moving id) 1).code ≠ 0x0C04) := by decide +kernel

theorem test_witness_PayloadPagesTakeHostWrites :
    (∀ n ∈ [0, 15], n < live.mb.boxes.length ∧ (box live n).inFlight = false) ∧ live.clk.running = true ∧ Memory.wf (box live 0).page = true ∧
    (0xFFC < 0x1000 ∧ 0xFFC % 4 = 0) ∧ (box (cmd 0x0101 []) 1).inFlight = true := by decide +kernel

/-! Witnesses: mailbox commands. -/

/-- In a power state, in mailbox 0. -/
def inState (p code : Nat) (args : List Nat) : State := posted { live with pwr := { live.pwr with pstate := p } } 0 code args

theorem test_witness_SystemCommandsAreCarriedOut :
    (Taken (cmd 0x0101 []) 1 0x0101) ∧
    (∀ t ∈ [2, 6], Taken (inState 3 0x0102 [t]) 0 0x0102 ∧ ((box (inState 3 0x0102 [t]) 0).arg0.toNat < 3 ∨ 5 < (box (inState 3 0x0102 [t]) 0).arg0.toNat)) ∧
    (let s := inState 3 0x0102 [3]
     Taken s 0 0x0102 ∧ transitionOk s 3 = false) ∧
    (∀ t ∈ [4, 5], let s := inState 3 0x0102 [t]
      Taken s 0 0x0102 ∧ transitionOk s t = true ∧ s.ma = [] ∧ inRun s = true ∧ (maStart s 4 0).ma ≠ [] ∧ Taken (maStart s 4 0) 0 0x0102 ∧
      transitionOk (maStart s 4 0) t = true) ∧
    (let s := inState 4 0x0102 [5]
     Taken s 0 0x0102 ∧ transitionOk s 5 = true ∧ s.ma = [] ∧ inRun s = false) ∧
    (let s := posted { cyc netNone tasks with pwr := { live.pwr with pstate := 4, vhold := 33000 }, pa := { live.pa with conf := some { header := [], seq := 1, slot := 0, entries := [] } } } 0 0x0102 [3]
     Taken s 0 0x0102 ∧ transitionOk s 3 = true ∧ s.ma = []) ∧
    (Taken (cmd 0x0103 [0xA5A5]) 1 0x0103 ∧ (box (cmd 0x0103 [0xA5A5]) 1).arg0 = 0xA5A5 ∧ Taken (cmd 0x0103 [0xA5A4]) 1 0x0103 ∧
     (box (cmd 0x0103 [0xA5A4]) 1).arg0 ≠ 0xA5A5) := by decide +kernel

/-- A state with key functions enabled, slots bad or good. -/
def keyed (s : State) (bad : List Nat) : State := { s with ks := { s.ks with keydis := false, bad := bad } }

/-- `n` bytes with values at offsets, each little-endian. -/
def fieldBytes (n : Nat) (l : List (Nat × Nat)) : Bytes := natLe n ((l.map (fun f => f.2 * 256 ^ f.1)).sum)

/-- A state with key functions disabled whose newest configuration has the last sequence number. -/
def lastSeq (s : State) : State :=
  { s with ks := { s.ks with keydis := true }
           im := { s.im with flash := [(16, fieldBytes 64 [(0, 0x43464751), (4, 1), (8, 0x00030002), (0xC, 0xFFFFFFFF), (0x14, 0xFFFFFFFF)])] } }

theorem test_witness_ParametersAreReadWrittenAndCommitted :
    (∀ p ∈ [0x06FF, 0x0701], let s := cmd 0x0110 [p]
      Taken s 1 0x0110 ∧ parDefined (box s 1).arg0.toNat = (p == 0x0701)) ∧
    (∀ p ∈ [0x06FF, 0x0701, 0x0101], Taken (cmd 0x0111 [p, 1]) 1 0x0111 ∧ parDefined p = (p != 0x06FF)) ∧
    (∀ v ∈ [1, 2], let s := cmd 0x0111 [0x0101, v]
      Taken s 1 0x0111 ∧ (box s 1).arg0.toNat = 0x0101 ∧ (box s 1).arg1.toNat = v) ∧
    (Taken (cmd 0x0112 []) 1 0x0112 ∧ collides (cmd 0x0112 []) 4 0 = false ∧ Taken (maStart (cmd 0x0112 []) 4 0) 1 0x0112 ∧
     collides (maStart (cmd 0x0112 []) 4 0) 4 0 = true) ∧
    (let s := keyed (cmd 0x0112 []) [8]
     Taken s 1 0x0112 ∧ collides s 4 0 = false ∧ newestSeq s ≠ 0xFFFFFFFF ∧ keysOn s = true ∧ slotBad s 8 = true) ∧
    (let s := lastSeq (cmd 0x0112 [])
     Taken s 1 0x0112 ∧ collides s 4 0 = false ∧ newestSeq s = 0xFFFFFFFF) ∧
    (Taken (cmd 0x0113 []) 1 0x0113 ∧ runs (cmd 0x0113 []) 4 = false ∧ Taken (maStart (cmd 0x0113 []) 4 0) 1 0x0113 ∧ runs (maStart (cmd 0x0113 []) 4 0) 4 = true) := by
  decide +kernel

/-- With a request payload of `n` bytes. -/
def loaded (s : State) (n : Nat) : State := onBox s 1 (fun b => { b with reqLen := word n })

theorem test_witness_ImagesArePutAndLoaded :
    (∀ k ∈ [0, 6], Taken (cmd 0x0201 [k]) 1 0x0201 ∧ (box (cmd 0x0201 [k]) 1).arg0.toNat = k) ∧
    (∀ a ∈ [(3, 4), (1, 1), (3, 3), (5, 0)], let s := cmd 0x0201 [a.1, 8, 0, a.2]
      Taken s 1 0x0201 ∧ (box s 1).arg0.toNat = a.1 ∧ (box s 1).arg3.toNat = a.2 ∧ (box s 1).dmaEn = false) ∧
    (let s := dma (cmd 0x0201 [1, 8])
     Taken s 1 0x0201 ∧ (box s 1).dmaEn = true ∧ dmaUploadOk (box s 1) = false) ∧
    (∀ n ∈ [67108864, 67108868], let s := onBox (dma (cmd 0x0201 [1, n])) 1 (fun b => { b with dmaLen := word n })
      Taken s 1 0x0201 ∧ (box s 1).dmaEn = true ∧ dmaUploadOk (box s 1) = true ∧ stagingFull s 4 (box s 1).arg1.toNat = (n != 67108864)) ∧
    (let s := loaded (cmd 0x0201 [1, 8]) 3
     Taken s 1 0x0201 ∧ (takePiece s 1 1 0).status ≠ 0) ∧
    (let s := loaded (cmd 0x0201 [1, 67108868]) 4
     Taken s 1 0x0201 ∧ (takePiece s 1 1 0).status = 0 ∧ stagingFull s 4 67108868 = true) ∧
    (let s := loaded (cmd 0x0201 [1, 8]) 4
     Taken s 1 0x0201 ∧ (takePiece s 1 1 0).status = 0 ∧ stagingFull s 4 8 = false ∧ (takePiece s 1 1 0).whole = none) ∧
    (let s := loaded (cmd 0x0201 [1, 8]) 8
     Taken s 1 0x0201 ∧ (takePiece s 1 1 0).status = 0 ∧ (takePiece s 1 1 0).whole = some (List.replicate 8 0)) ∧
    (∀ k ∈ [1, 5], Taken (cmd 0x0202 [k]) 1 0x0202 ∧ loadArgsOk (box (cmd 0x0202 [k]) 1) = (k == 1)) ∧
    (∀ k ∈ [0, 1, 5, 6], Taken (cmd 0x0203 [k]) 1 0x0203 ∧ (box (cmd 0x0203 [k]) 1).arg0.toNat = k) ∧
    (let s := cmd 0x0210 []
     Taken s 1 0x0210 ∧ collides s 7 0 = false ∧ stagedAt s 20 = none ∧ Taken (maStart s 7 0) 1 0x0210 ∧ collides (maStart s 7 0) 7 0 = true ∧
     Taken { s with im := { s.im with staged := [(20, [1])] } } 1 0x0210 ∧ stagedAt { s with im := { s.im with staged := [(20, [1])] } } 20 = some [1]) := by
  decide +kernel

/-- A network of one group unit that solve slot 0 serves, its staging area of a size. -/
def groupNet (staging : Nat) : NetImage := { netNone with
  stagingSize := staging
  units := [{ typ := 8, portCount := 0, depth := 0, parent := 0, subtreeEnd := 0, firstPoint := 0, pointCount := 0, scopeMask := 1, tspec := 0, key := 0 }] }

/-- A cycle program of one NOP in a NETWORK task. -/
def progImage : Bytes := fieldBytes 416 [(0, 0x43504751), (4, 3), (8, 0x00030002), (0x0C, 416), (0x40, 1), (0x50, 256), (0x54, 144), (0x58, 400),
  (0x5C, 4), (0x60, 404), (0x64, 8), (0x68, 412), (0x6C, 4), (256 + 48, 1), (256 + 72, 1), (404, 64)]

/-- A HY solve program of one row and no task. -/
def solveImage : Bytes := fieldBytes 580 [(0, 0x53504751), (4, 2), (6, 1), (8, 0x00030002), (0xC, 580), (0x3C, 1), (0x44, 1), (0x54, 1), (0x58, 1), (0x5A, 1),
  (0x5B, 1), (0x5C, 0xFF), (0x5D, 0xF8), (0x5F, 0xFC), (0x62, 16), (0x6C, 1), (0x70, noBlock), (0x80, 1), (0x84, noBlock), (0x90, 1), (0xA0, 2), (0xB0, 3),
  (0xC0, 4), (0xD0, 7), (0xE0, 8), (0x190, 512), (0x194, 32), (0x1B0, 544), (0x1B4, 4), (0x1B8, 548), (0x1BC, 32), (512, 3 * 256),
  (512 + 16, 3 * 256 + 7 * 65536), (544, 255 * 65536), (548 + 0xC, 1), (548 + 0x14, noBlock)]

/-- A configuration image without entries. -/
def confImage : Bytes := fieldBytes 64 [(0, 0x43464751), (4, 1), (8, 0x00030002), (0x14, 0xFFFFFFFF)]

/-- The module in RUN with a staged image and the command that loads it; key functions disabled. -/
def loading (kind persist staging : Nat) (image : Bytes) : State :=
  let s := cmd 0x0202 [kind, 0, persist]
  { s with net := { image := some (groupNet staging), bytes := [], digest := List.replicate 32 0 }
           ks := { s.ks with keydis := true }, im := { s.im with staged := [(4 * kind, image)] } }

theorem test_witness_ImagesArePutAndLoaded_program :
    let s := loading 2 1 0 progImage
    Taken s 1 0x0202 ∧ loadArgsOk (box s 1) = true ∧ (box s 1).arg0 = 2 ∧ 1 < s.mb.boxes.length ∧ loadStatus s 2 0 = 0 := by decide +kernel

theorem test_witness_ImagesArePutAndLoaded_configuration :
    (∀ persist < 2, let s := loading 4 persist 0 confImage
      Taken s 1 0x0202 ∧ loadArgsOk (box s 1) = true ∧ (box s 1).arg0 = 4 ∧ (box s 1).arg2.toNat.testBit 0 = decide (persist = 1) ∧ inRun s = true ∧
      loadStatus s 4 0 = 0 ∧ newestSeq s = 0) ∧
    (let s := lastSeq (loading 4 1 0 confImage)
     Taken s 1 0x0202 ∧ loadArgsOk (box s 1) = true ∧ loadStatus s 4 0 = 0 ∧ newestSeq s = 0xFFFFFFFF) := by decide +kernel

/-- The checks of a solve program do not read the size of the staging area. -/
theorem solveOk_staging (n : NetImage) (k : Nat) (d : Bytes) (i : Nat) (bs : Bytes) : solveOk { n with stagingSize := k } d i bs = solveOk n d i bs := rfl

/-- Neither does the reading of its tables. -/
theorem readSolve_staging (n : NetImage) (k : Nat) (bs : Bytes) : readSolve { n with stagingSize := k } bs = readSolve n bs := rfl

/-- A network whose staging area is what the program's slots take, whatever that is (Config.stagingBytes has no value here). -/
theorem test_witness_ImagesArePutAndLoaded_solve :
    let s := loading 3 0 (Config.stagingBytes (solveImage.take 512)) solveImage
    Taken s 1 0x0202 ∧ loadArgsOk (box s 1) = true ∧ (box s 1).arg0 = 3 ∧ inRun s = true ∧ loadSlot s (box s 1) = 0 ∧ loadStatus s 3 0 = 0 := by
  refine ⟨by decide +kernel, by decide +kernel, by decide +kernel, by decide +kernel, by decide +kernel, ?_⟩
  generalize hk : Config.stagingBytes (solveImage.take 512) = k
  have hf : solvesFit (groupNet k) [readSolve (groupNet 0) solveImage] = true := by
    have hb : budgetsFit 10000 [readSolve (groupNet 0) solveImage] = true := by decide +kernel
    have hh : (readSolve (groupNet 0) solveImage).header = solveImage.take 512 := by decide +kernel
    simp only [solvesFit, List.map, hh, hk]
    rw [show (groupNet k).len = 10000 from rfl, hb]
    simp [sumOf, groupNet]
  have ho : openPlace (loading 3 0 k solveImage) 12 = .plain solveImage := by
    show openPlace (loading 3 0 0 solveImage) 12 = _
    decide +kernel
  have hl : loadImageOk (loading 3 0 k solveImage) 3 0 = true := by
    show solveOk { groupNet 0 with stagingSize := k } (List.replicate 32 0) 0 (openPlace (loading 3 0 k solveImage) 12).bytes = true
    rw [solveOk_staging, ho]
    decide +kernel
  have hsp : loadSpaceOk (loading 3 0 k solveImage) 3 0 = true := by
    show solvesFit (groupNet k) ((setNth (residentsToCome (loading 3 0 k solveImage) (groupNet k)) 0
      (some (readSolve { groupNet 0 with stagingSize := k } (openPlace (loading 3 0 k solveImage) 12).bytes))).filterMap id) = true
    rw [readSolve_staging, ho]
    exact hf
  have hp : loadPlaces (loading 3 0 k solveImage) 3 0 = [12] := rfl
  have hc : collides (loading 3 0 k solveImage) (loadActivity 3) 0 = false := rfl
  have hs : (stagedAt (loading 3 0 k solveImage) 12).isNone = false := rfl
  have hv : (solveSlot (loading 3 0 k solveImage) 0).solve = none := rfl
  simp [loadStatus, hp, hc, hs, hv, ho, hl, hsp, stOk]

/-- The rig with a command in mailbox 1. -/
def rigCmd (code : Nat) (args : List Nat) : State := posted rig 1 code args

/-- Mailbox 1 of the rig with a command. -/
def rigBox (code : Nat) (args : List Nat) : Mailbox := box (rigCmd code args) 1

/-- The forces of points 0 to `n` − 1. -/
def forced (n : Nat) (s : State) : State := { s with pt := { s.pt with forces := (List.range n).map (fun i => (i + 1, 0)) } }

theorem test_witness_DirectoryCommandsAnswer :
    (∀ a ∈ [(0, 0), (16384, 1), (0, 16384), (16383, 1)], Taken (rigCmd 0x0301 [a.1, a.2]) 1 0x0301 ∧
      (decide (a.2 = 0 ∨ 16384 < a.1 + a.2) = (a.1 == 16384 || a.2 == 0))) ∧
    (∀ a ∈ [(0, 0, 0), (262144, 1, 0), (0, 1, 2), (0, 262144, 0), (262143, 1, 1)], Taken (rigCmd 0x0303 [a.1, a.2.1, a.2.2]) 1 0x0303 ∧
      (decide (a.2.1 = 0 ∨ 262144 < a.1 + a.2.1 ∨ 1 < a.2.2) = (a.2.1 == 0 || a.1 == 262144 || a.2.2 == 2))) ∧
    (∀ a ∈ [(0, 0), (262144, 1), (0, 262144), (262143, 1)], Taken (rigCmd 0x0304 [a.1, a.2]) 1 0x0304) ∧
    (∀ a ∈ [(64, 0, 1), (0, 0, 0), (0, 6, 1), (0, 0, 6), (0, 5, 1)], Taken (rigCmd 0x0402 [a.1, a.2.1, a.2.2]) 1 0x0402) ∧
    (((rigCmd 0x0402 [0]).net.image.map (fun i => i.lineAt 0)).map (fun r => (r.firstWindow, r.windowCount)) = some (0, 6)) ∧
    (∀ l ∈ [63, 64], Taken (rigCmd 0x0403 [l]) 1 0x0403 ∧ Taken (cmd 0x0403 [l]) 1 0x0403 ∧ (cmd 0x0403 [l]).net.image = none) ∧
    (Taken (cmd 0x0310 [1, 0]) 1 0x0310 ∧ (cmd 0x0310 [1, 0]).net.image = none) ∧
    (∀ p ∈ [1, 2], Taken (rigCmd 0x0310 [p, 0]) 1 0x0310 ∧ ((rigNet.pointAt p).kind ≠ 0) = decide (p = 1) ∧ (rigNet.pointAt p).kind ≠ 4 ∧
      (rigNet.pointAt p).rangeMode = 0 ∧ unitOut (rigCmd 0x0310 [p, 0]) (rigNet.pointAt p).unit = false ∧
      lookup (rigCmd 0x0310 [p, 0]).pt.forces p = none) ∧
    (let s := { rigCmd 0x0310 [1, 0] with un := { rig.un with run := [(1, { UnitRun.reset with oosOwn := true })] } }
     Taken s 1 0x0310 ∧ unitOut s 1 = true) ∧
    (Taken (rigCmd 0x0311 [1]) 1 0x0311 ∧ (releasable (rigCmd 0x0311 [1])).contains 1 = false ∧
     Taken (forced 1 (rigCmd 0x0311 [1])) 1 0x0311 ∧ (releasable (forced 1 (rigCmd 0x0311 [1]))).contains 1 = true ∧
     Taken (rigCmd 0x0311 [0xFFFFFFFF]) 1 0x0311 ∧ Taken (rigCmd 0x0312 []) 1 0x0312) ∧
    (∀ a ∈ [(1, 2), (3, 0), (0, 1), (2, 1)], Taken (rigCmd 0x0302 [a.1, a.2]) 1 0x0302 ∧ collides (rigCmd 0x0302 [a.1, a.2]) 9 a.1 = false ∧
      collides (maStart (rigCmd 0x0302 [a.1, a.2]) 3 0) 9 a.1 = true ∧ Taken (maStart (rigCmd 0x0302 [a.1, a.2]) 3 0) 1 0x0302) ∧
    (∀ a ∈ [(0, 2), (64, 0), (1, 1), (0, 1), (63, 0)], Taken (rigCmd 0x0401 [a.1, a.2]) 1 0x0401 ∧ collides (rigCmd 0x0401 [a.1, a.2]) 8 a.1 = false ∧
      collides (maStart (rigCmd 0x0401 [a.1, a.2]) 3 0) 8 a.1 = true ∧ (lineRec rig a.1).isSome = (a.1 == 0)) := by decide +kernel

theorem test_witness_DirectoryCommandsAnswer_forces :
    lookup (forced 1024 (rigCmd 0x0310 [0, 0])).pt.forces 0 = none ∧ 1024 ≤ (forced 1024 (rigCmd 0x0310 [0, 0])).pt.forces.length ∧
    (forced 1023 (rigCmd 0x0310 [0, 0])).pt.forces.length < 1024 ∧ Taken (forced 1023 (rigCmd 0x0310 [0, 0])) 1 0x0310 ∧
    (lookup (forced 1024 (rigCmd 0x0310 [1, 0])).pt.forces 1).isSome = true ∧ Taken (forced 1024 (rigCmd 0x0310 [0, 0])) 1 0x0310 := by decide +kernel

/-- A program with one variable of two elements. -/
def varProg : ProgImage := { tasks with vars := [{ ident := 7, typ := 0, scale := 0, retain := false, owner := 1, exported := false, length := 2, offset := 64 }] }

/-- A swap that waits or has started. -/
def swapOf (started : Bool) : Swap := { mb := 2, deferrals := 0, firstCycle := 0, started := started }

theorem test_witness_CycleEngineCommandsAnswer :
    (Taken (cmd 0x0501 []) 1 0x0501) ∧
    (∀ x ∈ [none, some (swapOf false), some (swapOf true)], let s := { cmd 0x0502 [] with ce := { Ce.reset with swap := x } }
      Taken s 1 0x0502 ∧ s.ce.swap = x ∧ collides s 1 0 = false ∧ collides (maStart s 3 0) 1 0 = true ∧ Taken (maStart s 3 0) 1 0x0502 ∧
      s.net.image = none) ∧
    (let s := posted (swapping 0) 1 0x0502 []
     Taken { s with ce := { s.ce with swap := none } } 1 0x0502 ∧ s.net.image = some netNone ∧ activeProg s = some tasks ∧ collides s 1 0 = false) ∧
    (∀ x ∈ [none, some (swapOf false), some (swapOf true)], let s := { cmd 0x0503 [] with ce := { Ce.reset with swap := x } }
      Taken s 1 0x0503 ∧ s.ce.swap = x) ∧
    (∀ a ∈ [(6, 0, 1), (7, 0, 0), (7, 0, 1025), (7, 2, 1), (7, 0, 2), (7, 1, 1)], let s := posted (cyc netNone varProg) 1 0x0504 [a.1, a.2.1, a.2.2]
      Taken s 1 0x0504 ∧ ((activeProg s).bind (fun p => p.vars.find? (fun v => v.ident == (box s 1).arg0.toNat))).isSome = (a.1 == 7)) := by decide +kernel

/-- A published result. -/
def resultOf : Result :=
  { status := 0, cls := 1, iters := 0, seq := 1, pub := 1, budget := 0, scope := 0, conv := [], notGood := 0, certs := [], certCount := 0, report := [], len := 0
    vector := [], fresh := none }

/-- The solving module with a solver command. -/
def solverCmd (code slot : Nat) (x : Option Solve) : State :=
  let s := solving (solveOf [] none) [] none
  posted { s with sv := { s.sv with slots := setNth s.sv.slots 0 { nth SolveSlot.empty s.sv.slots 0 with solve := x, pub := some resultOf } } } 1 code [slot]

theorem test_witness_SolverCommandsAnswer :
    (Taken (cmd 0x0601 []) 1 0x0601 ∧ Taken (cmd 0x0602 []) 1 0x0602) ∧
    (∀ n ∈ [0, 3, 4], Taken (solverCmd 0x0603 n none) 1 0x0603 ∧ (n < 4 → (solveSlot (solverCmd 0x0603 n none) n).pub.isSome = (n == 0))) ∧
    (∀ n ∈ [0, 3, 4], Taken (solverCmd 0x0604 n none) 1 0x0604 ∧ runningSolve (solverCmd 0x0604 n none) n = none ∧
      Taken (solverCmd 0x0605 n none) 1 0x0605 ∧ (n < 4 → (solveSlot (solverCmd 0x0605 n none) n).img.isSome = (n == 0)) ∧
      Taken (solverCmd 0x0606 n none) 1 0x0606 ∧ (n < 4 → (solveSlot (solverCmd 0x0606 n none) n).solve = none)) ∧
    (∀ role ∈ [1, 8], let x := { solveOf [] none with role := role }
      Taken (solverCmd 0x0604 0 (some x)) 1 0x0604 ∧ runningSolve (solverCmd 0x0604 0 (some x)) 0 = some (solveProg, x)) ∧
    (∀ b ∈ [100, 101], let x := { solveOf [] (some 0x11) with backstop := b }
      let s := solverCmd 0x0604 0 (some x)
      Taken s 1 0x0604 ∧ runningSolve s 0 = none ∧ (solveSlot s 0).solve = some x ∧ (x.backstop = s.clk.nt) = decide (b = 100)) ∧
    (Taken (solverCmd 0x0606 0 (some (solveOf [] none))) 1 0x0606 ∧ (solveSlot (solverCmd 0x0606 0 (some (solveOf [] none))) 0).solve.isSome = true) ∧
    (let s := solverCmd 0x0606 0 none
     collides s 2 0 = false ∧ collides (maStart s 3 0) 2 0 = true ∧ Taken (maStart s 3 0) 1 0x0606) := by decide +kernel

/-- The module with metering point 1 and heat channel 0 in use, in a power state, and a command of mailbox 0. -/
def meter (p code : Nat) (args : List Nat) : State :=
  posted { live with pwr := { live.pwr with pstate := p }
                     pa := { live.pa with meter := [(0x0760, 1)], heat := [(0x0800, 1)] } } 0 code args

/-- The same with a calibration of point 1 begun. -/
def calibrating (code : Nat) (args : List Nat) : State :=
  let s := maStart (meter 4 code args) 10 0
  { s with mt := { s.mt with calMask := 1 } }

theorem test_witness_MeteringCommandsAnswer :
    (let s := { meter 4 0x0701 [1] with part := { live.part with m40 := false } }
     Taken s 0 0x0701 ∧ s.part.m40 = false ∧ s.mt.reads = []) ∧
    (∀ p ∈ [0, 1, 12, 13], let s := meter 4 0x0701 [p]
      Taken s 0 0x0701 ∧ s.part.m40 = true ∧ s.mt.reads.any (fun r => r.1 == 0) = false ∧ pointInUse s p = (p == 0 || p == 1)) ∧
    (∀ p ∈ [0, 1, 12, 13], ∀ bad ∈ [[], [0]], let s := keyed (meter 4 0x0702 [p]) bad
      Taken s 0 0x0702 ∧ keysOn s = true ∧ pointInUse s p = (p == 0 || p == 1) ∧ slotBad s 0 = (bad == [0])) ∧
    (Taken (meter 4 0x0703 []) 0 0x0703 ∧ (meter 4 0x0703 []).mt.newest = none ∧ Taken (meter 4 0x0704 []) 0 0x0704 ∧ Taken (meter 4 0x0705 []) 0 0x0705 ∧
     Taken { meter 4 0x0703 [] with mt := { live.mt with newest := some [] } } 0 0x0703) ∧
    (∀ m ∈ [0, 1, 2, 4096], let s := meter 4 0x0710 [m]
      Taken s 0 0x0710 ∧ collides s 10 0 = false ∧ collides (maStart s 4 0) 10 0 = true ∧
      (List.range 12).any (fun i => m.testBit i && !pointInUse s (i + 1)) = (m == 2)) ∧
    (∀ c ∈ [0, 1, 3, 48], ∀ g ∈ [0x3F800000, 0], let s := calibrating 0x0711 [c, g, 0]
      Taken s 0 0x0711 ∧ runs s 10 = true ∧ channelUnderCal s c = (c == 0 || c == 1) ∧ ({ gain := word g, phase := 0 } : CalEntry).ok = (g != 0)) ∧
    (runs (meter 4 0x0711 [0, 0x3F800000, 0]) 10 = false) ∧
    (∀ a ∈ [(0, 1), (13, 1), (1, 0), (1, 61), (1, 1), (1, 60), (2, 1)], let s := calibrating 0x0712 [a.1, a.2]
      Taken s 0 0x0712 ∧ runs s 10 = true ∧ s.mt.calMask.testBit (a.1 - 1) = (a.1 == 1 || a.1 == 0)) ∧
    (∀ v ∈ [26999, 27000], let s := calibrating 0x0713 []
      Taken { s with pwr := { s.pwr with vhold := v } } 0 0x0713 ∧ runs s 10 = true ∧ ctrRefuses s 0 = false) ∧
    (Taken (calibrating 0x0714 []) 0 0x0714 ∧ Taken (meter 4 0x0714 []) 0 0x0714 ∧ runs (meter 4 0x0714 []) 10 = false ∧ Taken (meter 4 0x0713 []) 0 0x0713 ∧
     runs (meter 4 0x0713 []) 10 = false) ∧
    (Taken (meter 4 0x0720 []) 0 0x0720 ∧ Taken (meter 4 0x0721 []) 0 0x0721) := by decide +kernel

theorem test_witness_HeatCommandsAnswer :
    (∀ n ∈ [0, 31, 32], ∀ p ∈ [3, 4], let s := meter p 0x0741 [n]
      Taken s 0 0x0741 ∧ s.mt.reads.any (fun r => r.1 == 0) = false ∧ heatInUse s n = (n == 0) ∧ inRun s = (p == 3)) ∧
    (∀ n ∈ [0, 31, 32], ∀ bad ∈ [[], [0]], let s := keyed (meter 4 0x0742 [n]) bad
      Taken s 0 0x0742 ∧ keysOn s = true ∧ heatInUse s n = (n == 0) ∧ slotBad s 0 = (bad == [0])) ∧
    (Taken (meter 4 0x0743 []) 0 0x0743 ∧ (meter 4 0x0743 []).mt.newestHeat = none ∧ Taken { meter 4 0x0743 [] with mt := { live.mt with newestHeat := some [] } } 0 0x0743 ∧
     Taken (meter 4 0x0744 []) 0 0x0744) := by decide +kernel

theorem test_witness_TimeCommandsAnswer :
    (Taken (cmd 0x0801 []) 1 0x0801) ∧
    (∀ b ∈ [0x00FFFFFF, 0x01000000, 0x00173B3B], Taken (cmd 0x0802 [0x07D00101, b]) 1 0x0802 ∧ (cmd 0x0802 [0x07D00101, b]).rtc.change = none ∧
      (packedSecond 0x07D00101 (word b)).isSome = (b != 0x00FFFFFF)) ∧
    (∀ hi ∈ [0x00008000, 0x00007FFF, 0xFFFF8000, 0], let s := cmd 0x0803 [0, hi]
      let step := toSigned 64 ((box s 1).arg0.toNat + 2 ^ 32 * (box s 1).arg1.toNat)
      Taken s 1 0x0803 ∧ s.rtc.change = none ∧ decide (-(2 ^ 47 : Int) ≤ step ∧ step ≤ 2 ^ 47) = true ∧
      decide (0 ≤ (s.rtc.tick : Int) + 1 + step) = (hi != 0xFFFF8000)) ∧
    (let s := cmd 0x0803 [1, 0x00008000]
     Taken s 1 0x0803 ∧ ¬(toSigned 64 ((box s 1).arg0.toNat + 2 ^ 32 * (box s 1).arg1.toNat) ≤ 2 ^ 47)) ∧
    (∀ op ∈ [0, 1, 2], Taken (cmd 0x0804 [0x07D00101, 0, op]) 1 0x0804 ∧ (packedSecond 0x07D00101 0).isSome = true ∧
      Taken (cmd 0x0804 [0, 0x00FFFFFF, op]) 1 0x0804 ∧ packedSecond 0 0x00FFFFFF = none) ∧
    (∀ c ∈ [63, 64], Taken (cmd 0x0805 [c]) 1 0x0805) := by decide +kernel

/-- A store of page 12 in progress. -/
def storingPage (s : State) : State :=
  { s with rs := { s.rs with cur := some { page := 12, who := .owner, image := { header := [], data := [] }, since := 100 } } }

/-- With recall in progress. -/
def recalling_ (s : State) : State := { s with pwr := { s.pwr with recalling := true } }

theorem test_witness_StoreAndRecorderCommandsAnswer :
    (∀ m ∈ [0, 0x1000], let s := cmd 0x0901 [m, 0]
      Taken s 1 0x0901 ∧ s.pwr.recalling = false ∧ Taken (recalling_ s) 1 0x0901 ∧ (pagesOf m = []) = decide (m = 0) ∧
      (pagesOf m).any (beingStored s) = false ∧ Taken (storingPage s) 1 0x0901 ∧ (pagesOf m).any (beingStored (storingPage s)) = (m == 0x1000)) ∧
    (Taken (cmd 0x0902 []) 1 0x0902 ∧ Taken (recalling_ (cmd 0x0902 [])) 1 0x0902 ∧ Taken (recalling_ (cmd 0x0903 [])) 1 0x0903) ∧
    (∀ c ∈ [255, 256], Taken (cmd 0x0903 [c]) 1 0x0903) ∧
    (∀ a ∈ [(0, 0), (0, 65537), (0, 1), (5, 65536), (4, 1), (3, 1)], let s := { cmd 0x0B01 [a.1, 0, a.2] with ev := { live.ev with new := 5, firstSeq := 4 } }
      Taken s 1 0x0B01 ∧ s.ev.oldest = 4 ∧ s.ev.new = 5) ∧
    (Taken (cmd 0x0B02 []) 1 0x0B02) ∧
    (∀ c ∈ [0x0101, 0x0800, 0x1000], Taken (cmd 0x0B03 [c]) 1 0x0B03 ∧ codeConfigured (cmd 0x0B03 [c]) c = (c == 0x0101)) := by decide +kernel

/-- Key functions enabled, a staged key of slot 17 perhaps, and a command. -/
def keyCmd (code : Nat) (args : List Nat) (staged : Option StagedKey) (bad : List Nat) : State :=
  let s := keyed (rigCmd code args) bad
  { s with ks := { s.ks with staged := staged } }

/-- A staged key. -/
def stagedKey (slot : Nat) (v : Bool) : StagedKey := { slot := slot, key := List.replicate 32 0, verified := v }

/-- A request of KEY_STAGE for slot 17 with its fields in order. -/
def wrapped (s : State) : State := onBox s 1 (fun b => { b with reqLen := 144, page := writeBytes b.page 0 [1, 0, 17, natLe 1 (slotKind 17) |>.headD 0] })

theorem test_witness_KeyCommandsAnswer :
    (Taken (cmd 0x0A01 []) 1 0x0A01) ∧
    (∀ c ∈ [0x0A02, 0x0A03, 0x0A04, 0x0A05, 0x0A06, 0x0A07], Taken { cmd c [] with ks := { live.ks with keydis := true } } 1 c ∧
      keysOn { cmd c [] with ks := { live.ks with keydis := true } } = false) ∧
    (let s := keyCmd 0x0A02 [17] none []
     Taken s 1 0x0A02 ∧ keysOn s = true ∧ ¬((box s 1).reqLen = 144) ∧ Taken (wrapped s) 1 0x0A02 ∧ (box (wrapped s) 1).reqLen = 144 ∧
     wrappedOk 17 (box (wrapped s) 1).request = true ∧ (wrapped s).ks.staged = none ∧ collides (wrapped s) 6 17 = false ∧ slotBad (wrapped s) 2 = false ∧
     Taken (maStart (wrapped s) 3 0) 1 0x0A02 ∧ collides (maStart (wrapped s) 3 0) 6 17 = true ∧
     Taken (wrapped (keyCmd 0x0A02 [17] none [2])) 1 0x0A02 ∧ slotBad (wrapped (keyCmd 0x0A02 [17] none [2])) 2 = true ∧
     Taken (wrapped (keyCmd 0x0A02 [17] (some (stagedKey 9 false)) [])) 1 0x0A02 ∧ unwrapKey (wrapped s) 17 (box (wrapped s) 1).request = none) := by
  decide +kernel

theorem test_witness_KeyCommandsAnswer_staged :
    (∀ c ∈ [0x0A03, 0x0A04, 0x0A05], Taken (keyCmd c [17] none []) 1 c ∧ keysOn (keyCmd c [17] none []) = true ∧ (keyCmd c [17] none []).ks.staged = none) ∧
    (∀ c ∈ [0x0A03, 0x0A04, 0x0A05], ∀ slot ∈ [17, 18], ∀ v ∈ [true, false], let s := keyCmd c [17] (some (stagedKey slot v)) []
      Taken s 1 c ∧ keysOn s = true ∧ s.ks.staged = some (stagedKey slot v) ∧ ((box s 1).arg0.toNat = (stagedKey slot v).slot) = decide (slot = 17) ∧
      lineNames s slot = (slot == 17)) ∧
    (∀ v ∈ [0, 1], let s := keyCmd 0x0A03 [17, checkValue (stagedKey 17 false).key + v] (some (stagedKey 17 false)) []
      Taken s 1 0x0A03 ∧ (checkValue (stagedKey 17 false).key = (box s 1).arg1.toNat % 2 ^ 24) = decide (v = 0)) ∧
    (let s := keyCmd 0x0A04 [18] (some (stagedKey 18 true)) []
     Taken s 1 0x0A04 ∧ (box s 1).arg0.toNat = 18 ∧ lineNames s 18 = false) ∧
    (∀ bad ∈ [[], [1]], Taken (keyCmd 0x0A06 [1, 2, 3, 4] none bad) 1 0x0A06 ∧ slotBad (keyCmd 0x0A06 [1, 2, 3, 4] none bad) 1 = (bad == [1])) ∧
    (∀ n ∈ [0, 1, 2], ∀ bad ∈ [[], [0, 1]], Taken (keyCmd 0x0A07 [n] none bad) 1 0x0A07 ∧ (n < 2 → slotBad (keyCmd 0x0A07 [n] none bad) n = (bad != []))) := by
  decide +kernel

/-- A snapshot of nothing. -/
def emptySnapshot : Snapshot := { cycle := 0, digest := [], area := [], inst := [], tasks := [], pubs := [], priors := [] }

/-- A record to be replayed. -/
def feedOf : FeedRec := { cycle := 1, start := 0, ticks := 0, dis := [], entries := [], units := [] }

/-- A replay that runs, with some records waiting, and a command. -/
def replaying (code : Nat) (args : List Nat) (feeds : Nat) : State :=
  let s := maStart (cmd code args) 11 0
  { s with rp := { s.rp with feeds := List.replicate feeds feedOf, outputs := [{ cycle := 5, output := [], results := [none] }] } }

theorem test_witness_MaintenanceAndReplayCommandsAnswer :
    (Taken (cmd 0x0C01 []) 1 0x0C01) ∧
    (∀ x ∈ [none, some 1], Taken { cmd 0x0C02 [] with rp := { live.rp with capture := x } } 1 0x0C02) ∧
    (∀ x ∈ [none, some emptySnapshot], Taken { cmd 0x0C03 [] with rp := { live.rp with captured := x } } 1 0x0C03) ∧
    (∀ a ∈ [(2, 0, 0), (0, 1, 0), (0, 0, 1), (0, 0, 0)], ∀ x ∈ [none, some emptySnapshot],
      let s := { cmd 0x0C04 [a.1, a.2.1, a.2.2] with rp := { live.rp with captured := x } }
      Taken s 1 0x0C04 ∧ collides s 11 0 = false ∧ s.rp.captured = x ∧ Taken (maStart s 3 0) 1 0x0C04 ∧ collides (maStart s 3 0) 11 0 = true) ∧
    (∀ d ∈ [[], imageSetDigest (cmd 0x0C04 [])], let s := { cmd 0x0C04 [] with rp := { live.rp with captured := some { emptySnapshot with digest := d } } }
      Taken s 1 0x0C04 ∧ collides s 11 0 = false ∧ decide (d = imageSetDigest s) = (d != [])) ∧
    (∀ n ∈ [8, 0], let s := dma (cmd 0x0C04 [1, n])
      Taken s 1 0x0C04 ∧ (box s 1).dmaEn = true ∧ dmaUploadOk (box s 1) = (n == 0) ∧ collides s 11 0 = false ∧ collides (maStart s 3 0) 11 0 = true) ∧
    (∀ n ∈ [3, 4, 8], let s := loaded (cmd 0x0C04 [1, 8]) n
      Taken s 1 0x0C04 ∧ (box s 1).arg0 = 1 ∧ (box s 1).dmaEn = false ∧ ((takePiece s 1 16 0).status ≠ 0) = decide (n = 3) ∧
      (takePiece s 1 16 0).whole.isSome = (n == 8) ∧ collides (takePiece s 1 16 0).state 11 0 = false ∧
      collides (takePiece (maStart s 3 0) 1 16 0).state 11 0 = true ∧ snapshotFrom ((takePiece s 1 16 0).whole.getD []) = none) := by decide +kernel

theorem test_witness_MaintenanceAndReplayCommandsAnswer_replaying :
    (Taken (cmd 0x0C05 []) 1 0x0C05 ∧ runs (cmd 0x0C05 []) 11 = false) ∧
    (∀ f ∈ [1, 2], ∀ n ∈ [8, 0], let s := dma (replaying 0x0C05 [0, n] f)
      Taken s 1 0x0C05 ∧ runs s 11 = true ∧ s.rp.feeds.length = f ∧ (box s 1).dmaEn = true ∧ dmaUploadOk (box s 1) = (n == 0)) ∧
    (∀ n ∈ [3, 4, 8], let s := loaded (replaying 0x0C05 [0, 8] 1) n
      Taken s 1 0x0C05 ∧ runs s 11 = true ∧ (box s 1).dmaEn = false ∧ ((takePiece s 1 17 0).status ≠ 0) = decide (n = 3) ∧
      (takePiece s 1 17 0).whole.isSome = (n == 8)) ∧
    (∀ w ∈ [1, 5, 6], let s := replaying 0x0C06 [5, w] 0
      Taken s 1 0x0C06 ∧ s.rp.outputs.find? (fun x => x.cycle == 5) = some { cycle := 5, output := [], results := [none] } ∧
      (w < 6 → (outputBytes s { cycle := 5, output := [], results := [none] } w).isSome = (w == 5))) ∧
    (Taken (cmd 0x0C06 [5, 5]) 1 0x0C06 ∧ (cmd 0x0C06 [5, 5]).rp.outputs = []) ∧
    (∀ k ∈ [4, 6], let s := replaying 0x0C06 [k, 5] 0
      Taken s 1 0x0C06 ∧ s.rp.outputs.find? (fun x => x.cycle == k) = none ∧ decide ((5 + 2 ^ 32 - k) % 2 ^ 32 < 2 ^ 31) = (k == 4)) ∧
    (Taken (cmd 0x0C07 []) 1 0x0C07 ∧ runs (cmd 0x0C07 []) 11 = false ∧ Taken (replaying 0x0C07 [] 0) 1 0x0C07 ∧ runs (replaying 0x0C07 [] 0) 11 = true ∧
     (replaying 0x0C07 [] 0).rp.ending = none) := by decide +kernel

/-! Witnesses: the links, the registers, the check-value units. -/

/-- The SPI link answers. -/
def spi : State := { live with pwr := { live.pwr with linkSpi := true, vioH := true }, pcie := { live.pcie with trainFrom := 20000 } }

/-- The PCI Express link is up, memory space served. -/
def express : State := pcie live true

/-- The same with MSI on and vector 0 owed, masked or not. -/
def owing (mask : Nat) : State :=
  { express with link := { express.link with msiDue := 1 }
                 pcie := { express.pcie with cfg := insertAt (insertAt express.pcie.cfg 0x52 1) 0x60 mask } }

theorem test_witness_TheHostLinksWork :
    (spiUp spi = true ∧ 0xFFFFFC % 4 = 0 ∧ 0xFFFFFD % 4 ≠ 0 ∧ 0x03 ≠ 0x02 ∧ 0x03 ≠ 0x0B) ∧
    (pcieUp express = true ∧ barServes express 0x3FFFC 1 32 = true ∧ barServes express 0x20000 32 32 = true ∧ barServes express 0x20000 33 32 = false ∧
     barServes express 0x20000 64 64 = true ∧ barServes express 0x100 2 64 = false) ∧
    ((0xFF : Nat) % 16 = 15 ∧ (7 : Nat) % 16 ≠ 15) ∧
    (let s := { live with pwr := { live.pwr with linkSpi := false }, pcie := { live.pcie with up := false, trainFrom := 20000 } }
     s.clk.running = true ∧ s.clk.refOk = true ∧ s.pwr.linkSpi = false ∧ s.pcie.trainFrom ≠ 0 ∧ s.pcie.up = false) ∧
    (∀ m ∈ [0, 1], (owing m).link.msiDue.testBit 0 = true ∧ pcieUp (owing m) = true ∧ (owing m).pcie.d3 = false ∧ busMaster (owing m) = true ∧
      msiOn (owing m) = true ∧ (msiMask (owing m)).testBit 0 = (m == 1)) ∧
    (live.clk.running = true ∧ { live with pcie := { live.pcie with trainFrom := 0 } }.pcie.trainFrom = 0 ∧ State.reset.clk.running = false ∧
     spi.pcie.trainFrom ≠ 0) := by decide +kernel

theorem test_witness_RegisterAccessesHaveTheirEffects :
    ({ live with glb := { live.glb with cpl := [(15, 65535), (0, 0)] } }.glb.cpl = [(15, 65535), (0, 0)] ∧ live.glb.cpl = []) ∧
    (∀ p ∈ [12, 15], let s := { live with rs := { live.rs with page := p } }
      12 ≤ s.rs.page ∧ s.rs.page ≤ 15 ∧ beingStored s s.rs.page = false ∧ s.pwr.recalling = false) ∧
    (∀ p ∈ [11, 16], let s := { live with rs := { live.rs with page := p } }
      s.rs.page < 12 ∨ 15 < s.rs.page) ∧
    ({ live with rs := { live.rs with cmdBusy := true } }.rs.cmdBusy = true ∧ 3 ≤ (3 : Word).toNat % 16) ∧
    (∀ c ∈ [128, 255], let v : Word := word (2 + 65536 * c)
      live.rs.cmdBusy = false ∧ v.toNat % 16 = 2 ∧ rsCmdReady live = true ∧ 128 ≤ bits v.toNat 16 8 ∧ ctrRefuses live (bits v.toNat 16 8) = false) ∧
    (∀ m ∈ [0, 0x100, 0xF00], ∀ s ∈ [live, storingPage live], let v : Word := word (1 + m)
      let pages := (List.range 4).filterMap (fun i => if v.toNat.testBit (8 + i) then some (12 + i) else none)
      s.rs.cmdBusy = false ∧ v.toNat % 16 = 1 ∧ rsCmdReady s = true ∧ (pages = []) = decide (m = 0) ∧
      (pages.any (beingStored s) = true) = (m ≠ 0 ∧ s ≠ live)) ∧
    (live.clk.running = true ∧ State.reset.clk.running = false ∧ 0x102 % 4 ≠ 0) := by decide +kernel

theorem test_witness_CheckValueUnitsFeedTheirBytes : (∀ u ∈ [0, 7], u < live.cv.length) := by decide

theorem test_witness_ParametersOfAUnitKeepItsRemainder :
    7 < live.cv.length ∧ (∀ w ∈ [0, 33, 1, 32], (word w).toNat % 64 = w) ∧
    (Cv.reset.r < 2 ^ Cv.reset.width ∧ (Cv.reset.write 0x00 32).width = Cv.reset.width) ∧ ((Cv.reset.write 0x00 1).width ≠ Cv.reset.width) := by decide

theorem test_witness_ARestoredUnitIsAsItWas :
    (1 ≤ Cv.reset.width ∧ Cv.reset.width ≤ 32 ∧ Cv.reset.r < 2 ^ Cv.reset.width ∧ Cv.reset.poly < 2 ^ 32 ∧ Cv.reset.init < 2 ^ 32 ∧ Cv.reset.count < 2 ^ 32) ∧
    [0x24, 0x20, 0x08, 0x04].Perm [0x04, 0x08, 0x20, 0x24] := by decide

/-! Witnesses: time, the store, the recorder, power. -/

/-- The RTC running with a change that waits, of a command of mailbox 1 that is still in EXEC or no more. -/
def changing (adjust waits : Bool) : State :=
  let s := if waits then cmd 0x0803 [0, 0] else live
  { s with rtc := { s.rtc with oscFail := false, change := some { adjust := adjust, value := 1, mb := 1 } } }

/-- The RTC with its alarm armed. -/
def armed (late : Bool) : State := { live with rtc := { live.rtc with oscFail := false, armed := true, lateArm := late, alarm := live.rtc.tick + 1 } }

/-- What an edge with a change leaves before its command ends. -/
def changed (s : State) (x : TimeChange) : State :=
  let t := if x.adjust then (((s.rtc.tick + 1 : Nat) : Int) + x.value).toNat % 2 ^ 48 else x.value.toNat
  let r := { s.rtc with tick := t, trim := s.rtc.trimNew.getD s.rtc.trim, trimNew := none, change := none }
  let b := { s with rtc := if x.adjust then { r with beyond := s.rtc.beyond || decide (s.rtc.tick < calendarEnd ∧ calendarEnd ≤ t) }
                           else { r with valid := true, beyond := false } }
  let c := tellRtc b 0x0180 (twoWords s.rtc.tick ++ twoWords t ++ [word (b2n x.adjust)])
  if s.rtc.armed = true ∧ s.rtc.alarm ≤ t then fireAlarm c (decide (s.rtc.alarm < t)) else { c with rtc := { c.rtc with lateArm := false } }

theorem test_witness_TheTimeBaseTakesItsEvents :
    (∀ adjust ∈ [true, false], ∀ waits ∈ [true, false], let s := changing adjust waits
      let x : TimeChange := { adjust := adjust, value := 1, mb := 1 }
      s.rtc.change = some x ∧ s.rtc.oscFail = false ∧ s.clk.running = true ∧ rtcPowered s = true ∧
      decide ((box (changed s x) 1).state = .exec) = waits) ∧
    (∀ a ∈ [1, 2], let s := { armed false with rtc := { (armed false).rtc with tick := 0, alarm := a } }
      s.rtc.change = none ∧ s.rtc.armed = true ∧ decide (s.rtc.alarm ≤ (s.rtc.tick + 1) % 2 ^ 48) = (a == 1)) ∧
    (∀ late ∈ [true, false], (armed late).rtc.armed = true ∧ (armed late).rtc.oscFail = false ∧ rtcPowered (armed late) = true ∧ (armed late).rtc.lateArm = late ∧
      (armed late).rtc.change = none) ∧
    ((armed true).rtc.beyond = false ∧ { live with rtc := { live.rtc with oscFail := true } }.rtc.oscFail = true ∧ live.pwr.pstate = 3 ∧
     rtcPowered live = true ∧ live.rtc.oscFail = false ∧ State.reset.clk.running = false ∧ State.reset.rtc.oscFail = false ∧ rtcPowered State.reset = true) := by
  decide +kernel

/-- The RTC block frozen at an NT. -/
def frozenAt (nt : Nat) : State := { live with clk := { live.clk with nt := 362 }, rtc := { live.rtc with shadow := some { regs := [], nt := nt } } }

theorem test_witness_RtcReadsAreOfOneInstant :
    (live.clk.running = true ∧ frozenShadow live = none ∧ frozenShadow (frozenAt 99) = none) ∧
    (frozenShadow (frozenAt 100) = some { regs := [], nt := 100 } ∧ (frozenAt 100).rtc.shadow = some { regs := [], nt := 100 }) ∧
    (let s := { live with rtc := { live.rtc with alm := true } }
     (4 : Word).getLsbD 2 = true ∧ s.rtc.alm = true ∧ (0x1B : Nat) < 0x1C ∧ (3 : Nat) < 4) := by decide +kernel

/-- A record. -/
def recOf : Rec := { seq := 0, nt := 0, mcc := 0, code := 0x0101, flags := 0, source := 0, body := [] }

/-- The module with a rate limit on code 0x0110 and a number of tokens left in its bucket. -/
def limited (left : Nat) : State :=
  let e : EventEntry := { mode := 1, rint := 1000, depth := 1, span := 0, list := 0, notify := false, excerpt := false }
  { live with net := { live.net with image := some { netNone with events := List.replicate 0x110 { e with mode := 0, rint := 0, depth := 0 } ++ [e] } }
              ev := { live.ev with buckets := [(0x0110, { credit := 0, tokens := left, supp := 0, last := 100 })] } }

theorem test_witness_StoreAndRecorderGoOn :
    (let s := { live with pwr := { live.pwr with recalling := true, pstate := 2 } }
     s.clk.running = true ∧ s.pwr.recalling = true ∧ s.pwr.pstate = 2) ∧
    ((storingPage live).rs.cur = some { page := 12, who := .owner, image := { header := [], data := [] }, since := 100 }) ∧
    (let i : CtrInc := { counter := 255, why := .plain, since := 100 }
     let s := { live with rs := { live.rs with incCur := some i } }
     s.clk.running = true ∧ s.rs.incCur = some i) ∧
    (recorderRuns live = true ∧ 0x07FF < 0x0800 ∧ 0x0FFF < 0x1000) ∧
    (codeConfigured live 0x03FF = false ∧ codeConfigured live 0x0101 = true ∧ (eventOf live 0x0101 5).mode ≠ 2 ∧ (eventOf live 0x0101 5).rint = 0) ∧
    (∀ left < 2, let s := limited left
      codeConfigured s 0x0110 = true ∧ (eventOf s 0x0110 3).mode ≠ 2 ∧ (eventOf s 0x0110 3).rint ≠ 0 ∧ (refilled s 0x0110 (eventOf s 0x0110 3) 100).tokens = left) ∧
    (let s := { live with ev := { live.ev with waiting := [recOf], started := true, new := 65535 } }
     s.ev.waiting = [recOf] ∧ recorderRuns s = true ∧ s.ev.started = true ∧ granted s = true) ∧
    (let s := { live with ev := { live.ev with dirtied := [(63, 100)] }, rs := { live.rs with dirty := 2 ^ 63 } }
     lookup s.ev.dirtied 63 = some 100 ∧ recorderRuns s = true ∧ s.rs.dirty.testBit 63 = true) ∧ (inRun live = true ∧ live.ft.hwsafe = false) := by
  decide +kernel

/-- The module with VIN good or not in a power state. -/
def powered (vin : Bool) (p : Nat) (leaving : Bool) : State :=
  { live with pwr := { live.pwr with vin := vin, pstate := p, leaving := leaving } }

theorem test_witness_SuppliesAndResetsMoveTheModule :
    (∀ p ∈ [0, 1], (powered false p false).pwr.vin = false ∧ (powered false p false).pwr.pstate ≤ 1) ∧
    (∀ p ∈ [2, 7], (powered false p false).pwr.vin = false ∧ 2 ≤ (powered false p false).pwr.pstate) ∧
    (∀ p ∈ [2, 3, 4, 5, 6, 7], (powered true p false).pwr.vin = true ∧ (powered true p false).pwr.pstate = p ∧ (powered true p false).pwr.leaving = false) ∧
    ((powered true 2 true).pwr.leaving = true) ∧
    (holdOver { live with pwr := { live.pwr with pstate := 6, hold := some { since := 0, metering := false } } } = true) ∧
    ((powered false 1 false).pwr.pstate = 1 ∧ rtcPowered live = true ∧ rtcPowered { State.reset with pwr := { Pwr.reset with vin := false, vbat := false } } = false) ∧
    (∀ l ∈ [true, false], (tearPrograms (commitCutOff { powered false 6 l with pwr := { (powered false 6 l).pwr with vhold := 8000 } })).pwr.leaving = l) ∧
    (mayReset (holdReset live .resetN) = true ∧ mayReset (holdReset (powered false 3 false) .testmode) = false) ∧
    (let s := { live with pwr := { live.pwr with sysResetAt := some 10100 } }
     s.pwr.sysResetAt = some 10100 ∧ mayReset s = true ∧ s.ft.hwsafe = false ∧ s.rtc.oscFail = false ∧ rtcPowered s = true) ∧
    (live.pwr.resetN = true ∧ (holdReset live .resetN).pwr.resetN = false) := by decide +kernel

/-- Recall made, READY not yet, or READY made and start-up not yet complete. -/
def startingUp (ready : Bool) : State := { live with pwr := { live.pwr with pstate := 2, ready := ready, startDone := false } }

theorem test_witness_TheModuleStartsUp :
    (∀ v ∈ [true, false], let s := { State.reset with pwr := { State.reset.pwr with vin := true, vioH := v } }
      s.pwr.pstate = 2 ∧ s.pwr.vin = true ∧ s.clk.running = false ∧ s.pwr.vioH = v) ∧
    (∀ r ∈ [true, false], starting (startingUp r) = true ∧ (startingUp r).pwr.ready = r ∧ (startingUp r).pwr.startDone = false) ∧
    (let s := cyc netNone tasks
     let s := { s with pwr := { s.pwr with pstate := 2, condSince := some 50 }, pa := { s.pa with conf := some { header := [], seq := 1, slot := 0, entries := [] } } }
     s.net.image = some netNone ∧ waitsForRun s = true ∧ mayActivate s = true ∧ s.pwr.condSince = some 50 ∧ imagesReady s = true) := by decide +kernel

/-! Results, from the spec's own examples and tables. -/

/-- What command `c` leaves. -/
def after (c : Instr) (s : State) : State := match exec c s with | .next t => t | _ => s

/-- The commands one after the other. -/
def afterAll (cs : List Instr) (s : State) : State := cs.foldl (fun s c => after c s) s

/-- 16 Table 16-4, steps 1, 2, 6 and 7, on unit 2. -/
theorem test_cv_line_crc :
    let s := afterAll [.cvCfgWrite 2 0x10, .registerWrite 0x2084 0x1021, .registerWrite 0x2088 0xFFFF, .cvStart 2, .cvFeed8 2 0x31] live
    let t := afterAll [.cvFeed32 2 0x35343332, .cvFeed32 2 0x39383736] s
    (cvUnit s 2).r = 0xC782 ∧ (cvUnit s 2).count = 1 ∧ (cvUnit t 2).result = 0x29B1 ∧ (cvUnit t 2).count = 9 := by decide +kernel

/-- 16 Table 16-3, CRC-32 as set up at reset, over the nine bytes, two of them fed as a half-word. -/
theorem test_cv_crc32 :
    (cvUnit (afterAll [.cvStart 0, .cvFeed16 0 0x3231, .cvFeed32 0 0x36353433, .cvFeed16 0 0x3837, .cvFeed8 0 0x39] live) 0).result = 0xCBF43926 := by
  decide +kernel

/-- 06 Table 6-10: the releases at 0, 10, 20, 30 and 90 ms of a cyclic TON. -/
theorem test_ton_cyclic :
    let run := fun (t : Timer) (dt : Nat) => (tonStep t true true 25000 dt).1
    let t0 : Timer := { run := false, prev := false, elapsed := 0 }
    let t30 := run (run (run (run t0 0) 10000) 10000) 10000
    t30.elapsed = 5000 ∧ (tonStep (run (run (run t0 0) 10000) 10000) true true 25000 10000).2.1 = true ∧
    (tonStep { t30 with elapsed := 20000 } true true 25000 20000).2.2 = 1 ∧ (run { t30 with elapsed := 20000 } 20000).elapsed = 15000 := by decide +kernel

/-- 14, example of R387: 2031-03-14T06:15:00Z. -/
theorem test_time_packed : packedSecond 0x07EF030E 0x00060F00 = some 984550500 ∧ dateWord 984550500 = 0x07EF030E ∧ timeWord 984550500 = 0x00060F00 := by
  decide +kernel

/-- 14 Table 14-4, first two rows: an adjustment past the alarm fires it late, once. -/
theorem test_time_adjust_alarm :
    let s := onBox { live with rtc := { live.rtc with oscFail := false, tick := 32261750734848, armed := true, alarm := 32261750784000 } } 1
      (fun b => { b with state := .exec, cmd := 0x0803, arg0 := 327680 })
    let t := afterAll [.timeAdjust 1, .timeChangeApply] s
    t.rtc.tick = 32261751062529 ∧ t.rtc.armed = false ∧ t.rtc.alm = true ∧ t.rtc.almLate = true ∧ (box t 1).res0 = 1 := by decide +kernel

/-- 15, example of R404: counter 1 at 1,000,003 in cell 3; the increment programs cell 4. -/
theorem test_counter_increment :
    let s := { live with rs := { live.rs with cells := [(34, { value := 1000002, good := true }), (35, { value := 1000003, good := true }),
                                                        (36, { value := 999972, good := true })] } }
    ctrValue s 1 = 1000003 ∧ ctrCell s 1 = 3 ∧ ctrValue (programCell s 1) 1 = 1000004 ∧ ctrCell (programCell s 1) 1 = 4 := by decide +kernel

/-- 12 R352: an unknown code ends with 0x8002, in the order doorbell, take. -/
theorem test_mailbox_unknown :
    let s := onBox live 1 (fun b => { b with cmd := 0x00057FFF })
    let t := afterAll [.mbDoorbell 1 200, .mailboxTake 201] s
    (box t 1).state = .done ∧ (box t 1).status = 0x8002 ∧ (box t 1).rtag = 0x00057FFF ∧ t.glb.cpl = [(1, 5)] := by decide +kernel

/-- 12 R354: a read of GLB_CPL takes the oldest entry. -/
theorem test_cpl_read :
    let s := after .glbCplRead { live with glb := { live.glb with cpl := [(3, 0x1234), (7, 1)] } }
    s.link.rdata = [0x12340183] ∧ s.glb.cpl = [(7, 1)] := by decide +kernel
end Sys2Proof.Tests
end

section
/-! PROOFS. Register accesses with effects of their own: what an access of the host does while the module runs and while it does not, what a write of RS_CMD and of RS_WDATA can be, and O52 assembled from them. -/
namespace Sys2Proof.Machine

/-! Accesses of the host (12 R331, 19 Table 19-2). -/

/-- An access takes effect while the module runs. -/
theorem whilePowered_of_running {s : State} (h : s.clk.running = true) (t : State) : whilePowered s t = .next (settle t) := by
  simp [whilePowered, h, done]

/-- An access has no effect while the module does not run. -/
theorem whilePowered_of_stopped {s : State} (h : s.clk.running = false) (t : State) : whilePowered s t = .next (settle s) := by
  simp [whilePowered, h, done]

/-- A command that is an access of the host takes its effect while the module runs. -/
theorem does_of_running {c : Instr} {s t : State} (hc : exec c s = whilePowered s t) (h : s.clk.running = true) : Does c s t :=
  hc.trans (whilePowered_of_running h t)

/-- A command that is an access of the host changes nothing while the module does not run. -/
theorem does_of_stopped {c : Instr} {s t : State} (hc : exec c s = whilePowered s t) (h : s.clk.running = false) : Does c s s :=
  hc.trans (whilePowered_of_stopped h t)

/-! GLB_CPL (12 R354). -/

theorem cplWord_of_empty {s : State} (h : s.glb.cpl = []) : cplWord s = 0 := by simp [cplWord, h]

theorem cplWord_of_cons {s : State} {n tag : Nat} {t : List (Nat × Nat)} (h : s.glb.cpl = (n, tag) :: t) :
    cplWord s = n + 128 + 256 * t.length + 65536 * tag := by simp [cplWord, h]

/-! RS_WDATA (15 R407). -/

/-- A host page that is not being stored takes the word, and WORD moves on. -/
theorem writeWindow_of_open {s : State} (v : Word) (hlo : 12 ≤ s.rs.page) (hhi : s.rs.page ≤ 15)
    (hstore : beingStored s s.rs.page = false) (hrec : s.pwr.recalling = false) :
    writeWindow s v = { s with rs := { s.rs with
      work := writeBytes s.rs.work (pageBase s.rs.page + 4 * s.rs.word) (natLe 4 v.toNat)
      dirty := setBit s.rs.dirty s.rs.page true, word := (s.rs.word + 1) % 2048 } } := by
  simp [writeWindow, nextWord, hlo, hhi, hstore, hrec]

/-- Any other write is discarded and counted, and WORD moves on all the same. -/
theorem writeWindow_of_closed {s : State} (v : Word)
    (h : s.rs.page < 12 ∨ 15 < s.rs.page ∨ beingStored s s.rs.page = true ∨ s.pwr.recalling = true) :
    writeWindow s v = { s with rs := { s.rs with errWin := satAdd 16 s.rs.errWin 1, word := (s.rs.word + 1) % 2048 } } := by
  have hclosed : (decide (12 ≤ s.rs.page ∧ s.rs.page ≤ 15) && !beingStored s s.rs.page && !s.pwr.recalling) = false := by
    rcases h with h | h | h | h
    · have : ¬ 12 ≤ s.rs.page := by omega
      simp [this]
    · have : ¬ s.rs.page ≤ 15 := by omega
      simp [this]
    · simp [h]
    · simp [h]
  simp only [writeWindow, hclosed, Bool.false_eq_true, if_false, nextWord]

/-! RS_CMD (15 R408). -/

theorem bits_from_zero (x n : Nat) : bits x 0 n = x % 2 ^ n := by simp [bits]

/-- A page store through RS_CMD, MA05, conflicts with no activity that runs (19 Table 19-9). -/
theorem collides_ma05 (s : State) (object : Nat) : collides s 5 object = false := by
  have hrow : nth [] compatTable (5 - 1) = List.replicate 11 0 := rfl
  have hcell (i : Nat) : nth 0 (nth [] compatTable (5 - 1)) i = 0 := by
    rw [hrow, nth, List.getElem?_replicate]
    split <;> rfl
  simp only [collides, hcell, List.any_eq_false, Bool.false_eq_true, not_false_eq_true, implies_true]

/-- The pages that a value written to RS_CMD names: bits 11:8, one for each of the host pages 12 to 15 (15 Table 15-8). -/
def namedPages (v : Word) : List Nat :=
  (List.range 4).filterMap (fun i => if v.toNat.testBit (8 + i) then some (12 + i) else none)

/-- A write while an operation is in progress, or of a reserved OP, is discarded and counted. -/
theorem writeRsCmd_discarded {s : State} {v : Word} (h : s.rs.cmdBusy = true ∨ 3 ≤ v.toNat % 16) :
    writeRsCmd s v = { s with rs := { s.rs with errCmd := satAdd 16 s.rs.errCmd 1 } } := by
  have hdisc : (s.rs.cmdBusy || decide (3 ≤ bits v.toNat 0 4)) = true := by
    rw [bits_from_zero]
    simpa using h
  simp only [writeRsCmd, hdisc, if_true]

/-- OP 1 is STORE of the pages named. -/
theorem writeRsCmd_of_store {s : State} {v : Word} (hb : s.rs.cmdBusy = false) (hop : v.toNat % 16 = 1) :
    writeRsCmd s v = rsCmdStore s (namedPages v) := by
  have h1 : bits v.toNat 0 4 = 1 := (bits_from_zero _ _).trans hop
  simp only [writeRsCmd, hb, h1]
  rfl

/-- OP 2 is CTR_INC of the counter named. -/
theorem writeRsCmd_of_ctrInc {s : State} {v : Word} (hb : s.rs.cmdBusy = false) (hop : v.toNat % 16 = 2) :
    writeRsCmd s v = rsCmdInc s (bits v.toNat 16 8) := by
  have h2 : bits v.toNat 0 4 = 2 := (bits_from_zero _ _).trans hop
  simp [writeRsCmd, hb, h2]

/-! An operation that has begun changes none of what the checks of R408 look at. -/

@[simp] theorem rsCmdReady_beginRsCmd (s : State) (op : Nat) : rsCmdReady (beginRsCmd s op) = rsCmdReady s := rfl
@[simp] theorem beingStored_beginRsCmd (s : State) (op : Nat) : beingStored (beginRsCmd s op) = beingStored s := rfl
@[simp] theorem ctrRefuses_beginRsCmd (s : State) (op c : Nat) : ctrRefuses (beginRsCmd s op) c = ctrRefuses s c := rfl

/-- STORE of no page ends with BAD_PARAMETER. -/
theorem rsCmdStore_no_page {s : State} (hr : rsCmdReady s = true) : rsCmdStore s [] = endRsCmd (beginRsCmd s 1) stBadParameter := by
  simp [rsCmdStore, hr]

/-- STORE of a page that is being stored ends with BUSY. -/
theorem rsCmdStore_busy {s : State} {pages : List Nat} (hr : rsCmdReady s = true) (hs : pages.any (beingStored s) = true) :
    rsCmdStore s pages = endRsCmd (beginRsCmd s 1) stBusy := by
  have hne : pages ≠ [] := by rintro rfl; simp at hs
  simp only [rsCmdStore, rsCmdReady_beginRsCmd, beingStored_beginRsCmd, collides_ma05, hr, hs, hne, Bool.not_true, Bool.false_eq_true, if_true, if_false]

/-- STORE of pages of which none is being stored begins MA05 and requests their stores. -/
theorem rsCmdStore_taken {s : State} {pages : List Nat} (hr : rsCmdReady s = true) (hne : pages ≠ [])
    (hs : pages.any (beingStored s) = false) :
    rsCmdStore s pages = afterRsCmd (maStart (beginRsCmd s 1) 5 1) (requestStores (maStart (beginRsCmd s 1) 5 1) pages .rsCmd) := by
  simp only [rsCmdStore, rsCmdReady_beginRsCmd, beingStored_beginRsCmd, collides_ma05, hr, hs, hne, Bool.not_true, Bool.false_eq_true, if_false]

/-- CTR_INC of a host counter that takes an increment requests it. -/
theorem rsCmdInc_taken {s : State} {c : Nat} (hr : rsCmdReady s = true) (hc : 128 ≤ c) (hok : ctrRefuses s c = false) :
    rsCmdInc s c = requestInc (beginRsCmd s 2) c .rsCmd := by
  have : ¬ c < 128 := by omega
  simp [rsCmdInc, hr, this, hok]

/-! Any register (00 R12). -/

/-- A write at an address that is no multiple of 4 is not taken. -/
theorem writeReg_of_unaligned {addr : Nat} (h : addr % 4 ≠ 0) (s : State) (v : Word) : writeReg s addr v = s := by
  simp [writeReg, h]

/-- Settles O52: each command is `whilePowered` of its effect, and the effects of RS_CMD and RS_WDATA are those of the lemmas above. -/
theorem registerAccessesHaveTheirEffects : Obligations.RegisterAccessesHaveTheirEffects := by
  unfold Obligations.RegisterAccessesHaveTheirEffects
  refine ⟨fun s h => does_of_running (exec_glbNtLoRead s) h, fun s h => does_of_running (exec_glbCplRead s) h,
    fun s n tag t h => cplWord_of_cons h, fun s h => cplWord_of_empty h, fun s v h => ⟨?irqStat, ?irqEn, ?irqMap⟩,
    fun s h => does_of_running (exec_rsWdataRead s) h, fun s v h hlo hhi hstore hrec => ?wdataTaken, fun s v h hclosed => ?wdataDiscarded,
    fun s v h => ⟨does_of_running (exec_rsCmdStore v s) h, does_of_running (exec_rsCmdCtrInc v s) h⟩,
    fun s v hb hop hr => ⟨fun hp => ?storeNoPage, fun hs => ?storeBusy, fun hne hs => ?storeTaken⟩, fun s v h => writeRsCmd_discarded h,
    fun s v hb hop hr hc hok => ?ctrInc, fun s v h => ⟨?curHi, ?toOldest, ?toNew⟩,
    fun s addr v h => does_of_running (exec_registerWrite addr v s) h, fun s addr v h => does_of_stopped (exec_registerWrite addr v s) h,
    fun s addr v h => writeReg_of_unaligned h s v, fun s v h => ⟨?lbwSel, ?lbwWatch⟩, fun s v h => ?stopped⟩
  case irqStat => exact does_of_running (exec_glbIrqStatWrite v s) h
  case irqEn => exact does_of_running (exec_glbIrqEnWrite v s) h
  case irqMap => exact does_of_running (exec_glbIrqMapWrite v s) h
  case wdataTaken =>
    rw [← writeWindow_of_open v hlo hhi hstore hrec]
    exact does_of_running (exec_rsWdataWrite v s) h
  case wdataDiscarded =>
    rw [← writeWindow_of_closed v hclosed]
    exact does_of_running (exec_rsWdataWrite v s) h
  case storeNoPage =>
    have hp : namedPages v = [] := hp
    rw [writeRsCmd_of_store hb hop, hp, rsCmdStore_no_page hr]
    rfl
  case storeBusy => exact (writeRsCmd_of_store hb hop).trans (rsCmdStore_busy hr hs)
  case storeTaken => exact (writeRsCmd_of_store hb hop).trans (rsCmdStore_taken hr hne hs)
  case ctrInc => exact (writeRsCmd_of_ctrInc hb hop).trans (rsCmdInc_taken hr hc hok)
  case curHi => exact does_of_running (exec_evrCurHiWrite v s) h
  case toOldest => exact does_of_running (exec_evrToOldest s) h
  case toNew => exact does_of_running (exec_evrToNew s) h
  case lbwSel => exact does_of_running (exec_lbwSelWrite v s) h
  case lbwWatch => exact does_of_running (exec_lbwWatchWrite v s) h
  case stopped =>
    simp only [List.forall_mem_cons, List.not_mem_nil, false_imp_iff, implies_true, and_true]
    exact ⟨does_of_stopped (exec_glbNtLoRead s) h, does_of_stopped (exec_glbCplRead s) h, does_of_stopped (exec_glbIrqStatWrite v s) h,
      does_of_stopped (exec_glbIrqEnWrite v s) h, does_of_stopped (exec_glbIrqMapWrite v s) h, does_of_stopped (exec_rsWdataRead s) h,
      does_of_stopped (exec_rsWdataWrite v s) h, does_of_stopped (exec_rsCmdStore v s) h, does_of_stopped (exec_rsCmdCtrInc v s) h,
      does_of_stopped (exec_evrCurHiWrite v s) h, does_of_stopped (exec_evrToOldest s) h, does_of_stopped (exec_evrToNew s) h,
      does_of_stopped (exec_lbwSelWrite v s) h, does_of_stopped (exec_lbwWatchWrite v s) h⟩

end Sys2Proof.Machine
end

section
/-! PROOFS. A step with no command waiting: the idle tick for each case of the clock and the oscillator, and O2 assembled from it. -/
namespace Sys2Proof.Machine

/-! A step on an empty queue (01 R24, 14 R373, R374). -/

theorem step_of_empty {s : State} (h : s.pending = []) : step s = .next (idleTick s) := by simp [step, h]

/-- The RTC domain is supplied from VIN or from VBAT. -/
theorem rtcPowered_iff (s : State) : rtcPowered s = true ↔ s.pwr.vin = true ∨ s.pwr.vbat = true := by simp [rtcPowered]

theorem rtcPowered_eq_false_iff (s : State) : rtcPowered s = false ↔ s.pwr.vin = false ∧ s.pwr.vbat = false := by simp [rtcPowered]

/-- With CLK_T, one cycle of it passes. -/
theorem idleTick_of_clock {s : State} (hrun : s.clk.running = true) (href : s.clk.refOk = true) :
    idleTick s = advanceTo s (s.clk.nt + 1) := by simp [idleTick, hrun, href]

/-- Without CLK_T, time is the RTC oscillator's. -/
theorem idleTick_of_no_clock {s : State} (h : s.clk.running = false ∨ s.clk.refOk = false) :
    idleTick s = if rtcPowered s && !s.rtc.oscFail then { s with rtc := s.rtc.newTrim.count 1 } else s := by
  have hclk : (s.clk.running && s.clk.refOk) = false := Bool.and_eq_false_iff.mpr h
  simp only [idleTick, hclk, Bool.false_eq_true, if_false]

/-- One µs moves NT one up, and what counts time counts it. -/
theorem advanceTo_succ (s : State) : advanceTo s (s.clk.nt + 1) = { s with
    clk := { s.clk with nt := s.clk.nt + 1 }, rtc := rtcAfter s 1
    ce := { s.ce with idle := idleRun s 1 }, sv := { s.sv with busy := busyRun s 1 } } := by
  rw [advanceTo_of_lt (Nat.lt_add_one _), Nat.add_sub_cancel_left]

/-- Settles O2: the empty queue gives the idle tick, and that is the lemma of its clock and its oscillator. -/
theorem stepWithoutACommandIsOneClockCycle : Obligations.StepWithoutACommandIsOneClockCycle := by
  unfold Obligations.StepWithoutACommandIsOneClockCycle
  intro s hempty
  rw [step_of_empty hempty]
  refine ⟨fun hrun href => ?clock, fun hclk => ?oscillator⟩
  case clock => simp only [idleTick_of_clock hrun href, advanceTo_succ, rtcAfter, rtcPowered_iff]
  case oscillator =>
    rw [idleTick_of_no_clock hclk]
    refine ⟨fun hpow hosc => ?edge, fun hvin hvbat => ?unsupplied, fun hosc => ?stopped⟩
    case edge => simp [(rtcPowered_iff s).mpr hpow, hosc]
    case unsupplied => simp [(rtcPowered_eq_false_iff s).mpr ⟨hvin, hvbat⟩]
    case stopped => simp [hosc]

end Sys2Proof.Machine
end

section
/-! PROOFS. The maintenance and replay commands: what the start of a replay does with a snapshot, and each command's answers, from which O50 is assembled. -/
namespace Sys2Proof.Machine

/-! A mailbox command that is taken (12 R351, 13 R362). -/

/-- A command that is the run of a mailbox command does, once taken, what its meaning makes of the mailbox. -/
theorem does_of_taken {c : Instr} {s t : State} {mb code : Nat} {k : Mailbox → State} (h : Taken s mb code)
    (hc : exec c s = runCommand s mb code k) (ht : k (box s mb) = t) : Does c s t := by
  rw [Does, hc, runCommand_taken h, ht]

/-- A command whose meaning is a refusal is refused, once taken. -/
theorem refuses_of_taken {c : Instr} {s : State} {mb code status : Nat} {k : Mailbox → State} (h : Taken s mb code)
    (hc : exec c s = runCommand s mb code k) (ht : k (box s mb) = refuse s mb status) : Refuses c s mb status :=
  does_of_taken h hc ht

/-! A replay on a snapshot (01 R47). -/

theorem startWith_of_digest_eq {s : State} {mb : Nat} {x : Snapshot} (h : x.digest = imageSetDigest s) :
    startWith s mb x = beginReplay (maStart (accept s mb) 11 0) mb x := by simp [startWith, replayStatus, h]

/-- A snapshot of another image set than the one in force is a bad image. -/
theorem startWith_of_digest_ne {s : State} {mb : Nat} {x : Snapshot} (h : x.digest ≠ imageSetDigest s) :
    startWith s mb x = refuse s mb stBadImage := by simp [startWith, replayStatus, h, stBadImage, stOk]

theorem startPieces_of_none {s : State} {mb : Nat} {bs : Bytes} (h : snapshotFrom bs = none) :
    startPieces s mb bs = refuse s mb stBadParameter := by simp [startPieces, h]

theorem startPieces_of_some {s : State} {mb : Nat} {bs : Bytes} {x : Snapshot} (h : snapshotFrom bs = some x) :
    startPieces s mb bs = startWith s mb x := by simp [startPieces, h]

/-! RPL_START, by where its snapshot comes from (13 R366, R367). -/

/-- RPL_START of the captured snapshot, once its operands are in order and nothing collides. -/
theorem does_rplStart_captured {s t : State} {mb : Nat} {x : Snapshot} (h : Taken s mb 0x0C04) (h0 : (box s mb).arg0 = 0)
    (h1 : (box s mb).arg1 = 0) (h2 : (box s mb).arg2 = 0) (hfree : collides s 11 0 = false) (hx : s.rp.captured = some x)
    (ht : startWith s mb x = t) : Does (.rplStart mb) s t :=
  does_of_taken h (exec_rplStart mb s) (by simp [h0, h1, h2, hfree, hx, ht])

/-- RPL_START of a snapshot that comes in pieces, once all of it has come. -/
theorem does_rplStart_whole {s t : State} {mb : Nat} {bs : Bytes} (h : Taken s mb 0x0C04) (h0 : (box s mb).arg0 = 1)
    (hdma : (box s mb).dmaEn = false) (hst : (takePiece s mb 16 0).status = 0) (hw : (takePiece s mb 16 0).whole = some bs)
    (hfree : collides (takePiece s mb 16 0).state 11 0 = false) (ht : startPieces (takePiece s mb 16 0).state mb bs = t) :
    Does (.rplStart mb) s t :=
  does_of_taken h (exec_rplStart mb s) (by simp [h0, hdma, hst, hw, hfree, ht, stOk])

/-- Settles O50: each command is the run of its meaning on a mailbox that is taken, and each clause one branch of that meaning. -/
theorem maintenanceAndReplayCommandsAnswer : Obligations.MaintenanceAndReplayCommandsAnswer := by
  unfold Obligations.MaintenanceAndReplayCommandsAnswer
  refine ⟨fun s mb h => ?status, fun s mb h => ⟨fun hc => ?captureBusy, fun hc => ?capture⟩,
    fun s mb h => ⟨fun hx => ?snapNone, fun x hx => ?snap⟩,
    fun s mb h => ⟨fun h0 => ?startSource, fun h0 h12 => ?startOperands, fun h0 h1 h2 hcol => ?startCollides, fun h0 h1 h2 hfree hx => ?startNone,
      fun y h0 h1 h2 hfree hy => ⟨fun hd => ?startCaptured, fun hd => ?startOtherImages⟩,
      fun h0 hdma hok => ?startDmaFields, fun h0 hdma hok hcol => ?startDmaCollides, fun h0 hdma hok hfree => ?startDma,
      fun h0 hdma hst => ?startPieceRefused, fun h0 hdma hst hw => ?startPiece,
      fun bs h0 hdma hst hw => ⟨fun hcol => ?startWholeCollides, fun hfree hbs => ?startWholeUnread,
        fun y hfree hy => ⟨fun hd => ?startWhole, fun hd => ?startWholeOtherImages⟩⟩⟩,
    fun s mb h => ⟨fun hr => ?feedNone, fun hr hf => ?feedFull, fun hr hf hdma hok => ?feedDmaFields, fun hr hf hdma hok => ?feedDma,
      fun hr hf hdma hst => ?feedPieceRefused, fun hr hf hdma hst hw => ?feedPiece, fun bs hr hf hdma hst hw => ?feedWhole⟩,
    fun s mb h => ⟨fun hw => ?outputOperand, fun x hw hx => ⟨fun hb => ?outputUnpublished, fun bs hb => ?output⟩, fun hw ho => ?outputNone,
      fun x xs hw ho hx => ⟨fun hlt => ?outputOverwritten, fun hle => ?outputNotYet⟩⟩,
    fun s mb h => ⟨fun hno => ?endRefused, fun hr he => ?ended⟩⟩
  case status => exact does_of_taken h (exec_maStatus mb s) rfl
  case captureBusy => exact refuses_of_taken (status := stBusy) h (exec_rplCapture mb s) (by simp [hc])
  case capture => exact does_of_taken h (exec_rplCapture mb s) (by simp [hc])
  case snapNone => exact refuses_of_taken (status := stNotReady) h (exec_rplSnapGet mb s) (by simp [hx])
  case snap => exact does_of_taken h (exec_rplSnapGet mb s) (by simp [hx])
  case startSource => exact refuses_of_taken (status := stBadParameter) h (exec_rplStart mb s) (by simp [h0])
  case startOperands =>
    exact refuses_of_taken (status := stBadParameter) h (exec_rplStart mb s) (by simp only [h0, if_pos h12]; rfl)
  case startCollides => exact refuses_of_taken (status := stConflict) h (exec_rplStart mb s) (by simp [h0, h1, h2, hcol])
  case startNone => exact refuses_of_taken (status := stNotReady) h (exec_rplStart mb s) (by simp [h0, h1, h2, hfree, hx])
  case startCaptured => exact does_rplStart_captured h h0 h1 h2 hfree hy (startWith_of_digest_eq hd)
  case startOtherImages => exact does_rplStart_captured h h0 h1 h2 hfree hy (startWith_of_digest_ne hd)
  case startDmaFields => exact refuses_of_taken (status := stBadParameter) h (exec_rplStart mb s) (by simp [h0, hdma, hok])
  case startDmaCollides => exact refuses_of_taken (status := stConflict) h (exec_rplStart mb s) (by simp [h0, hdma, hok, hcol])
  case startDma => exact does_of_taken h (exec_rplStart mb s) (by simp [h0, hdma, hok, hfree, awaitDma])
  case startPieceRefused => exact does_of_taken h (exec_rplStart mb s) (by simp [h0, hdma, stOk, hst])
  case startPiece => exact does_of_taken h (exec_rplStart mb s) (by simp [h0, hdma, stOk, hst, hw])
  case startWholeCollides =>
    exact does_of_taken (t := refuse (takePiece s mb 16 0).state mb stConflict) h (exec_rplStart mb s) (by simp [h0, hdma, stOk, hst, hw, hcol])
  case startWholeUnread => exact does_rplStart_whole h h0 hdma hst hw hfree (startPieces_of_none hbs)
  case startWhole => exact does_rplStart_whole h h0 hdma hst hw hfree ((startPieces_of_some hy).trans (startWith_of_digest_eq hd))
  case startWholeOtherImages => exact does_rplStart_whole h h0 hdma hst hw hfree ((startPieces_of_some hy).trans (startWith_of_digest_ne hd))
  case feedNone => exact refuses_of_taken (status := stNotPermitted) h (exec_rplFeed mb s) (by simp [hr])
  case feedFull => exact refuses_of_taken (status := stBusy) h (exec_rplFeed mb s) (by simp [hr, hf])
  case feedDmaFields => exact refuses_of_taken (status := stBadParameter) h (exec_rplFeed mb s) (by simp [hr, Nat.not_le.mpr hf, hdma, hok])
  case feedDma => exact does_of_taken h (exec_rplFeed mb s) (by simp [hr, Nat.not_le.mpr hf, hdma, hok, awaitDma])
  case feedPieceRefused => exact does_of_taken h (exec_rplFeed mb s) (by simp [hr, Nat.not_le.mpr hf, hdma, stOk, hst])
  case feedPiece => exact does_of_taken h (exec_rplFeed mb s) (by simp [hr, Nat.not_le.mpr hf, hdma, stOk, hst, hw])
  case feedWhole => exact does_of_taken h (exec_rplFeed mb s) (by simp [hr, Nat.not_le.mpr hf, hdma, stOk, hst, hw])
  case outputOperand => exact refuses_of_taken (status := stBadParameter) h (exec_rplOutput mb s) (by simp [hw])
  case outputUnpublished => exact refuses_of_taken (status := stNotReady) h (exec_rplOutput mb s) (by simp [Nat.not_lt.mpr hw, hx, hb])
  case output => exact does_of_taken h (exec_rplOutput mb s) (by simp [Nat.not_lt.mpr hw, hx, hb])
  case outputNone => exact refuses_of_taken (status := stNotReady) h (exec_rplOutput mb s) (by simp [Nat.not_lt.mpr hw, ho])
  case outputOverwritten =>
    rw [ho] at hx
    exact refuses_of_taken (status := stOverwritten) h (exec_rplOutput mb s) (by simp only [Nat.not_lt.mpr hw, ho, hx, hlt, if_false, if_true])
  case outputNotYet =>
    rw [ho] at hx
    exact refuses_of_taken (status := stNotReady) h (exec_rplOutput mb s) (by simp only [Nat.not_lt.mpr hw, ho, hx, Nat.not_lt.mpr hle, if_false])
  case endRefused =>
    have hcheck : (!runs s 11 || s.rp.ending.isSome) = true := by simpa using hno
    exact refuses_of_taken (status := stNotPermitted) h (exec_rplEnd mb s) (by simp only [hcheck, if_true])
  case ended => exact does_of_taken h (exec_rplEnd mb s) (by simp [hr, he])

end Sys2Proof.Machine
end

section
/-! PROOFS. The unit, point and line commands: which points a force and a release may name, which units and lines a service may name, and each command's answers, from which O42 is assembled. -/
namespace Sys2Proof.Machine

/-! Points that a force and a release may name (02 R69, R70). -/

/-- A point that may be forced to a value: its KIND is neither NONE nor MODULE, and the value lies in its range, where its RANGE_MODE gives it one (02 R70). -/
def Forcible (n : NetImage) (r : PointRec) (v : Word) : Prop :=
  r.kind ≠ 0 ∧ r.kind ≠ 4 ∧ (r.rangeMode ≠ 0 → inRange r.typ (n.paramOf r) v = true)

/-- PT_FORCE refuses exactly the points that may not be forced. -/
theorem not_forcible_iff {n : NetImage} {r : PointRec} {v : Word} :
    ¬ Forcible n r v ↔ r.kind = 0 ∨ r.kind = 4 ∨ (r.rangeMode ≠ 0 ∧ (!inRange r.typ (n.paramOf r) v) = true) := by
  simp only [Forcible, ne_eq, Classical.not_and_iff_not_or_not, Classical.not_imp, Classical.not_not, Bool.not_eq_true, Bool.not_eq_true']

/-- PT_FORCE does not refuse a point that may be forced. -/
theorem Forcible.not_refused {n : NetImage} {r : PointRec} {v : Word} (h : Forcible n r v) :
    ¬ (r.kind = 0 ∨ r.kind = 4 ∨ (r.rangeMode ≠ 0 ∧ (!inRange r.typ (n.paramOf r) v) = true)) := fun hr => not_forcible_iff.mpr hr h

/-- A release of one point finds a force exactly where the point is one of those that can be released. -/
theorem filter_beq_eq_nil_iff_contains (l : List Nat) (p : Nat) : l.filter (fun q => q == p) = [] ↔ l.contains p = false := by
  simp only [List.filter_eq_nil_iff, beq_iff_eq, List.contains_eq_mem, decide_eq_false_iff_not]
  exact ⟨fun h hp => h p hp rfl, fun h q hq hqp => h (hqp ▸ hq)⟩

/-! Units and lines that a service may name (02 R73, 03 Table 3-9). -/

/-- UNIT_SERVICE finds its operands in order where its unit is one of those in the image; unit 0, the root, is refused by a check of its own (02 R75). -/
theorem unitService_operands_ok {u units : Nat} {a : Word} (ha : a.toNat ≤ 1) (hu : u ≠ 0 → u < units) :
    ¬ (1 < a.toNat ∨ (u ≠ 0 ∧ units ≤ u)) := by omega

/-- LN_SERVICE does not refuse a line below 64 that is taken offline, nor one that is taken online and has its record in the image. -/
theorem lineService_operands_ok {s : State} {l : Nat} {a : Word} (ha : a.toNat ≤ 1) (hl : l < 64) (hrec : a = 1 → (lineRec s l).isSome = true) :
    ¬ (1 < a.toNat ∨ 64 ≤ l ∨ (a = 1 ∧ (lineRec s l).isNone = true)) := by
  rintro (hop | hline | ⟨hon, hnone⟩)
  · omega
  · omega
  · exact Option.isSome_iff_ne_none.mp (hrec hon) (Option.isNone_iff_eq_none.mp hnone)

/-- Settles O42: each command is the run of its meaning on a mailbox that is taken, and each clause one branch of that meaning. -/
theorem directoryCommandsAnswer : Obligations.DirectoryCommandsAnswer := by
  unfold Obligations.DirectoryCommandsAnswer
  refine ⟨fun s mb h => ⟨fun hr => ?unitRange, fun h1 h2 => ?unitRead⟩,
    fun s mb h => ⟨fun hr => ?ptRange, fun h1 h2 h3 => ?ptRead⟩,
    fun s mb h => ⟨fun hr => ?dirRange, fun h1 h2 => ?ptDir⟩,
    fun s mb h => ⟨fun hr => ?windowRange, fun h1 h2 h3 h4 => ?mxRead⟩,
    fun s mb h => ⟨fun hl => ?stationLine, fun hl hn => ?stationsNone, fun n hl hn => ?stations⟩,
    fun s mb h => ⟨fun hn => ?forceNone, fun n hn => ⟨fun hf => ?forceRefused, fun hf hu => ?forceOut, fun hf hu hp hlen => ?forceFull,
      fun hf hu hp => ?force⟩⟩,
    fun s mb h => ⟨fun ha hp => ?releaseUnknown, fun ha hp => ?release, fun ha => ?releaseAll⟩,
    fun s mb h => ?forces,
    fun s mb h => ⟨fun hr => ?unitUnknown, fun ha hu => ?unitRoot, fun ha hu hlt hcol => ?unitCollides, fun ha hu hlt hfree => ?unitService⟩,
    fun s mb h => ⟨fun hr => ?lineUnknown, fun ha hl hrec hcol => ?lineCollides, fun ha hl hrec hfree => ?lineService⟩⟩
  case unitRange => exact refuses_of_taken (status := stBadParameter) h (exec_unitRead mb s) (if_pos hr)
  case unitRead => exact does_of_taken h (exec_unitRead mb s) (if_neg (by omega))
  case ptRange => exact refuses_of_taken (status := stBadParameter) h (exec_ptRead mb s) (if_pos hr)
  case ptRead => exact does_of_taken h (exec_ptRead mb s) (if_neg (by omega))
  case dirRange => exact refuses_of_taken (status := stBadParameter) h (exec_ptDir mb s) (if_pos hr)
  case ptDir => exact does_of_taken h (exec_ptDir mb s) (if_neg (by omega))
  case windowRange => exact refuses_of_taken (status := stBadParameter) h (exec_mxRead mb s) (if_pos hr)
  case mxRead => exact does_of_taken h (exec_mxRead mb s) (if_neg (by omega))
  case stationLine => exact refuses_of_taken (status := stBadParameter) h (exec_stnRead mb s) (if_pos hl)
  case stationsNone => exact does_of_taken h (exec_stnRead mb s) (by simp [Nat.not_le.mpr hl, hn])
  case stations => exact does_of_taken h (exec_stnRead mb s) (by simp [Nat.not_le.mpr hl, hn])
  case forceNone => exact refuses_of_taken (status := stBadParameter) h (exec_ptForce mb s) (by simp [hn])
  case forceRefused =>
    exact refuses_of_taken (status := stBadParameter) h (exec_ptForce mb s) (by simp only [hn, if_pos (not_forcible_iff.mp hf)])
  case forceOut =>
    have hno := Forcible.not_refused hf
    exact refuses_of_taken (status := stNotPermitted) h (exec_ptForce mb s) (by simp only [hn, if_neg hno, if_pos hu])
  case forceFull =>
    have hno := Forcible.not_refused hf
    exact refuses_of_taken (status := stNoSpace) h (exec_ptForce mb s) (by simp only [hn, if_neg hno, hu, hp, hlen]; rfl)
  case force =>
    have hno := Forcible.not_refused hf
    have hplace : ¬ ((lookup s.pt.forces (box s mb).arg0.toNat).isNone = true ∧ 1024 ≤ s.pt.forces.length) := by
      rintro ⟨hnone, hlen⟩
      rcases hp with hsome | hlt
      · exact Option.isSome_iff_ne_none.mp hsome (Option.isNone_iff_eq_none.mp hnone)
      · omega
    refine does_of_taken h (exec_ptForce mb s) ?_
    simp only [hn, if_neg hno, hu, Bool.false_eq_true, if_false, if_neg hplace]
    rfl
  case releaseUnknown =>
    have hnil := (filter_beq_eq_nil_iff_contains _ _).mpr hp
    refine refuses_of_taken (status := stBadParameter) h (exec_ptRelease mb s) ?_
    simp only [ha, hnil, ne_eq, not_false_eq_true, and_self, ↓reduceIte]
  case release =>
    have hne : (releasable s).filter (fun p => p == (box s mb).arg0.toNat) ≠ [] := fun hnil =>
      Bool.false_ne_true (((filter_beq_eq_nil_iff_contains _ _).mp hnil).symm.trans hp)
    refine does_of_taken h (exec_ptRelease mb s) ?_
    simp only [ha, hne, and_false, ↓reduceIte]
  case releaseAll =>
    refine does_of_taken h (exec_ptRelease mb s) ?_
    simp only [ha, ne_eq, not_true_eq_false, false_and, ↓reduceIte]
  case forces => exact does_of_taken h (exec_ptForces mb s) rfl
  case unitUnknown => exact refuses_of_taken (status := stBadParameter) h (exec_unitService mb s) (if_pos hr)
  case unitRoot =>
    exact refuses_of_taken (status := stNotPermitted) h (exec_unitService mb s) ((if_neg (unitService_operands_ok ha (absurd hu))).trans (if_pos hu))
  case unitCollides =>
    exact refuses_of_taken (status := stConflict) h (exec_unitService mb s)
      ((if_neg (unitService_operands_ok ha (fun _ => hlt))).trans ((if_neg hu).trans (if_pos hcol)))
  case unitService =>
    exact does_of_taken h (exec_unitService mb s)
      ((if_neg (unitService_operands_ok ha (fun _ => hlt))).trans ((if_neg hu).trans (if_neg (ne_true_of_eq_false hfree))))
  case lineUnknown =>
    exact refuses_of_taken (status := stBadParameter) h (exec_lnService mb s) (if_pos (by simpa only [Option.isNone_iff_eq_none] using hr))
  case lineCollides =>
    exact refuses_of_taken (status := stConflict) h (exec_lnService mb s)
      ((if_neg (lineService_operands_ok ha hl hrec)).trans (if_pos hcol))
  case lineService =>
    exact does_of_taken h (exec_lnService mb s)
      ((if_neg (lineService_operands_ok ha hl hrec)).trans (if_neg (ne_true_of_eq_false hfree)))

end Sys2Proof.Machine
end

section
/-! PROOFS. Errors and events of the lines: what an error adds to the counters, the lines that a transceiver fault affects, and O26 assembled from them. -/
namespace Sys2Proof.Machine

/-! Lines by number, once a command has ended. -/

@[simp] theorem lineOf_settle (s : State) (i : Nat) : lineOf (settle s) i = lineOf s i := by simp only [lineOf, settle_ln]

@[simp] theorem lineOf_advanceTo (s : State) (t i : Nat) : lineOf (advanceTo s t) i = lineOf s i := by simp only [lineOf, advanceTo_ln]

/-! Errors (03 R99, R103; notes/assumptions/32). -/

/-- An error of a transmitter adds nothing to TEC in the two cases that ISO 11898-1 excepts, and 8 otherwise. -/
theorem tecStep_eq (l : Line) (kind : Nat) (how : ErrorStep) :
    l.tecStep kind how = if (how = .silent ∧ kind = 4 ∧ l.state = 2) ∨ (how = .arbStuff ∧ kind = 2) then 0 else 8 := by
  cases how <;> simp [Line.tecStep]

/-- An error of a receiver that is no run of dominant bits adds 9 to REC where the receiver saw it first, 8 in its flag, and 1 otherwise. -/
theorem recStep_eq {how : ErrorStep} (h : how ≠ .dominantRun) :
    recStep how = if how = .primary then 9 else if how = .flagBit then 8 else 1 := by
  cases how with
  | dominantRun => exact absurd rfl h
  | plain | primary | silent | arbStuff | flagBit => rfl

/-- The conditions under which an error of a line is noted (03 R99, R103). -/
structure ErrorNoted (s : State) (line kind : Nat) : Prop where
  running : s.clk.running = true
  kind_pos : 1 ≤ kind
  kind_le : kind ≤ 6
  used : (lineRec s line).isSome = true
  listens : (lineOf s line).on = true ∨ (lineOf s line).state = 4

/-- An error that is noted is not held back by any condition of LINE_ERROR. -/
theorem ErrorNoted.not_ignored {s : State} {line kind : Nat} (h : ErrorNoted s line kind) :
    ¬ ((!s.clk.running || decide (kind < 1) || decide (6 < kind) || !((lineOf s line).on || (lineOf s line).state == 4) ||
      (lineRec s line).isNone) = true) := by
  obtain ⟨hrun, h1, h6, hused, hlistens⟩ := h
  have hrec : lineRec s line ≠ none := Option.isSome_iff_ne_none.mp hused
  have hline : (lineOf s line).on = false → (lineOf s line).state = 4 := fun hoff => hlistens.resolve_left (by simp [hoff])
  simpa [hrun, Nat.not_lt.mpr h1, Nat.not_lt.mpr h6, hrec] using hline

/-- The line once an error is noted and counted; further dominant bits after a flag are no error of their own. -/
def Line.noteError (l : Line) (kind : Nat) (phase transmitting : Bool) (how : ErrorStep) : Line :=
  if how = .dominantRun then l
  else if transmitting then { l with lerr := kind, lphase := phase, txerr := wrap32 (l.txerr + 1) }
  else { l with lerr := kind, lphase := phase, rxerr := wrap32 (l.rxerr + 1) }

/-- The line once the error's increment has been added. -/
def Line.addError (l : Line) (kind : Nat) (transmitting : Bool) (how : ErrorStep) : Line :=
  if transmitting then { l with tec := Nat.min 256 (l.tec + l.tecStep kind how) } else { l with rcv := Nat.min 256 (l.rcv + recStep how) }

@[simp] theorem Line.noteError_on (l : Line) (kind : Nat) (phase transmitting : Bool) (how : ErrorStep) :
    (l.noteError kind phase transmitting how).on = l.on := by
  unfold Line.noteError; split
  · rfl
  · split <;> rfl

/-- On a line that transmits, an error is noted, moves its counter, and the line state follows. -/
theorem lineError_on {s : State} {line kind : Nat} (phase transmitting : Bool) (how : ErrorStep) (h : ErrorNoted s line kind)
    (hon : (lineOf s line).on = true) (hsafe : s.ft.hwsafe = false) :
    Does (.lineError line kind phase transmitting how) s
      (confine (setLine s line (((lineOf s line).noteError kind phase transmitting how).addError kind transmitting how)) line) := by
  have hmoves : ¬ ((s.ft.hwsafe || !((lineOf s line).noteError kind phase transmitting how).on) = true) := by simp [hsafe, hon]
  exact (if_neg h.not_ignored).trans ((if_neg hmoves).trans rfl)

/-- In FENCED an error is noted and moves no counter (03 R103). -/
theorem lineError_fenced {s : State} {line kind : Nat} (phase transmitting : Bool) (how : ErrorStep) (h : ErrorNoted s line kind)
    (hfenced : (lineOf s line).state = 4) :
    Does (.lineError line kind phase transmitting how) s (setLine s line ((lineOf s line).noteError kind phase transmitting how)) := by
  have hstays : (s.ft.hwsafe || !((lineOf s line).noteError kind phase transmitting how).on) = true := by
    rw [Line.noteError_on]; simp [Line.on, hfenced]
  exact (if_neg h.not_ignored).trans (if_pos hstays)

/-! Transceiver faults (03 R105, R107). -/

/-- A fault of one transceiver affects its own line. -/
theorem faultLines_own {line : Nat} {f : XcvrFault} (h : line < 64) (hf : f ≠ .groupSupply) : faultLines line f = [line] := by
  cases f with
  | groupSupply => exact absurd rfl hf
  | dominant | thermal => exact if_neg (Nat.not_le.mpr h)

@[simp] theorem Line.xcvrSet_state (l : Line) (f : XcvrFault) : (l.xcvrSet f).state = l.state := by cases f <;> rfl

/-- A line that a transceiver fault affects: its bits are set, and it is fenced unless it is OFFLINE or the module is in the hardware safe state. -/
def faultLine (f : XcvrFault) (s : State) (i : Nat) : State :=
  if (lineOf s i).state = 5 ∨ s.ft.hwsafe = true then setLine s i ((lineOf s i).xcvrSet f)
  else fence (setLine s i ((lineOf s i).xcvrSet f)) i (causeOf f)

/-- While the module runs, a transceiver fault takes each line that it affects in turn. -/
theorem does_xcvrFault {s : State} (line : Nat) (f : XcvrFault) (h : s.clk.running = true) :
    Does (.xcvrFault line f) s ((faultLines line f).foldl (faultLine f) s) := by
  have hstep : faultLine f = fun s i =>
      if (decide (((lineOf s i).xcvrSet f).state = 5) || (setLine s i ((lineOf s i).xcvrSet f)).ft.hwsafe) = true
      then setLine s i ((lineOf s i).xcvrSet f) else fence (setLine s i ((lineOf s i).xcvrSet f)) i (causeOf f) := by
    funext s i
    simp [faultLine]
  rw [Does, exec_xcvrFault, execXcvrFault, hstep, h]
  rfl

/-- Settles O26: each clause is the meaning of its command with its condition decided. -/
theorem linesFollowTheirErrorsAndEvents : Obligations.LinesFollowTheirErrorsAndEvents := by
  unfold Obligations.LinesFollowTheirErrorsAndEvents
  refine ⟨fun s line kind phase how hrun h1 h6 hon hrec hsafe => ?error, fun s line kind phase how hrun h1 h6 h4 hrec hhow => ?errorFenced,
    fun s line hrun h0 hsafe hrec => ?integrated, fun s line hrun h3 hsafe => ?recovered, fun s line f hrun hl hf h5 hsafe => ?ownFault,
    fun s line hrun => ?groupFault, fun s line hl => ⟨?dominantEnds, ?thermalEnds, ?groupEnds⟩, fun s line hrun hl h5 hg => ?busdom,
    fun s line t r hrec ht0 hinRun hsafe h4 hhold hfence hd ht hg => ?fenceEnds, fun s line r hrec => ?busOffLeaves⟩
  case error =>
    have hnoted : ErrorNoted s line kind := ⟨hrun, h1, h6, hrec, .inl hon⟩
    have htx (how : ErrorStep) := lineError_on phase true how hnoted hon hsafe
    have hrx (how : ErrorStep) := lineError_on phase false how hnoted hon hsafe
    refine ⟨fun hhow => ⟨?_, ?_⟩, htx .dominantRun, hrx .dominantRun⟩
    · simpa only [Line.noteError, Line.addError, if_neg hhow, if_true, tecStep_eq, wrap32] using htx how
    · simpa only [Line.noteError, Line.addError, if_neg hhow, Bool.false_eq_true, if_false, recStep_eq hhow, wrap32] using hrx how
  case errorFenced =>
    have hfenced := lineError_fenced phase false how ⟨hrun, h1, h6, hrec, .inr h4⟩ h4
    simpa only [Line.noteError, if_neg hhow, Bool.false_eq_true, if_false, wrap32] using hfenced
  case integrated => exact if_pos (by simp [hrun, h0, hsafe, hrec])
  case recovered => exact if_pos (by simp [hrun, h3, hsafe])
  case ownFault =>
    have hcause : causeOf f = if f = .dominant then 2 else 3 := by
      cases f with
      | groupSupply => exact absurd rfl hf
      | dominant | thermal => rfl
    have hlines := does_xcvrFault line f hrun
    simpa [faultLines_own hl hf, faultLine, h5, hsafe, hcause] using hlines
  case groupFault => exact does_xcvrFault line .groupSupply hrun
  case dominantEnds => simp [Does, exec_xcvrFaultCleared, execXcvrFaultCleared, faultLines_own hl, done]
  case thermalEnds => simp [Does, exec_xcvrFaultCleared, execXcvrFaultCleared, faultLines_own hl, done]
  case groupEnds => rfl
  case busdom => exact if_pos (by simp [hrun, hl, h5, hg])
  case fenceEnds =>
    have hout : (inRun s && !s.ft.hwsafe && holdOut r 1 (lineOf s line)) = true := by
      simp [hinRun, hsafe, holdOut, h4, hhold, hfence, hd, ht, hg]
    simp only [Does, exec_fenceHoldExpiry, execFenceHoldExpiry, hrec, ht0, hout, if_true, done]
  case busOffLeaves => simp only [Does, exec_recoveryWindowExpiry, execRecoveryWindowExpiry, hrec, boffWindow, done]

end Sys2Proof.Machine
end

section
/-! PROOFS. Reception on the lines: what a line keeps of the frames that it received while faults, fences and error confinement change the rest of it, what becomes of a frame that is taken and of one that is not, the judgement of a station, and O25 assembled from them. -/
namespace Sys2Proof.Machine

/-! What a line keeps of reception (03 R93, R94; 04 R127). -/

/-- What a line holds of the frames that it received: its buffers, the judgements that wait for the end of their window, and what it counts. -/
structure Reception where
  cur : NMap Buf
  delivered : NMap Nat
  rxok : Nat
  disc : Nat
  lastnt : Nat

/-- The reception of a line. -/
def Line.reception (l : Line) : Reception := { cur := l.cur, delivered := l.delivered, rxok := l.rxok, disc := l.disc, lastnt := l.lastnt }

/-- The reception of line `i`. -/
def receptionAt (s : State) (i : Nat) : Reception := (lineOf s i).reception

/-- An operation that changes no line keeps every line's reception. -/
theorem receptionAt_of_ln {s t : State} (h : t.ln = s.ln) (i : Nat) : receptionAt t i = receptionAt s i := by
  simp only [receptionAt, lineOf, h]

/-- A line replaced by one of the same reception leaves every line's reception. -/
theorem receptionAt_setLine {s : State} {l : Nat} {x : Line} (h : x.reception = receptionAt s l) (i : Nat) :
    receptionAt (setLine s l x) i = receptionAt s i := by
  by_cases hi : i = l
  · rw [receptionAt, hi, lineOf_setLine_self, h]
  · rw [receptionAt, lineOf_setLine_ne s x hi, receptionAt]

theorem lookup_map {α β : Type} (m : NMap α) (f : Nat → α → β) (k : Nat) :
    lookup (m.map (fun p => (p.1, f p.1 p.2))) k = (lookup m k).map (f k) := by
  induction m with
  | nil => rfl
  | cons p t ih =>
    obtain ⟨j, v⟩ := p
    by_cases hj : j = k
    · simp [lookup, hj]
    · simp [lookup, hj, ih]

/-- Lines that all turn to the hardware safe state keep their reception. -/
theorem receptionAt_toSafe {s t : State} {r : Nat → LineRec} {nt : Nat} (h : t.ln = s.ln.map (fun p => (p.1, p.2.toSafe (r p.1) nt))) (i : Nat) :
    receptionAt t i = receptionAt s i := by
  rw [receptionAt, receptionAt, lineOf, lineOf, h, getD, getD, lookup_map s.ln (fun j l => l.toSafe (r j) nt)]
  cases lookup s.ln i with
  | none => rfl
  | some l => rfl

@[simp] theorem dropWork_ln (s : State) (keep : Bool) : (dropWork s keep).ln = s.ln := rfl

@[simp] theorem endActivities_ln (s : State) : (endActivities s).ln = s.ln := rfl

@[simp] theorem setPstate_ln (s : State) (p : Nat) : (setPstate s p).ln = s.ln := by unfold setPstate; split <;> rfl

@[simp] theorem countFault_ln (s : State) (code cls : Nat) : (countFault s code cls).ln = s.ln := rfl

@[simp] theorem pendClass_ln (s : State) (cls : Nat) : (pendClass s cls).ln = s.ln := by unfold pendClass; split <;> rfl

@[simp] theorem enqueueFault_ln (s : State) (f : FaultItem) : (enqueueFault s f).ln = s.ln := by
  unfold enqueueFault
  split
  · rfl
  · split
    · rfl
    · split
      · rfl
      · split <;> rfl

/-- The entry into the hardware safe state keeps every line's reception (09 R278). -/
theorem receptionAt_enterHwSafe (s : State) (cause i : Nat) : receptionAt (enterHwSafe s cause) i = receptionAt s i := by
  by_cases hs : s.ft.hwsafe = true
  · simp only [enterHwSafe, hs, if_true]
  · cases hn : s.net.image with
    | none => exact receptionAt_of_ln (by simp [enterHwSafe, hs, hn, apply_ite State.ln]) i
    | some n => exact receptionAt_toSafe (r := n.lineAt) (nt := s.clk.nt) (by simp [enterHwSafe, hs, hn, apply_ite State.ln]) i

/-- A fault that is raised keeps every line's reception, whether it enters the handling or leads to the hardware safe state (09 R276 to R278). -/
theorem receptionAt_raiseFault (s : State) (code cls source : Nat) (words : List Word) (i : Nat) :
    receptionAt (raiseFault s code cls source words) i = receptionAt s i := by
  have henter (cause : Nat) : receptionAt (enterHwSafe (pendClass (countFault s code cls) cls) cause) i = receptionAt s i := by
    exact (receptionAt_enterHwSafe ..).trans (receptionAt_of_ln (by simp) i)
  unfold raiseFault raiseFaultAt
  split
  · rfl
  · dsimp only
    split
    · rfl
    · split
      · exact henter _
      · split
        · exact henter 6
        · exact receptionAt_of_ln (by simp [apply_ite State.ln]) i

/-! Error confinement and the vent path (03 R99 to R101, R97; 09 R263). -/

/-- A change of line state that is told as a fault keeps every line's reception where the line's own stays. -/
theorem receptionAt_lineFault {s : State} {line : Nat} {x : Line} (h : x.reception = receptionAt s line) (old new cls cause i : Nat) :
    receptionAt (lineFault (setLine s line x) line old new cls cause) i = receptionAt s i :=
  (receptionAt_raiseFault ..).trans (receptionAt_setLine h i)

theorem receptionAt_fence (s : State) (line cause i : Nat) : receptionAt (fence s line cause) i = receptionAt s i := by
  unfold fence
  split
  · rfl
  · refine receptionAt_lineFault ?_ ..
    dsimp only
    split <;> rfl

theorem receptionAt_confine (s : State) (line i : Nat) : receptionAt (confine s line) i = receptionAt s i := by
  unfold confine
  split
  · rfl
  · dsimp only
    split
    · rfl
    · split
      · split
        · exact (receptionAt_fence ..).trans (receptionAt_setLine (by rfl) i)
        · exact receptionAt_lineFault (by rfl) ..
      · split
        · exact receptionAt_lineFault (by rfl) ..
        · split
          · exact receptionAt_lineFault (by rfl) ..
          · rfl

theorem receptionAt_recDown (s : State) (line i : Nat) : receptionAt (recDown s line) i = receptionAt s i := by
  unfold recDown
  dsimp only
  split
  · rfl
  · split
    · exact (receptionAt_of_ln (drew_ln _) i).trans (receptionAt_setLine (by rfl) i)
    · exact receptionAt_setLine (by rfl) i

@[simp] theorem offerEvent_ln (s : State) (e : VentEv) : (offerEvent s e).ln = s.ln := by unfold offerEvent; split <;> rfl

@[simp] theorem watchWrite_ln (s : State) (line buf : Nat) : (watchWrite s line buf).ln = s.ln := by unfold watchWrite; dsimp only; split <;> rfl

/-! A frame that is received (03 R93, R94, R103; 16 R421). -/

/-- The line takes part in reception: the module runs, the line is ERROR_ACTIVE, ERROR_PASSIVE or FENCED, and its transceiver is supplied. -/
structure Receives (s : State) (line : Nat) : Prop where
  running : s.clk.running = true
  state : (lineOf s line).state = 1 ∨ (lineOf s line).state = 2 ∨ (lineOf s line).state = 4
  supplied : (lineOf s line).gsupNow = false

theorem Receives.not_ignored {s : State} {line : Nat} (h : Receives s line) :
    ¬ ((!s.clk.running || !((lineOf s line).state == 1 || (lineOf s line).state == 2 || (lineOf s line).state == 4) ||
      (lineOf s line).gsupNow) = true) := by
  obtain ⟨hrun, h1 | h2 | h4, hg⟩ := h
  · simp [hrun, h1, hg]
  · simp [hrun, h2, hg]
  · simp [hrun, h4, hg]

/-- The payload that a frame carries (03 Table 3-6). -/
def payloadOf (f : Frame) : Bytes := slice f.data 0 (dlcLen f.fdf f.dlc)

/-- A line that counts a frame received at an instant. -/
def Line.counted (l : Line) (at_ : Nat) : Line := { l with rxok := wrap32 (l.rxok + 1), lastnt := at_ % 2 ^ 32 }

/-- REC follows a frame received without error, outside the hardware safe state. -/
def recFollows (s : State) (line : Nat) : State := if s.ft.hwsafe then s else recDown s line

/-- The line state follows the counters, outside the hardware safe state. -/
def stateFollows (s : State) (line : Nat) : State := if s.ft.hwsafe then s else confine s line

/-- The end of every reception: REC follows the frame, and the line state REC. -/
def endReception (s : State) (line : Nat) : State := stateFollows (recFollows s line) line

theorem receptionAt_endReception (s : State) (line i : Nat) : receptionAt (endReception s line) i = receptionAt s i := by
  have hrec : receptionAt (recFollows s line) i = receptionAt s i := by
    unfold recFollows
    split
    · rfl
    · exact receptionAt_recDown s line i
  unfold endReception stateFollows
  split
  · exact hrec
  · exact (receptionAt_confine ..).trans hrec

/-- Time that passes moves NT alone among what the schedule reads. -/
theorem advanceTo_clk (s : State) (t : Nat) : (advanceTo s t).clk = { s.clk with nt := Nat.max s.clk.nt t } := by
  by_cases h : t ≤ s.clk.nt
  · rw [advanceTo_of_le h, show Nat.max s.clk.nt t = s.clk.nt from Nat.max_eq_left h]
  · rw [advanceTo_of_lt (Nat.lt_of_not_le h), show Nat.max s.clk.nt t = t from Nat.max_eq_right (Nat.le_of_not_le h)]

/-- Where an instant lies in the schedule does not depend on NT. -/
@[simp] theorem windowOver_advanceTo (s : State) (t line x : Nat) : windowOver (advanceTo s t) line x = windowOver s line x := by
  cases hn : s.net.image with
  | none => simp only [windowOver, advanceTo_net, hn]
  | some n => simp only [windowOver, cycling, inRun, cycleStart, boundaryNt, cycleLen, basicLen, basics, advanceTo_net, advanceTo_pwr, advanceTo_clk, hn]

/-- A frame that no buffer takes is discarded, and offered to the vent path without a judgement. -/
def discardFrame (s : State) (line at_ : Nat) (f : Frame) : State :=
  let l := (lineOf s line).counted at_
  endReception (offerEvent (setLine s line { l with disc := wrap32 (l.disc + 1) })
    (if f.remote then .remote line at_ else .frame line f.ident f.ide f.fdf 0 (payloadOf f) at_)) line

/-- The judgement of a frame: that of its RX_EXCL window, and no check in a FREE or ARB window (16 R421). -/
def frameJudgement (s : State) (line : Nat) (r : LineRec) (f : Frame) (judged : Option (Nat × Window)) : Nat × Option Nat :=
  match judged with
  | some (i, w) => judge s line i r w (payloadOf f) (lookup (lineOf s line).e2eRef i)
  | none => (0, none)

/-- The buffer that a frame fills (03 R94). -/
def filledBuf (f : Frame) (was : Buf) (e2e window at_ : Nat) : Buf :=
  { ident := f.ident, ide := f.ide, fdf := f.fdf, brs := f.brs, dlc := f.dlc, esi := f.esi, valid := true, repl := was.valid, e2e := e2e
    window := window, fvnt := at_, data := payloadOf f }

/-- A judgement is kept for the end of its window, with the reference that it leaves (16 R421, 04 R127). -/
def Line.keep (l : Line) (judged : Option (Nat × Window)) (j : Nat × Option Nat) : Line :=
  let l := match judged, j.2 with
    | some (i, _), some a => { l with e2eRef := insertAt l.e2eRef i a }
    | _, _ => l
  match judged with
  | some (i, _) => { l with delivered := insertAt l.delivered i j.1 }
  | none => l

/-- The number of the window in which a frame was received, 0 in none. -/
def windowNo (win : Option (Nat × Window)) : Nat := match win with | some (i, _) => i | none => 0

/-- A frame that a buffer takes replaces its content with its judgement, and is offered to the vent path. -/
def deliverFrame (s : State) (line at_ : Nat) (r : LineRec) (f : Frame) (win judged : Option (Nat × Window)) (buf : Nat) : State :=
  let l := (lineOf s line).counted at_
  let j := frameJudgement s line r f judged
  let b := filledBuf f ((lookup l.cur buf).getD Buf.empty) j.1 (windowNo win) at_
  endReception (offerEvent (watchWrite (setLine s line ({ l with cur := insertAt l.cur buf b }.keep judged j)) line buf)
    (.frame line f.ident f.ide f.fdf j.1 (payloadOf f) at_)) line

section
variable {s : State} {line : Nat} {n : NetImage} {r : LineRec}

theorem does_discard {at_ : Nat} {f : Frame} (hn : s.net.image = some n) (hr : lineRec s line = some r) (h : Receives s line)
    (hd : delivery (advanceTo s at_) n line f (windowOver (advanceTo s at_) line at_) = none) :
    Does (.frameReceived line at_ f) s (discardFrame (advanceTo s at_) line at_ f) := by
  simp only [Does, exec_frameReceived, execFrameReceived, hn, hr, if_neg h.not_ignored, hd]
  rfl

theorem does_deliver {at_ buf : Nat} {f : Frame} {judged : Option (Nat × Window)} (hn : s.net.image = some n) (hr : lineRec s line = some r)
    (h : Receives s line) (hd : delivery (advanceTo s at_) n line f (windowOver (advanceTo s at_) line at_) = some (buf, judged)) :
    Does (.frameReceived line at_ f) s
      (deliverFrame (advanceTo s at_) line at_ r f (windowOver (advanceTo s at_) line at_) judged buf) := by
  simp only [Does, exec_frameReceived, execFrameReceived, hn, hr, if_neg h.not_ignored, hd]
  rfl

end

/-- What a line keeps of a frame that is discarded: its counts. -/
theorem receptionAt_discardFrame (s : State) (line at_ : Nat) (f : Frame) :
    receptionAt (discardFrame s line at_ f) line = { receptionAt s line with
      rxok := wrap32 ((lineOf s line).rxok + 1), lastnt := at_ % 2 ^ 32, disc := wrap32 ((lineOf s line).disc + 1) } := by
  rw [discardFrame, receptionAt_endReception, receptionAt_of_ln (offerEvent_ln _ _), receptionAt, lineOf_setLine_self]
  rfl

/-- What a line keeps of a frame that its RX_EXCL window takes: the buffer, the judgement, and its counts. -/
theorem receptionAt_deliverFrame (s : State) (line at_ : Nat) (r : LineRec) (f : Frame) (i : Nat) (w : Window) (buf : Nat) :
    receptionAt (deliverFrame s line at_ r f (some (i, w)) (some (i, w)) buf) line =
      let e := (frameJudgement s line r f (some (i, w))).1
      { receptionAt s line with
        cur := insertAt (lineOf s line).cur buf (filledBuf f ((lookup (lineOf s line).cur buf).getD Buf.empty) e i at_)
        delivered := insertAt (lineOf s line).delivered i e, rxok := wrap32 ((lineOf s line).rxok + 1), lastnt := at_ % 2 ^ 32 } := by
  rw [deliverFrame, receptionAt_endReception, receptionAt_of_ln (offerEvent_ln _ _), receptionAt_of_ln (watchWrite_ln _ _ _), receptionAt,
    lineOf_setLine_self]
  cases h : (frameJudgement s line r f (some (i, w))).2 with
  | none => simp only [Line.keep, h]; rfl
  | some a => simp only [Line.keep, h]; rfl

/-- A remote frame is taken by no buffer, nor is a frame outside every window (03 Table 3-5). -/
theorem delivery_none {s : State} {n : NetImage} {line : Nat} {f : Frame} {win : Option (Nat × Window)} (h : f.remote = true ∨ win = none) :
    delivery s n line f win = none := by
  rcases h with h | h
  · simp [delivery, h]
  · simp [delivery, h]

/-- An RX_EXCL window takes the frame of its identifier and format into its buffer, and judges it (03 Table 3-5). -/
theorem delivery_rxExcl {s : State} {n : NetImage} {line i : Nat} {f : Frame} {w : Window} (hf : f.remote = false) (hk : w.kind = 2)
    (hid : w.ident = f.ident) (hide : w.ide = f.ide) (hfdf : w.fdf = f.fdf) : delivery s n line f (some (i, w)) = some (w.buf, some (i, w)) := by
  simp [delivery, hf, hk, hid, hide, hfdf]

/-! The end of an RX_EXCL window (04 R127). -/

/-- An RX_EXCL window of the current basic cycle ends, outside the hardware safe state. -/
structure RxWindowEnds (s : State) (line window : Nat) (n : NetImage) (r : LineRec) (w : Window) : Prop where
  image : s.net.image = some n
  record : lineRec s line = some r
  entry : windowAt s line window = some w
  cycling : cycling s = true
  safe : s.ft.hwsafe = false
  kind : w.kind = 2
  current : w.bc = s.clk.bc

theorem RxWindowEnds.not_ignored {s : State} {line window : Nat} {n : NetImage} {r : LineRec} {w : Window} (h : RxWindowEnds s line window n r w) :
    ¬ ((!Machine.cycling s || s.ft.hwsafe || w.kind != 2 || w.bc != s.clk.bc) = true) := by
  obtain ⟨-, -, -, hc, hs, hk, hb⟩ := h
  simp [hc, hs, hk, hb]

/-- Whether a frame was heard in a window, and whether its judgement is good: E2E 0 or 1. -/
def heardIn (l : Line) (window : Nat) : Option Bool := (lookup l.delivered window).map (fun e => decide (e ≤ 1))

/-- The judgement that waited for the window's end is taken, and whether it was good is kept for the station's address. -/
def Line.closeWindow (l : Line) (window address : Nat) : Line :=
  { l with delivered := eraseAt l.delivered window, lastGood := insertAt l.lastGood address (heardIn l window == some true) }

/-- A window of a line closes. -/
def closeWindow (s : State) (line window : Nat) (w : Window) : State := setLine s line ((lineOf s line).closeWindow window w.address)

theorem lineOf_closeWindow (s : State) (line window : Nat) (w : Window) :
    lineOf (closeWindow s line window w) line = (lineOf s line).closeWindow window w.address := lineOf_setLine_self _ _ _

/-- The station of unit `k` is judged; one that becomes ABSENT loses its references (04 Table 4-7, 16 R421). -/
def judgeUnit (s : State) (n : NetImage) (line : Nat) (r : LineRec) (w : Window) (k : Nat) (heard : Option Bool) : State :=
  let x := judgeStation r.absentN (unitRun s k) heard
  let y := { s with un := { s.un with run := setD UnitRun.reset s.un.run k x } }
  if x.station = 2 ∧ (unitRun s k).station ≠ 2 then clearRefs y n line w.address else y

/-- The state in which a window closes: NT has reached its end. -/
def atWindowEnd (s : State) (w : Window) : State := advanceTo s (basicStart s + w.start + w.length)

section
variable {s : State} {line window : Nat} {n : NetImage} {r : LineRec} {w : Window} (h : RxWindowEnds s line window n r w)
include h

/-- The end of a window with no station in the image closes it, and judges none. -/
theorem does_rxWindowEnd_no_station (hk : n.stationAt line w.address = none) :
    Does (.rxWindowEnd line window) s (closeWindow (atWindowEnd s w) line window w) := by
  simp only [Does, exec_rxWindowEnd, execRxWindowEnd, h.image, h.record, h.entry, if_neg h.not_ignored, hk]
  rfl

/-- The end of a station's window closes it and judges the station. -/
theorem does_rxWindowEnd_station {k : Nat} (hk : n.stationAt line w.address = some k) :
    Does (.rxWindowEnd line window) s
      (judgeUnit (closeWindow (atWindowEnd s w) line window w) n line r w k (heardIn (lineOf (atWindowEnd s w) line) window)) := by
  simp only [Does, exec_rxWindowEnd, execRxWindowEnd, h.image, h.record, h.entry, if_neg h.not_ignored, hk]
  rfl

end

/-- The judgement moves the run-time fields of its unit as Table 4-7 says. -/
theorem unitRun_judgeUnit (s : State) (n : NetImage) (line : Nat) (r : LineRec) (w : Window) (k : Nat) (heard : Option Bool) :
    unitRun (judgeUnit s n line r w k heard) k = judgeStation r.absentN (unitRun s k) heard := by
  unfold judgeUnit
  dsimp only
  split
  · simp only [unitRun, clearRefs, onLine_un, getD_setD_self]
  · simp only [unitRun, getD_setD_self]

/-- The judgement touches neither what waits for other windows on the line nor what is kept for the addresses. -/
theorem judgeUnit_line (s : State) (n : NetImage) (line : Nat) (r : LineRec) (w : Window) (k : Nat) (heard : Option Bool) :
    (lineOf (judgeUnit s n line r w k heard) line).delivered = (lineOf s line).delivered ∧
    (lineOf (judgeUnit s n line r w k heard) line).lastGood = (lineOf s line).lastGood := by
  unfold judgeUnit
  dsimp only
  split
  · rw [clearRefs, onLine, lineOf_setLine_self]
    exact ⟨rfl, rfl⟩
  · exact ⟨rfl, rfl⟩

theorem judgeUnit_clk (s : State) (n : NetImage) (line : Nat) (r : LineRec) (w : Window) (k : Nat) (heard : Option Bool) :
    (judgeUnit s n line r w k heard).clk = s.clk := by
  unfold judgeUnit
  dsimp only
  split <;> rfl

/-- Settles O25: each clause says what a discarded frame, a delivered frame or the end of a window does, or reads it off the line that it leaves. -/
theorem receivedFramesAreDeliveredAndJudged : Obligations.ReceivedFramesAreDeliveredAndJudged := by
  unfold Obligations.ReceivedFramesAreDeliveredAndJudged
  refine ⟨fun s line at_ f n r hn hr hrun hst hg => ⟨fun hd => ?discarded, fun buf judged hd => ?delivered⟩,
    fun s line window n r w hn hr hw hc hs hkind hb => ⟨fun hno => ?noStation, fun k hk => ?station⟩,
    fun s line at_ i f n r w hn hr hrun hst hg hf hwin hkind hid hide hfdf => ?bufferFilled,
    fun s line at_ f n r hn hr hrun hst hg hno => ?counted,
    fun s line window k n r w hn hr hw hc hs hkind hb hstation => ?judged⟩
  case discarded => exact does_discard hn hr ⟨hrun, hst, hg⟩ hd
  case delivered => exact does_deliver hn hr ⟨hrun, hst, hg⟩ hd
  case noStation => exact does_rxWindowEnd_no_station ⟨hn, hr, hw, hc, hs, hkind, hb⟩ hno
  case station => exact does_rxWindowEnd_station ⟨hn, hr, hw, hc, hs, hkind, hb⟩ hk
  case bufferFilled =>
    have hover : windowOver (advanceTo s at_) line at_ = some (i, w) := (windowOver_advanceTo ..).trans hwin
    have hdoes := does_deliver hn hr ⟨hrun, hst, hg⟩ (hover ▸ delivery_rxExcl hf hkind hid hide hfdf)
    rw [hover] at hdoes
    have hkept := receptionAt_deliverFrame (advanceTo s at_) line at_ r f i w w.buf
    have hcur := congrArg Reception.cur hkept
    have hdelivered := congrArg Reception.delivered hkept
    have hrxok := congrArg Reception.rxok hkept
    have hlastnt := congrArg Reception.lastnt hkept
    simp only [receptionAt, Line.reception, lineOf_advanceTo] at hcur hdelivered hrxok hlastnt
    exact ⟨_, _, hdoes, by rw [lineOf_settle, hcur, lookup_insertAt_self], rfl, rfl, rfl, rfl, rfl, rfl,
      by rw [lineOf_settle, hdelivered, lookup_insertAt_self]; rfl, by rw [lineOf_settle, hrxok, wrap32], by rw [lineOf_settle, hlastnt]⟩
  case counted =>
    have hdoes := does_discard (at_ := at_) hn hr ⟨hrun, hst, hg⟩ (delivery_none (by rwa [windowOver_advanceTo]))
    have hkept := receptionAt_discardFrame (advanceTo s at_) line at_ f
    have hdisc := congrArg Reception.disc hkept
    have hcur := congrArg Reception.cur hkept
    have hrxok := congrArg Reception.rxok hkept
    simp only [receptionAt, Line.reception, lineOf_advanceTo, wrap32] at hdisc hcur hrxok
    exact ⟨_, hdoes, by rw [lineOf_settle, hdisc], by rw [lineOf_settle, hcur], by rw [lineOf_settle, hrxok]⟩
  case judged =>
    have hdoes := does_rxWindowEnd_station ⟨hn, hr, hw, hc, hs, hkind, hb⟩ hstation
    have hclosed := judgeUnit_line (closeWindow (atWindowEnd s w) line window w) n line r w k
      (heardIn (lineOf (atWindowEnd s w) line) window)
    rw [lineOf_closeWindow, atWindowEnd, lineOf_advanceTo] at hclosed
    obtain ⟨hdelivered, hlastGood⟩ := hclosed
    refine ⟨_, hdoes, ?unit, ?taken, ?good, ?time⟩
    case unit =>
      rw [unitRun, settle_un, ← unitRun, unitRun_judgeUnit]
      simp [closeWindow, atWindowEnd, heardIn, unitRun]
    case taken => rw [lineOf_settle, atWindowEnd, lineOf_advanceTo, hdelivered]; exact lookup_eraseAt_self _ _
    case good => rw [lineOf_settle, atWindowEnd, lineOf_advanceTo, hlastGood]; exact lookup_insertAt_self _ _ _
    case time => rw [settle_clk, judgeUnit_clk, closeWindow, setLine_clk, atWindowEnd, advanceTo_clk]

end Sys2Proof.Machine
end

section
/-! PROOFS. The schedule's frames: what a built frame does while it waits for the bus, the start of a basic cycle, the reference frame, the start of a TX_EXCL window, and O22 assembled from them. -/
namespace Sys2Proof.Machine

/-! A built frame that waits for the bus (04 R113, R126). -/

section
variable {s : State} {line at_ : Nat} {r : LineRec} {l : Line} {t : Retry} {w : Window}

theorem lapseWaiting_of_none (h : l.txWait = none) : lapseWaiting s line r at_ l = l := by simp only [lapseWaiting, h]

/-- A frame that still fits goes on waiting. -/
theorem lapseWaiting_of_fits (ht : l.txWait = some t) (hw : windowAt s line t.window = some w)
    (hfit : fits r w (basicStart s + w.start) (Nat.max at_ (basicStart s + w.start + r.guard)) (r.windowDur w) = true) :
    lapseWaiting s line r at_ l = l := by
  simp only [lapseWaiting, ht, hw, hfit, if_true]

/-- A frame that can no longer start in time becomes a pending retry. -/
theorem lapseWaiting_of_late (ht : l.txWait = some t) (hw : windowAt s line t.window = some w)
    (hlate : fits r w (basicStart s + w.start) (Nat.max at_ (basicStart s + w.start + r.guard)) (r.windowDur w) = false) :
    lapseWaiting s line r at_ l = { l.pend t.window t.data with txWait := none } := by
  simp only [lapseWaiting, ht, hw, hlate, Bool.false_eq_true, if_false]

/-- Behind a frame of the module on the bus nothing starts. -/
theorem startWaiting_of_busy (h : l.onBus.isSome = true) : startWaiting s line at_ l = l := by
  unfold startWaiting
  split
  · rfl
  · exact if_pos h

/-- On a free bus a frame that can no longer start in time becomes a pending retry. -/
theorem startWaiting_of_late (hr : lineRec s line = some r) (ht : l.txWait = some t) (hw : windowAt s line t.window = some w)
    (hbus : l.onBus = none)
    (hlate : fits r w (basicStart s + w.start) (Nat.max at_ (basicStart s + w.start + r.guard)) (r.windowDur w) = false) :
    startWaiting s line at_ l = { l.pend t.window t.data with txWait := none } := by
  simp only [startWaiting, hr, hbus, Option.isSome_none, Bool.false_eq_true, if_false, lapseWaiting_of_late ht hw hlate]

/-- On a free bus a frame that still fits starts, unless an injection goes ahead or the module sends no frames. -/
theorem startWaiting_of_fits (hr : lineRec s line = some r) (ht : l.txWait = some t) (hw : windowAt s line t.window = some w)
    (hbus : l.onBus = none)
    (hfit : fits r w (basicStart s + w.start) (Nat.max at_ (basicStart s + w.start + r.guard)) (r.windowDur w) = true) :
    startWaiting s line at_ l =
      if l.inj.isEmpty && inRun s && !s.ft.hwsafe then
        { l with txWait := none, onBus := some (l.windowFrame (.window t.window) (Nat.max at_ (basicStart s + w.start + r.guard)) w t.data) }
      else l := by
  simp only [startWaiting, hr, hbus, Option.isSome_none, Bool.false_eq_true, if_false, lapseWaiting_of_fits ht hw hfit, ht, hw]

end

/-! The start of a basic cycle and its reference frame (04 R109, R115, R116). -/

theorem does_basicCycleStart {s : State} (hc : cycling s = true) (hs : s.ft.hwsafe = false) (hb : s.clk.bc + 1 < basics s) :
    let u := { s with clk := { s.clk with bc := s.clk.bc + 1 } }
    Does .basicCycleStart s (startBasic (advanceTo u (basicStart u)) (basicStart u)) := by
  exact if_neg (by simp [hc, hs, hb])

section
variable {s : State} {line t : Nat} {r : LineRec}

/-- The reference frame that is due starts within GUARD of its nominal start. -/
theorem does_referenceFrame {at_ : Nat} (hdue : (lineOf s line).refDue = some t) (hr : lineRec s line = some r) (hc : cycling s = true)
    (hmay : mayStart s (lineOf s line) = true) (hlo : t ≤ at_) (hhi : at_ ≤ t + r.guard) :
    Does (.referenceFrame line at_) s (setLine (advanceTo s at_) line { lineOf s line with
      refDue := none, onBus := some ((lineOf s line).referenceFrame r at_ (refPayload s line)), align := 80 * (at_ - t : Nat) }) := by
  have hstarts : (cycling s && mayStart s (lineOf s line) && decide (t ≤ at_ ∧ at_ ≤ t + r.guard)) = true := by simp [hc, hmay, hlo, hhi]
  simp only [Does, exec_referenceFrame, execReferenceFrame, hdue, hr, if_pos hstarts, done]

/-- Past GUARD the reference frame that is due is dropped and counted. -/
theorem does_referenceFrameTimeout (hdue : (lineOf s line).refDue = some t) (hr : lineRec s line = some r) (hc : cycling s = true)
    (hs : s.ft.hwsafe = false) :
    Does (.referenceFrameTimeout line) s (setLine (advanceTo s (t + r.guard)) line { lineOf s line with
      refDue := none, drop := wrap32 ((lineOf s line).drop + 1) }) := by
  have hdrops : (cycling s && !s.ft.hwsafe) = true := by simp [hc, hs]
  simp only [Does, exec_referenceFrameTimeout, execReferenceFrameTimeout, hdue, hr, if_pos hdrops, done]

end

/-! The start of a TX_EXCL window (04 R113, R119; 16 R420; 17 R441). -/

/-- The instant at which a window starts. -/
def atWindowStart (s : State) (w : Window) : State := advanceTo s (basicStart s + w.start)

/-- A TX_EXCL window of the current basic cycle starts, and its frame is to be built: the module sends frames, the line transmits, and the window's station is served. -/
structure TxWindowStarts (s : State) (line window : Nat) (n : NetImage) (r : LineRec) (w : Window) : Prop where
  image : s.net.image = some n
  record : lineRec s line = some r
  entry : windowAt s line window = some w
  cycling : cycling s = true
  safe : s.ft.hwsafe = false
  kind : w.kind = 1
  current : w.bc = s.clk.bc
  sends : outstop (atWindowStart s w) = false
  on : (lineOf (atWindowStart s w) line).on = true
  joined : (lineOf (atWindowStart s w) line).joined = true
  served : stationServed (atWindowStart s w) n line w.address = true

/-- The frame of a window has been built from the output image, with ALIVE advanced where it carries E2E, and takes the bus or waits for it. -/
def buildFrame (s : State) (line window idle : Nat) (n : NetImage) (r : LineRec) (w : Window) : State :=
  let l := lineOf s line
  let alive := match lookup l.alive window with | some a => (a + 1) % 16 | none => 0
  let bad := poisonedOutput s
  let data := txPayload bad n line window r w alive
  let m := if w.e2e then { l with alive := insertAt l.alive window alive } else l
  let v := { dmaRead (markSent s n (txPoints n line window)) with free := bad.free }
  setLine v line (startWaiting v line idle { lapseWaiting v line r v.clk.nt m with txWait := some { window := window, data := data } })

section
variable {s : State} {line window : Nat} {n : NetImage} {r : LineRec} {w : Window} (h : TxWindowStarts s line window n r w)
include h

theorem TxWindowStarts.not_ignored : ¬ ((!Machine.cycling s || s.ft.hwsafe || w.kind != 1 || w.bc != s.clk.bc) = true) := by
  simp [h.cycling, h.safe, h.kind, h.current]

theorem TxWindowStarts.not_withheld :
    ¬ ((outstop (advanceTo s (basicStart s + w.start)) || !(lineOf (advanceTo s (basicStart s + w.start)) line).on ||
      !(lineOf (advanceTo s (basicStart s + w.start)) line).joined ||
      !stationServed (advanceTo s (basicStart s + w.start)) n line w.address) = true) := by
  obtain ⟨-, -, -, -, -, -, -, hsends, hon, hjoined, hserved⟩ := h
  rw [atWindowStart] at hsends hon hjoined hserved
  simp only [hsends, hon, hjoined, hserved, Bool.not_true, Bool.or_false, Bool.false_eq_true, not_false_eq_true]

/-- A window whose key is unusable drops its frame, and counts it. -/
theorem does_txWindowStart_key_unusable (idle : Nat) (hkey : keyUnusable (atWindowStart s w) r w = true) :
    Does (.txWindowStart line { entry := window, idle := idle }) s
      (setLine (atWindowStart s w) line { lineOf (atWindowStart s w) line with drop := wrap32 ((lineOf (atWindowStart s w) line).drop + 1) }) := by
  rw [atWindowStart] at hkey
  simp only [Does, exec_txWindowStart, execTxWindowStart, h.image, h.record, h.entry, if_neg h.not_ignored, if_neg h.not_withheld,
    if_pos hkey]
  rfl

/-- A window whose key is usable, or that needs none, has its frame built. -/
theorem does_txWindowStart_built (idle : Nat) (hkey : keyUnusable (atWindowStart s w) r w = false) :
    Does (.txWindowStart line { entry := window, idle := idle }) s (buildFrame (atWindowStart s w) line window idle n r w) := by
  rw [atWindowStart] at hkey
  simp only [Does, exec_txWindowStart, execTxWindowStart, h.image, h.record, h.entry, if_neg h.not_ignored, if_neg h.not_withheld, hkey,
    Bool.false_eq_true, if_false]
  rfl

end

/-- Settles O22: each clause is what its command does under its conditions, or what a built frame does while it waits. -/
theorem theScheduleSendsItsFrames : Obligations.TheScheduleSendsItsFrames := by
  unfold Obligations.TheScheduleSendsItsFrames
  refine ⟨fun s hc hs hb => ?basicCycle, fun s line at_ t r hdue hr hc hmay hlo hhi => ?reference, fun l r start data => ?referenceContent,
    fun s line t r hdue hr hc hs => ?referenceDropped,
    fun s line window idle n r w hn hr hw hc hs hkind hb => fun hsends hon hjoined hserved => ?window,
    fun s line idle r l t w hr ht hw => ⟨?busy, ?late, ?injectionAhead, ?starts⟩⟩
  case basicCycle => exact does_basicCycleStart hc hs hb
  case reference => exact does_referenceFrame hdue hr hc hmay hlo hhi
  case referenceContent => rfl
  case referenceDropped => exact does_referenceFrameTimeout hdue hr hc hs
  case window =>
    have hstarts : TxWindowStarts s line window n r w := ⟨hn, hr, hw, hc, hs, hkind, hb, hsends, hon, hjoined, hserved⟩
    exact ⟨does_txWindowStart_key_unusable hstarts idle, does_txWindowStart_built hstarts idle⟩
  case busy => exact startWaiting_of_busy
  case late => exact startWaiting_of_late hr ht hw
  case injectionAhead =>
    intro hbus hfit hinj
    rw [startWaiting_of_fits hr ht hw hbus hfit, if_neg (by simp [hinj])]
  case starts =>
    intro hbus hfit hinj hrun hs
    rw [startWaiting_of_fits hr ht hw hbus hfit, if_pos (by simp [hinj, hrun, hs])]

end Sys2Proof.Machine
end

section
/-! PROOFS. The end of a frame of the module: what the line counts of it, and O23 from its judgement. -/
namespace Sys2Proof.Machine

/-- A line whose frame has left the bus: an acknowledged one is counted, and lowers TEC outside the hardware safe state (04 R124, 03 R99). -/
def Line.sentFrame (l : Line) (acked safe : Bool) : Line :=
  let l := { l with onBus := none }
  let l := if acked then { l with txok := wrap32 (l.txok + 1) } else l
  if acked && !safe then l.tecDown else l

/-- The frame of the module that ends is judged by its role, the next one takes the bus, and the line state follows the counters. -/
def endFrame (s : State) (line at_ : Nat) (r : LineRec) (f : OnBus) (acked : Bool) : State :=
  let l := frameJudged s line f acked ((lineOf s line).sentFrame acked s.ft.hwsafe)
  stateFollows (measureDelay (setLine s line (startWaiting s line at_ l)) line r f) line

theorem does_txFrameDone {s : State} {line at_ : Nat} {result : TxResult} {r : LineRec} {f : OnBus} (hbus : (lineOf s line).onBus = some f)
    (hr : lineRec s line = some r) (hrun : s.clk.running = true) :
    Does (.txFrameDone line at_ result) s (endFrame (advanceTo s at_) line at_ r f (result == .acked)) := by
  simp only [Does, exec_txFrameDone, execTxFrameDone, hbus, hr, hrun, Bool.not_true, Bool.false_eq_true, if_false, endFrame,
    lineOf_advanceTo]
  rfl

/-- Settles O23: the statement is the end of a frame, at an instant that changes neither the line nor the hardware safe state. -/
theorem aSentFrameIsJudged : Obligations.ASentFrameIsJudged := by
  unfold Obligations.ASentFrameIsJudged
  intro s line at_ result r f hbus hr hrun
  have hdoes := does_txFrameDone (at_ := at_) (result := result) hbus hr hrun
  rw [endFrame, lineOf_advanceTo, advanceTo_ft] at hdoes
  exact hdoes

end Sys2Proof.Machine
end

section
/-! PROOFS. Retries and injections: the windows that can take a retry, the retry that is sent or dropped, the injection that goes ahead of the module's other frames, and O24 assembled from them. -/
namespace Sys2Proof.Machine

/-! The window that takes a retry (04 R113, R125). -/

/-- An entry of a numbered list stands at its number. -/
theorem getElem?_of_mem_indexed {α : Type} {l : List α} {i : Nat} {x : α} (h : (i, x) ∈ indexed l) : l[i]? = some x := by
  obtain ⟨k, hk⟩ := List.mem_iff_getElem?.mp h
  obtain ⟨hrange, hx⟩ := List.getElem?_zip_eq_some.mp hk
  obtain ⟨hlt, hki⟩ := List.getElem?_eq_some_iff.mp hrange
  obtain rfl : k = i := (List.getElem_range hlt).symm.trans hki
  exact hx

/-- A window that comes later for a retry is an entry of the line of higher number, FREE or ARB, in the current basic cycle. -/
theorem mem_laterWindows {s : State} {line w i : Nat} {x : Window} (h : (i, x) ∈ laterWindows s line w) :
    w < i ∧ windowAt s line i = some x ∧ x.bc = s.clk.bc ∧ (x.kind = 0 ∨ x.kind = 3) := by
  cases hn : s.net.image with
  | none => simp [laterWindows, hn] at h
  | some n =>
    simp only [laterWindows, hn] at h
    obtain ⟨hmem, hlater⟩ := List.mem_filter.mp h
    obtain ⟨⟨hw, hbc⟩, hkind⟩ : (w < i ∧ x.bc = s.clk.bc) ∧ (x.kind = 0 ∨ x.kind = 3) := by simpa using hlater
    exact ⟨hw, by simp only [windowAt, hn, getElem?_of_mem_indexed hmem], hbc, hkind⟩

/-- The window that takes a retry is a later one in which it fits. -/
theorem retryWindow_eq_some {s : State} {line w at_ dur i : Nat} {r : LineRec} {x : Window} (h : retryWindow s line r w at_ dur = some (i, x)) :
    (i, x) ∈ laterWindows s line w ∧
    fits r x (basicStart s + x.start) (Nat.max at_ (basicStart s + x.start + r.guard)) dur = true :=
  ⟨List.mem_of_find?_eq_some h, List.find?_some (p := fun p : Nat × Window =>
    fits r p.2 (basicStart s + p.2.start) (Nat.max at_ (basicStart s + p.2.start + r.guard)) dur) h⟩

/-! The oldest retry at a bus idle (04 R125, 03 R101). -/

/-- A retry is the oldest of a line at an instant, and its window's entry is `tw`. -/
structure RetryWaits (s : State) (line at_ : Nat) (n : NetImage) (r : LineRec) (tw : Window) (t : Retry) (rest : List Retry) : Prop where
  image : s.net.image = some n
  record : lineRec s line = some r
  cycling : cycling s = true
  safe : s.ft.hwsafe = false
  oldest : (lapseWaiting s line r (Nat.max at_ s.clk.nt) (lineOf s line)).retries = t :: rest
  entry : windowAt s line t.window = some tw

section
variable {s : State} {line window at_ : Nat} {n : NetImage} {r : LineRec} {tw : Window} {t : Retry} {rest : List Retry}
  (h : RetryWaits s line at_ n r tw t rest)
include h

theorem RetryWaits.not_ignored : ¬ ((!Machine.cycling s || s.ft.hwsafe) = true) := by simp [h.cycling, h.safe]

/-- A retry whose station is no longer served is dropped. -/
theorem does_retrySend_not_served (hgone : stationServed s n line tw.address = false) :
    Does (.retrySend line window at_) s (setLine (advanceTo s (Nat.max at_ s.clk.nt)) line
      ((lapseWaiting s line r (Nat.max at_ s.clk.nt) (lineOf s line)).dropRetry rest)) := by
  simp only [Does, exec_retrySend, execRetrySend, h.image, h.record, if_neg h.not_ignored, h.oldest, h.entry, hgone, Bool.not_false, if_true,
    done]

/-- A retry for which no window is left is dropped. -/
theorem does_retrySend_no_window (hserved : stationServed s n line tw.address = true)
    (hnone : retryWindow s line r t.window (Nat.max at_ s.clk.nt) (r.windowDur tw) = none) :
    Does (.retrySend line window at_) s (setLine (advanceTo s (Nat.max at_ s.clk.nt)) line
      ((lapseWaiting s line r (Nat.max at_ s.clk.nt) (lineOf s line)).dropRetry rest)) := by
  simp only [Does, exec_retrySend, execRetrySend, h.image, h.record, if_neg h.not_ignored, h.oldest, h.entry, hserved, hnone, Bool.not_true,
    Bool.false_eq_true, if_false, done]

/-- A retry is sent from GUARD after the start of the first window in which it fits. -/
theorem does_retrySend_sent {w : Window} (hserved : stationServed s n line tw.address = true)
    (hwin : retryWindow s line r t.window (Nat.max at_ s.clk.nt) (r.windowDur tw) = some (window, w))
    (hat : basicStart s + w.start + r.guard ≤ Nat.max at_ s.clk.nt)
    (hmay : mayStart s (lapseWaiting s line r (Nat.max at_ s.clk.nt) (lineOf s line)) = true) :
    let l := lapseWaiting s line r (Nat.max at_ s.clk.nt) (lineOf s line)
    Does (.retrySend line window at_) s (setLine (advanceTo s (Nat.max at_ s.clk.nt)) line { l with
      retries := rest, onBus := some (l.windowFrame (.retry t.window) (Nat.max at_ s.clk.nt) tw t.data) }) := by
  simp only [Does, exec_retrySend, execRetrySend, h.image, h.record, if_neg h.not_ignored, h.oldest, h.entry, hserved, hwin, hat, hmay,
    Bool.not_true, Bool.false_eq_true, if_false, beq_self_eq_true, decide_true, Bool.and_self, if_true, done]

end

/-! The first queued injection at a bus idle (04 R126; 09 R267, R278). -/

theorem Line.yields_of_free {l : Line} (nt at_ : Nat) (h : l.onBus = none) : l.yields nt at_ = l := by simp only [Line.yields, h]

/-- A window frame that has not started waits again. -/
theorem Line.yields_of_not_started {l : Line} {f : OnBus} {w nt at_ : Nat} (hbus : l.onBus = some f) (hrole : f.role = .window w)
    (hnt : nt < f.start) (hat : at_ ≤ f.start) : l.yields nt at_ = { l with onBus := none, txWait := some { window := w, data := f.data } } := by
  simp only [Line.yields, hbus, hrole, if_pos (And.intro hnt hat)]

/-- The transmitter of a line lets an injection start: in the hardware safe state unless it is off, and else once the line has joined a basic cycle. -/
def letsInjectionStart (s : State) (l : Line) : Prop := if s.ft.hwsafe = true then l.muted = false else l.joined = true

/-- The first queued injection goes out, on a line whose frame that has not started has given way. -/
theorem does_injectionSend {s : State} {line at_ : Nat} {l : Line} {n : NetImage} {i : InjWait} {t : List InjWait} {e : InjEntry}
    (hl : (lineOf s line).yields s.clk.nt at_ = l) (hn : s.net.image = some n) (hi : l.inj = i :: t) (he : n.injs[i.entry]? = some e)
    (hrun : s.clk.running = true) (hp : s.pwr.pstate ≠ 6) (hon : l.on = true) (hbus : l.onBus = none) (hlets : letsInjectionStart s l) :
    Does (.injectionSend line at_) s (setLine (advanceTo s at_) line { l with
      onBus := some (l.injectionFrame i.entry at_ e s.ft.hwsafe) }) := by
  have hstarts : (s.clk.running && s.pwr.pstate != 6 && l.on && l.onBus.isNone && (if s.ft.hwsafe then !l.muted else l.joined)) = true := by
    unfold letsInjectionStart at hlets
    cases hs : s.ft.hwsafe with
    | false =>
      have hjoined : l.joined = true := by simpa [hs] using hlets
      simp [hrun, hp, hon, hbus, hjoined]
    | true =>
      have hmuted : l.muted = false := by simpa [hs] using hlets
      simp [hrun, hp, hon, hbus, hmuted]
  simp only [Does, exec_injectionSend, execInjectionSend, hl, hn, hi, he, if_pos hstarts, done]

/-- Settles O24: the retry's clauses are its three answers, and an injection starts on a free line or on one whose frame gives way. -/
theorem retriesAndInjectionsAreSent : Obligations.RetriesAndInjectionsAreSent := by
  unfold Obligations.RetriesAndInjectionsAreSent
  refine ⟨fun s line window when_ n r tw t rest hn hr hc hs => fun hold hw => ?retry,
    fun s line window at_ n r w tw t rest hn hr hc hs hnt hwait hold hw hserved hwin hat hmay => ?retryInTime,
    fun s line r w at_ dur i x h => ?retryWindow,
    fun s line at_ n i t e hn hi he hrun hp hon hbus hjoined hsafe => ?injection,
    fun s line at_ w n i t e f hn hi he hrun hp hon hjoined hs hbus hrole hnt hat => ?injectionAhead, fun l entry start e safe => ?content⟩
  case retry =>
    have hwaits : RetryWaits s line when_ n r tw t rest := ⟨hn, hr, hc, hs, hold, hw⟩
    exact ⟨does_retrySend_not_served hwaits, does_retrySend_no_window hwaits, fun w => does_retrySend_sent hwaits⟩
  case retryInTime =>
    have hmax : Nat.max at_ s.clk.nt = at_ := Nat.max_eq_left hnt
    have hlapse : lapseWaiting s line r at_ (lineOf s line) = lineOf s line := lapseWaiting_of_none hwait
    have hwaits : RetryWaits s line at_ n r tw t rest := ⟨hn, hr, hc, hs, by rwa [hmax, hlapse], hw⟩
    have hsent := does_retrySend_sent (window := window) (w := w) hwaits hserved
    simp only [hmax, hlapse] at hsent
    refine ⟨_, hsent hwin hat hmay, ?_, ?_⟩
    · rw [settle_clk, setLine_clk, advanceTo_nt, Nat.max_eq_right hnt]
    · rw [lineOf_settle, lineOf_setLine_self]
  case retryWindow =>
    obtain ⟨hlater, hfits⟩ := retryWindow_eq_some h
    obtain ⟨hi, hx, hbc, hkind⟩ := mem_laterWindows hlater
    exact ⟨hi, hx, hbc, hkind, hfits⟩
  case injection =>
    refine does_injectionSend (Line.yields_of_free _ _ hbus) hn hi he hrun hp hon hbus ?_
    unfold letsInjectionStart
    split
    · next hs =>
      obtain ⟨hsent, htherm, hgsup, hdom⟩ := hsafe hs
      simp [Line.muted, hsent, htherm, hgsup, hdom]
    · next hs => exact hjoined (by simpa using hs)
  case injectionAhead =>
    have hlets : letsInjectionStart s { lineOf s line with onBus := none, txWait := some { window := w, data := f.data } } := by
      simp [letsInjectionStart, hs, hjoined]
    have hdoes := does_injectionSend (Line.yields_of_not_started hbus hrole hnt hat) hn hi he hrun hp hon rfl hlets
    rw [hs] at hdoes
    exact hdoes
  case content => rfl

end Sys2Proof.Machine
end

section
/-! PROOFS. Releases of tasks: what a release takes from the cycle, what time, publications and faults leave of it, the execution that a release starts or skips, and O18 assembled from them. -/
namespace Sys2Proof.Machine

/-! Task runs by number. -/

@[simp] theorem taskRun_onTask_self (s : State) (t : Nat) (f : TaskRun → TaskRun) : taskRun (onTask s t f) t = f (taskRun s t) := by
  unfold taskRun onTask
  split
  · rfl
  · split <;> rfl

theorem taskRun_onTask_ne (s : State) {t u : Nat} (f : TaskRun → TaskRun) (ht : t ≤ 2) (hu : u ≤ 2) (h : u ≠ t) :
    taskRun (onTask s t f) u = taskRun s u := by
  have hcases : t = 0 ∨ t = 1 ∨ t = 2 := by omega
  unfold taskRun onTask
  rcases hcases with rfl | rfl | rfl
  · simp [h]
  · split
    · rfl
    · simp
  · have : u = 0 ∨ u = 1 := by omega
    rcases this with rfl | rfl <;> rfl

theorem onTask_onTask (s : State) (t : Nat) (f g : TaskRun → TaskRun) : onTask (onTask s t f) t g = onTask s t (fun r => g (f r)) := by
  unfold onTask
  split
  · rfl
  · split <;> rfl

/-- A change of a task's run changes no other part of the cycle engine. -/
theorem onTask_ce (s : State) (t : Nat) (f : TaskRun → TaskRun) : (onTask s t f).ce = { s.ce with
    fast := (onTask s t f).ce.fast, network := (onTask s t f).ce.network, slow := (onTask s t f).ce.slow } := by
  unfold onTask
  split
  · rfl
  · split <;> rfl

/-! What a release takes from the cycle: its instants, the cycle that is replayed, the inputs, the active program. -/

/-- Both states stand in the same cycle of the same program: releases fall on the same instants and latch the same inputs. -/
structure SameCycle (s u : State) : Prop where
  t0 : u.clk.t0 = s.clk.t0
  base : u.clk.base = s.clk.base
  k : u.clk.k = s.clk.k
  net : u.net = s.net
  vn : u.vn = s.vn
  rp : u.rp = s.rp
  prog : activeProg u = activeProg s

namespace SameCycle

variable {s u v : State}

theorem trans (h : SameCycle s u) (g : SameCycle u v) : SameCycle s v :=
  ⟨g.t0.trans h.t0, g.base.trans h.base, g.k.trans h.k, g.net.trans h.net, g.vn.trans h.vn, g.rp.trans h.rp, g.prog.trans h.prog⟩

theorem boundaryNt (h : SameCycle s u) (k : Nat) : boundaryNt u k = boundaryNt s k := by
  simp only [Machine.boundaryNt, cycleLen, h.t0, h.base, h.net]

theorem cycleStart (h : SameCycle s u) : cycleStart u = cycleStart s := by
  rw [Machine.cycleStart, h.boundaryNt, h.k, Machine.cycleStart]

theorem relCycle (h : SameCycle s u) : relCycle u = relCycle s := by simp only [Machine.relCycle, mcc, h.rp, h.k]

theorem relStart (h : SameCycle s u) : relStart u = relStart s := by simp only [Machine.relStart, h.rp, h.cycleStart]

theorem slowDue (h : SameCycle s u) (p : ProgImage) : slowDue u p = slowDue s p := by simp only [Machine.slowDue, h.relCycle]

end SameCycle

theorem activeProg_of_ce {s u : State} (hact : u.ce.active = s.ce.active) (ha : u.ce.slotA.img = s.ce.slotA.img)
    (hb : u.ce.slotB.img = s.ce.slotB.img) : activeProg u = activeProg s := by
  simp only [activeProg, activeSlot, hact, apply_ite ProgSlot.img, ha, hb]

/-! Time, a swap that completes, and publications (05 R131, R138). -/

/-- Time that passes counts in the idle counters of the cycle engine alone. -/
theorem advanceTo_ce (s : State) (t : Nat) : (advanceTo s t).ce = { s.ce with idle := (advanceTo s t).ce.idle } := by
  unfold advanceTo
  split <;> rfl

theorem sameCycle_advanceTo (s : State) (t : Nat) : SameCycle s (advanceTo s t) := by
  refine ⟨?_, ?_, ?_, advanceTo_net s t, advanceTo_vn s t, advanceTo_rp s t, ?_⟩
  iterate 3 rw [advanceTo_clk]
  apply activeProg_of_ce <;> rw [advanceTo_ce]

theorem taskRun_advanceTo (s : State) (t u : Nat) : taskRun (advanceTo s t) u = taskRun s u := by
  rw [taskRun, advanceTo_ce]
  rfl

/-- A swap that completes answers its mailbox and is gone. -/
theorem swapCompletes_frame (s : State) : swapCompletes s = { s with
    ce := { s.ce with swap := (swapCompletes s).ce.swap }, mb := (swapCompletes s).mb } := by
  unfold swapCompletes
  split
  · split <;> rfl
  · rfl

theorem sameCycle_swapCompletes (s : State) : SameCycle s (swapCompletes s) := by
  rw [swapCompletes_frame]
  exact ⟨rfl, rfl, rfl, rfl, rfl, rfl, rfl⟩

theorem taskRun_swapCompletes (s : State) (u : Nat) : taskRun (swapCompletes s) u = taskRun s u := by
  rw [swapCompletes_frame]
  rfl

/-- A new area of the active slot changes the two slots alone. -/
theorem setActiveArea_ce (s : State) (a : NMap Word) : (setActiveArea s a).ce = { s.ce with
    slotA := (setActiveArea s a).ce.slotA, slotB := (setActiveArea s a).ce.slotB } := by
  unfold setActiveArea setProgSlot
  dsimp only
  split <;> rfl

theorem activeProg_setActiveArea (s : State) (a : NMap Word) : activeProg (setActiveArea s a) = activeProg s := by
  unfold setActiveArea setProgSlot progSlot activeProg activeSlot
  dsimp only
  by_cases h : s.ce.active = 0 <;> simp [h]

theorem taskRun_setActiveArea (s : State) (a : NMap Word) (u : Nat) : taskRun (setActiveArea s a) u = taskRun s u := by
  rw [taskRun, setActiveArea_ce]
  rfl

theorem sameCycle_setActiveArea (s : State) (a : NMap Word) : SameCycle s (setActiveArea s a) :=
  ⟨rfl, rfl, rfl, rfl, rfl, rfl, activeProg_setActiveArea s a⟩

theorem sameCycle_onTask (s : State) (t : Nat) (f : TaskRun → TaskRun) : SameCycle s (onTask s t f) := by
  refine ⟨rfl, rfl, rfl, rfl, rfl, rfl, ?_⟩
  apply activeProg_of_ce <;> rw [onTask_ce]

/-- A publication changes the exported words of the active program; that of the SLOW task ends the lateness of its outputs. -/
theorem publishTask_cases (s : State) (t : Nat) : publishTask s t = s ∨ ∃ a, publishTask s t = setActiveArea s a ∨
    t = 2 ∧ publishTask s t = onTask (setActiveArea s a) 2 (fun r => { r with late := false }) := by
  unfold publishTask
  dsimp only
  split
  · exact .inl rfl
  · split
    · split
      · next h => exact .inr ⟨_, .inr ⟨h, rfl⟩⟩
      · exact .inr ⟨_, .inl rfl⟩
    · exact .inl rfl

theorem sameCycle_publishTask (s : State) (t : Nat) : SameCycle s (publishTask s t) := by
  obtain h | ⟨a, h | ⟨-, h⟩⟩ := publishTask_cases s t <;> rw [h]
  · exact ⟨rfl, rfl, rfl, rfl, rfl, rfl, rfl⟩
  · exact sameCycle_setActiveArea s a
  · exact (sameCycle_setActiveArea s a).trans (sameCycle_onTask ..)

/-- A publication keeps every task's run but for the lateness of the SLOW task's outputs. -/
theorem taskRun_publishTask (s : State) (t : Nat) {u : Nat} (hu : u ≤ 1) : taskRun (publishTask s t) u = taskRun s u := by
  obtain h | ⟨a, h | ⟨-, h⟩⟩ := publishTask_cases s t <;> rw [h]
  · exact taskRun_setActiveArea s a u
  · rw [taskRun_onTask_ne _ _ (Nat.le_refl _) (by omega) (by omega), taskRun_setActiveArea]

theorem exec_publishTask (s : State) (t u : Nat) (hu : u ≤ 2) : (taskRun (publishTask s t) u).exec = (taskRun s u).exec := by
  obtain h | ⟨a, h | ⟨-, h⟩⟩ := publishTask_cases s t <;> rw [h]
  · rw [taskRun_setActiveArea]
  · by_cases h2 : u = 2
    · rw [h2, taskRun_onTask_self, taskRun_setActiveArea]
    · rw [taskRun_onTask_ne _ _ (Nat.le_refl _) hu h2, taskRun_setActiveArea]

/-- The publications at Tk + 250 µs: of the FAST, the NETWORK and, where it is due, the SLOW task's exports. -/
def publishAll (s : State) : State :=
  let u := publishTask (publishTask s 0) 1
  match activeProg u with
  | some p => if slowDue u p then publishTask u 2 else u
  | none => u

/-- What is due at an instant is published there once. -/
theorem publishDue_eq (s : State) (t : Nat) : publishDue s t =
    if s.ce.pubNt = some t then s else { publishAll s with ce := { (publishAll s).ce with pubNt := some t } } := rfl

/-- What every publication keeps, the publications of an instant keep. -/
theorem publishAll_keeps {P : State → Prop} {s : State} (h : P s) (hkeep : ∀ u t, P u → P (publishTask u t)) : P (publishAll s) := by
  have h01 := hkeep _ 1 (hkeep _ 0 h)
  unfold publishAll
  dsimp only
  split
  · split
    · exact hkeep _ 2 h01
    · exact h01
  · exact h01

@[simp] theorem publishDue_pubNt (s : State) (t : Nat) : (publishDue s t).ce.pubNt = some t := by
  rw [publishDue_eq]
  split
  · assumption
  · rfl

theorem sameCycle_publishDue (s : State) (t : Nat) : SameCycle s (publishDue s t) := by
  have hall : SameCycle s (publishAll s) :=
    publishAll_keeps ⟨rfl, rfl, rfl, rfl, rfl, rfl, rfl⟩ (fun u t h => h.trans (sameCycle_publishTask u t))
  rw [publishDue_eq]
  split
  · exact ⟨rfl, rfl, rfl, rfl, rfl, rfl, rfl⟩
  · exact hall.trans ⟨rfl, rfl, rfl, rfl, rfl, rfl, rfl⟩

theorem taskRun_publishDue (s : State) (t : Nat) {u : Nat} (hu : u ≤ 1) : taskRun (publishDue s t) u = taskRun s u := by
  have hall : taskRun (publishAll s) u = taskRun s u :=
    publishAll_keeps (P := fun v => taskRun v u = taskRun s u) rfl (fun v t h => (taskRun_publishTask v t hu).trans h)
  rw [publishDue_eq]
  split
  · rfl
  · exact hall

theorem exec_publishDue (s : State) (t : Nat) {u : Nat} (hu : u ≤ 2) : (taskRun (publishDue s t) u).exec = (taskRun s u).exec := by
  have hall : (taskRun (publishAll s) u).exec = (taskRun s u).exec :=
    publishAll_keeps (P := fun v => (taskRun v u).exec = (taskRun s u).exec) rfl (fun v t h => (exec_publishTask v t u hu).trans h)
  rw [publishDue_eq]
  split
  · rfl
  · exact hall

/-! A fault that is raised (09 R276 to R278). -/

@[simp] theorem setPstate_ce (s : State) (p : Nat) : (setPstate s p).ce = s.ce := by unfold setPstate; split <;> rfl

@[simp] theorem pendClass_ce (s : State) (cls : Nat) : (pendClass s cls).ce = s.ce := by unfold pendClass; split <;> rfl

@[simp] theorem countFault_ce (s : State) (code cls : Nat) : (countFault s code cls).ce = s.ce := rfl

@[simp] theorem enqueueFault_ce (s : State) (f : FaultItem) : (enqueueFault s f).ce = s.ce := by
  unfold enqueueFault
  split
  · rfl
  · split
    · rfl
    · split
      · rfl
      · split <;> rfl

/-- The entry into the hardware safe state drops a swap that waits, and changes nothing else of the cycle engine. -/
theorem enterHwSafe_ce (s : State) (cause : Nat) : ∃ x, (enterHwSafe s cause).ce = { s.ce with swap := x } := by
  unfold enterHwSafe
  split
  · exact ⟨_, rfl⟩
  · refine ⟨none, ?_⟩
    dsimp only
    cases s.net.image <;> simp [dropWork, endActivities, apply_ite State.ce]

/-- A fault that is raised can drop a swap that waits, and changes nothing else of the cycle engine. -/
theorem raiseFault_ce (s : State) (code cls source : Nat) (words : List Word) :
    ∃ x, (raiseFault s code cls source words).ce = { s.ce with swap := x } := by
  have henter (cause : Nat) : ∃ x, (enterHwSafe (pendClass (countFault s code cls) cls) cause).ce = { s.ce with swap := x } := by
    simpa using enterHwSafe_ce (pendClass (countFault s code cls) cls) cause
  unfold raiseFault raiseFaultAt
  split
  · exact ⟨_, rfl⟩
  · dsimp only
    split
    · exact ⟨_, rfl⟩
    · split
      · exact henter _
      · split
        · exact henter 6
        · exact ⟨s.ce.swap, by simp [apply_ite State.ce]⟩

/-! A task that has come to its end (05 R134). -/

/-- The end of a task changes that task's run alone. -/
theorem settleTask_cases (s : State) (t : Nat) : settleTask s t = s ∨ ∃ f, settleTask s t = onTask s t f := by
  unfold settleTask
  split
  · split
    · unfold completeTask
      exact .inr ⟨_, rfl⟩
    · exact .inl rfl
  · exact .inl rfl

theorem sameCycle_settleTask (s : State) (t : Nat) : SameCycle s (settleTask s t) := by
  obtain h | ⟨f, h⟩ := settleTask_cases s t <;> rw [h]
  · exact ⟨rfl, rfl, rfl, rfl, rfl, rfl, rfl⟩
  · exact sameCycle_onTask s t f

theorem taskRun_settleTask_ne (s : State) {t u : Nat} (ht : t ≤ 2) (hu : u ≤ 2) (h : u ≠ t) : taskRun (settleTask s t) u = taskRun s u := by
  obtain hs | ⟨f, hs⟩ := settleTask_cases s t <;> rw [hs]
  exact taskRun_onTask_ne s f ht hu h

@[simp] theorem onTask_pubNt (s : State) (t : Nat) (f : TaskRun → TaskRun) : (onTask s t f).ce.pubNt = s.ce.pubNt := by rw [onTask_ce]

@[simp] theorem settleTask_pubNt (s : State) (t : Nat) : (settleTask s t).ce.pubNt = s.ce.pubNt := by
  obtain h | ⟨f, h⟩ := settleTask_cases s t <;> rw [h]
  exact onTask_pubNt s t f

/-- An execution of which a core has entries to go is not at its end. -/
theorem settleTask_of_busy {s : State} {t c : Nat} {p : ProgImage} {e : Exec} (hp : activeProg s = some p)
    (he : (taskRun s t).exec = some e) (hc : c ∈ p.cores t) (hbusy : coreBusyIn p t e c = true) : settleTask s t = s := by
  have hnot : ¬ (p.cores t).all (fun c => !coreBusyIn p t e c) = true := by
    intro hall
    simpa [hbusy] using List.all_eq_true.mp hall c hc
  simp only [settleTask, he, hp, if_neg hnot]

/-! A release that is skipped (05 R142). -/

/-- What a skipped release makes of its task's run: an overrun in the statistics, and one release more that the execution has missed. -/
def TaskRun.overrun (r : TaskRun) : TaskRun :=
  { r with stat := r.stat.instant true, exec := r.exec.map (fun e => { e with skipped := e.skipped + 1, missed := true }) }

@[simp] theorem dropSnapshots_ce (s : State) (t : Nat) : (dropSnapshots s t).ce = s.ce := by unfold dropSnapshots; split <;> rfl

/-- A skipped release counts in its task's run, and its fault can drop a swap that waits. -/
theorem skipRelease_ce (s : State) (t : Nat) : ∃ x, (skipRelease s t).ce = { (onTask s t TaskRun.overrun).ce with swap := x } := by
  have hrun : (onTask (dropSnapshots s t) t TaskRun.overrun).ce = (onTask s t TaskRun.overrun).ce := by simp only [onTask, dropSnapshots_ce]
  rw [← hrun]
  unfold skipRelease
  dsimp only
  split
  · exact raiseFault_ce ..
  · exact ⟨_, rfl⟩

theorem taskRun_skipRelease (s : State) (t u : Nat) : taskRun (skipRelease s t) u = taskRun (onTask s t TaskRun.overrun) u := by
  obtain ⟨x, h⟩ := skipRelease_ce s t
  rw [taskRun, h]
  rfl

@[simp] theorem skipRelease_pubNt (s : State) (t : Nat) : (skipRelease s t).ce.pubNt = s.ce.pubNt := by
  obtain ⟨x, h⟩ := skipRelease_ce s t
  rw [h]
  exact onTask_pubNt ..

/-! A release (05 R129, R140, R142). -/

/-- The run of a task whose release has come: the release is counted, and the outputs of a late NETWORK execution have been exchanged. -/
def TaskRun.released (t : Nat) (r : TaskRun) : TaskRun := { r with nextRel := r.nextRel + 1, late := if t = 1 then false else r.late }

/-- The execution that a release of task `t`, with run `r`, starts. -/
def startedExec (s : State) (r : TaskRun) (p : ProgImage) (t offset deadline : Nat) : Exec :=
  { start := relStart s + offset, cycle := relCycle s, release := s.clk.nt, deadline := deadline
    dt := match r.prevStart with | some x => relStart s + offset - x | none => 0
    pos := [0, 0, 0, 0], snap := takeSnap p (activeSlot s).area t
    di := match s.rp.cycle with | some x => nth 0 x.dis r.nextRel | none => s.vn.diFilt
    skipped := 0, missed := false, tick := s.ce.latchTick, valid := s.ce.latchValid, beyond := s.ce.latchBeyond
    pubs := s.sv.slots.map (fun x => x.pub), view := none }

/-- The run of a task as an execution starts. -/
def TaskRun.started (r : TaskRun) (e : Exec) : TaskRun :=
  { r with exec := some e, prevStart := some e.start, stat := { r.stat.instant false with started := wrap32 (r.stat.started + 1) } }

/-- A release that comes while an execution of its task is in progress, or output of a late one waits to be exchanged, is skipped. -/
theorem releaseTask_of_running {s : State} {t : Nat} (p : ProgImage) (offset deadline : Nat)
    (h : (taskRun s t).exec.isSome = true ∨ t = 1 ∧ (taskRun s t).late = true) :
    releaseTask s p t offset deadline = skipRelease (onTask s t (TaskRun.released t)) t := by
  have hskip : ((taskRun s t).exec.isSome || (t == 1 && (taskRun s t).late)) = true := by simpa using h
  simp only [releaseTask, hskip, if_true]
  rfl

/-- What an execution starts with does not depend on the runs of the tasks. -/
theorem startedExec_onTask (s : State) (u : Nat) (f : TaskRun → TaskRun) (r : TaskRun) (p : ProgImage) (t offset deadline : Nat) :
    startedExec (onTask s u f) r p t offset deadline = startedExec s r p t offset deadline := by
  have hsame := sameCycle_onTask s u f
  have hslot : activeSlot (onTask s u f) = activeSlot s := by
    rw [activeSlot, onTask_ce]
    rfl
  have htick : (onTask s u f).ce.latchTick = s.ce.latchTick := by rw [onTask_ce]
  have hvalid : (onTask s u f).ce.latchValid = s.ce.latchValid := by rw [onTask_ce]
  have hbeyond : (onTask s u f).ce.latchBeyond = s.ce.latchBeyond := by rw [onTask_ce]
  simp only [startedExec, hsame.relStart, hsame.relCycle, hslot, htick, hvalid, hbeyond, onTask_clk, onTask_rp, onTask_vn, onTask_sv]

/-- Any other release starts an execution, which is at its end where its lists are empty. -/
theorem releaseTask_of_free {s : State} {t : Nat} (p : ProgImage) (offset deadline : Nat)
    (he : (taskRun s t).exec = none) (hl : t = 1 → (taskRun s t).late = false) :
    releaseTask s p t offset deadline =
      settleTask (onTask s t (fun r => (r.released t).started (startedExec s (taskRun s t) p t offset deadline))) t := by
  have hskip : ((taskRun s t).exec.isSome || (t == 1 && (taskRun s t).late)) = false := by simpa [he] using hl
  have hrelease : releaseTask s p t offset deadline =
      settleTask (onTask (onTask s t (TaskRun.released t)) t
        (fun r => r.started (startedExec (onTask s t (TaskRun.released t)) (taskRun s t) p t offset deadline))) t := by
    simp only [releaseTask, hskip, Bool.false_eq_true, if_false]
    rfl
  rw [hrelease, startedExec_onTask, onTask_onTask]

/-- A release that can start an execution of a task with entries leaves the execution running. -/
theorem taskRun_releaseTask_of_free {s : State} {t c : Nat} {p : ProgImage} (offset deadline : Nat) (hp : activeProg s = some p)
    (he : (taskRun s t).exec = none) (hl : t = 1 → (taskRun s t).late = false) (hc : c ∈ p.cores t) (hlist : p.coreList t c ≠ []) :
    taskRun (releaseTask s p t offset deadline) t =
      ((taskRun s t).released t).started (startedExec s (taskRun s t) p t offset deadline) := by
  have hbusy : coreBusyIn p t (startedExec s (taskRun s t) p t offset deadline) c = true := by
    have hpos : nth 0 [0, 0, 0, 0] c = 0 := by
      rw [nth, show [0, 0, 0, 0] = List.replicate 4 0 from rfl, List.getElem?_replicate]
      split <;> rfl
    rw [coreBusyIn, startedExec, hpos, decide_eq_true_eq, List.length_pos_iff]
    exact hlist
  rw [releaseTask_of_free p offset deadline he hl,
    settleTask_of_busy ((sameCycle_onTask ..).prog.trans hp) (by rw [taskRun_onTask_self]; rfl) hc hbusy, taskRun_onTask_self]

/-- A release that can start an execution leaves the cycle as it is. -/
theorem sameCycle_releaseTask_of_free {s : State} {t : Nat} (p : ProgImage) (offset deadline : Nat)
    (he : (taskRun s t).exec = none) (hl : t = 1 → (taskRun s t).late = false) : SameCycle s (releaseTask s p t offset deadline) := by
  rw [releaseTask_of_free p offset deadline he hl]
  exact (sameCycle_onTask ..).trans (sameCycle_settleTask ..)

/-- A release of a task keeps the runs of the others, skipped or not. -/
theorem taskRun_releaseTask_ne (s : State) {t u : Nat} (p : ProgImage) (offset deadline : Nat) (ht : t ≤ 2) (hu : u ≤ 2) (h : u ≠ t) :
    taskRun (releaseTask s p t offset deadline) u = taskRun s u := by
  by_cases hskip : (taskRun s t).exec.isSome = true ∨ t = 1 ∧ (taskRun s t).late = true
  · rw [releaseTask_of_running p offset deadline hskip, taskRun_skipRelease, taskRun_onTask_ne _ _ ht hu h, taskRun_onTask_ne _ _ ht hu h]
  · obtain ⟨he, hl⟩ : (taskRun s t).exec = none ∧ (t = 1 → (taskRun s t).late = false) := by simpa using hskip
    rw [releaseTask_of_free p offset deadline he hl, taskRun_settleTask_ne _ ht hu h, taskRun_onTask_ne _ _ ht hu h]

@[simp] theorem releaseTask_pubNt (s : State) (p : ProgImage) (t offset deadline : Nat) :
    (releaseTask s p t offset deadline).ce.pubNt = s.ce.pubNt := by
  by_cases hskip : (taskRun s t).exec.isSome = true ∨ t = 1 ∧ (taskRun s t).late = true
  · rw [releaseTask_of_running p offset deadline hskip, skipRelease_pubNt, onTask_pubNt]
  · obtain ⟨he, hl⟩ : (taskRun s t).exec = none ∧ (t = 1 → (taskRun s t).late = false) := by simpa using hskip
    rw [releaseTask_of_free p offset deadline he hl, settleTask_pubNt, onTask_pubNt]

/-! The releases of a cycle (05 R129, R131, R138). -/

/-- The module at Tk + 250 µs, with a swap that has taken place completed and the exports published. -/
def atPublication (s : State) : State := publishDue (swapCompletes (advanceTo s (cycleStart s + 250))) (cycleStart s + 250)

/-- The release of the NETWORK task there, where the program has one. -/
def networkReleased (s : State) (p : ProgImage) : State :=
  if p.present 1 then releaseTask s p 1 250 (boundaryNt s (s.clk.k + 1)) else onTask s 1 (fun r => { r with nextRel := 1 })

/-- The release of the SLOW task there, in the cycles in which it is due. -/
def slowReleased (s : State) (p : ProgImage) : State :=
  if slowDue s p then releaseTask s p 2 250 (boundaryNt s (s.clk.k + p.slowFactor)) else s

theorem does_networkRelease {s : State} {p : ProgImage} (hrel : releases s = true) (hnext : s.ce.network.nextRel = 0)
    (hp : activeProg (atPublication s) = some p) :
    Does .networkRelease s (slowReleased (networkReleased (atPublication s) p) p) := by
  unfold atPublication at *
  simp only [Does, exec_networkRelease, execNetworkRelease, hrel, hnext, hp, Bool.not_true, bne_self_eq_false, Bool.or_self,
    Bool.false_eq_true, if_false, done]
  rfl

/-- The module at the next FAST release instant, with what is due there published: all exports at the first of a cycle, the FAST task's at the others. -/
def atFastRelease (s : State) (p : ProgImage) : State :=
  let t := cycleStart s + (250 + s.ce.fast.nextRel * p.fastPeriod)
  if s.ce.fast.nextRel = 0 then publishDue (advanceTo s t) t else publishTask (advanceTo s t) 0

theorem does_fastRelease {s : State} {p : ProgImage} (hp : activeProg s = some p) (hrel : releases s = true)
    (hnext : s.ce.fast.nextRel < fastReleases s p) :
    let off := 250 + s.ce.fast.nextRel * p.fastPeriod
    Does .fastRelease s (releaseTask (atFastRelease s p) p 0 off
      (Nat.min (cycleStart s + off + p.fastPeriod) (boundaryNt (atFastRelease s p) ((atFastRelease s p).clk.k + 1)))) := by
  have hdue : (!releases s || decide (fastReleases s p ≤ s.ce.fast.nextRel)) = false := by simp [hrel, hnext]
  simp only [Does, exec_fastRelease, execFastRelease, hp, hdue, Bool.false_eq_true, if_false, done]
  rfl

theorem sameCycle_atPublication (s : State) : SameCycle s (atPublication s) :=
  ((sameCycle_advanceTo ..).trans (sameCycle_swapCompletes _)).trans (sameCycle_publishDue ..)

theorem taskRun_atPublication (s : State) {u : Nat} (hu : u ≤ 1) : taskRun (atPublication s) u = taskRun s u := by
  rw [atPublication, taskRun_publishDue _ _ hu, taskRun_swapCompletes, taskRun_advanceTo]

theorem exec_atPublication (s : State) {u : Nat} (hu : u ≤ 2) : (taskRun (atPublication s) u).exec = (taskRun s u).exec := by
  rw [atPublication, exec_publishDue _ _ hu, taskRun_swapCompletes, taskRun_advanceTo]

theorem sameCycle_atFastRelease (s : State) (p : ProgImage) : SameCycle s (atFastRelease s p) := by
  unfold atFastRelease
  dsimp only
  split
  · exact (sameCycle_advanceTo ..).trans (sameCycle_publishDue ..)
  · exact (sameCycle_advanceTo ..).trans (sameCycle_publishTask ..)

theorem taskRun_atFastRelease (s : State) (p : ProgImage) : taskRun (atFastRelease s p) 0 = taskRun s 0 := by
  unfold atFastRelease
  dsimp only
  split
  · rw [taskRun_publishDue _ _ (Nat.zero_le 1), taskRun_advanceTo]
  · rw [taskRun_publishTask _ _ (Nat.zero_le 1), taskRun_advanceTo]

theorem networkReleased_of_present {s : State} {p : ProgImage} (h : p.present 1 = true) :
    networkReleased s p = releaseTask s p 1 250 (boundaryNt s (s.clk.k + 1)) := if_pos h

theorem slowReleased_of_due {s : State} {p : ProgImage} (h : slowDue s p = true) :
    slowReleased s p = releaseTask s p 2 250 (boundaryNt s (s.clk.k + p.slowFactor)) := if_pos h

theorem slowReleased_of_not_due {s : State} {p : ProgImage} (h : slowDue s p = false) : slowReleased s p = s :=
  if_neg (ne_true_of_eq_false h)

theorem sameCycle_networkReleased {s : State} (p : ProgImage) (he : s.ce.network.exec = none) (hl : s.ce.network.late = false) :
    SameCycle s (networkReleased s p) := by
  unfold networkReleased
  split
  · exact sameCycle_releaseTask_of_free p _ _ he (fun _ => hl)
  · exact sameCycle_onTask ..

theorem sameCycle_networkReleased_atPublication {s : State} (p : ProgImage) (he : s.ce.network.exec = none) (hl : s.ce.network.late = false) :
    SameCycle (atPublication s) (networkReleased (atPublication s) p) := by
  have hrun : (atPublication s).ce.network = s.ce.network := taskRun_atPublication s (Nat.le_refl _)
  exact sameCycle_networkReleased p (hrun ▸ he) (hrun ▸ hl)

theorem slow_networkReleased (s : State) (p : ProgImage) : (networkReleased s p).ce.slow = s.ce.slow := by
  unfold networkReleased
  split
  · exact taskRun_releaseTask_ne s (t := 1) (u := 2) p _ _ (by decide) (Nat.le_refl _) (by decide)
  · rfl

theorem network_slowReleased (s : State) (p : ProgImage) : (slowReleased s p).ce.network = s.ce.network := by
  unfold slowReleased
  split
  · exact taskRun_releaseTask_ne s (t := 2) (u := 1) p _ _ (Nat.le_refl _) (by decide) (by decide)
  · rfl

theorem pubNt_networkReleased (s : State) (p : ProgImage) : (networkReleased s p).ce.pubNt = s.ce.pubNt := by
  unfold networkReleased
  split
  · exact releaseTask_pubNt ..
  · rfl

theorem pubNt_slowReleased (s : State) (p : ProgImage) : (slowReleased s p).ce.pubNt = s.ce.pubNt := by
  unfold slowReleased
  split
  · exact releaseTask_pubNt ..
  · rfl

/-! The runs of the tasks after their releases. -/

section
variable {s : State} {p : ProgImage} {c : Nat}

theorem network_after_networkRelease (hp : activeProg s = some p) (hpres : p.present 1 = true) (he : s.ce.network.exec = none)
    (hl : s.ce.network.late = false) (hc : c ∈ p.cores 1) (hlist : p.coreList 1 c ≠ []) :
    (slowReleased (networkReleased (atPublication s) p) p).ce.network = (s.ce.network.released 1).started
      (startedExec (atPublication s) s.ce.network p 1 250 (boundaryNt s (s.clk.k + 1))) := by
  have hsame := sameCycle_atPublication s
  have hrun : taskRun (atPublication s) 1 = s.ce.network := taskRun_atPublication s (Nat.le_refl _)
  rw [network_slowReleased, networkReleased_of_present hpres, hsame.boundaryNt, hsame.k, ← hrun]
  exact taskRun_releaseTask_of_free _ _ (hsame.prog.trans hp) (hrun ▸ he) (fun _ => hrun ▸ hl) hc hlist

theorem slow_after_networkRelease (hp : activeProg s = some p) (hdue : slowDue s p = true) (he : s.ce.network.exec = none)
    (hl : s.ce.network.late = false) (hes : s.ce.slow.exec = none) (hc : c ∈ p.cores 2) (hlist : p.coreList 2 c ≠ []) :
    let u := networkReleased (atPublication s) p
    (slowReleased u p).ce.slow = (u.ce.slow.released 2).started
      (startedExec u u.ce.slow p 2 250 (boundaryNt s (s.clk.k + p.slowFactor))) := by
  intro u
  have hsame : SameCycle s u := (sameCycle_atPublication s).trans (sameCycle_networkReleased_atPublication p he hl)
  have hfree : (taskRun u 2).exec = none :=
    ((congrArg TaskRun.exec (slow_networkReleased ..)).trans (exec_atPublication s (u := 2) (Nat.le_refl _))).trans hes
  rw [slowReleased_of_due ((hsame.slowDue p).trans hdue), hsame.boundaryNt, hsame.k]
  exact taskRun_releaseTask_of_free _ _ (hsame.prog.trans hp) hfree (by simp) hc hlist

theorem fast_after_fastRelease (offset : Nat) (hp : activeProg s = some p) (he : s.ce.fast.exec = none) (hc : c ∈ p.cores 0)
    (hlist : p.coreList 0 c ≠ []) :
    (releaseTask (atFastRelease s p) p 0 offset (Nat.min (cycleStart s + offset + p.fastPeriod)
      (boundaryNt (atFastRelease s p) ((atFastRelease s p).clk.k + 1)))).ce.fast = (s.ce.fast.released 0).started
      (startedExec (atFastRelease s p) s.ce.fast p 0 offset (Nat.min (cycleStart s + offset + p.fastPeriod) (boundaryNt s (s.clk.k + 1)))) := by
  have hsame := sameCycle_atFastRelease s p
  have hrun : taskRun (atFastRelease s p) 0 = s.ce.fast := taskRun_atFastRelease s p
  rw [hsame.boundaryNt, hsame.k, ← hrun]
  exact taskRun_releaseTask_of_free _ _ (hsame.prog.trans hp) (hrun ▸ he) (by simp) hc hlist

end

/-- Settles O18: a release meets the cycle's own instants, program and task runs, since time and publications leave them, and then starts or skips. -/
theorem tasksAreReleasedAtTheirInstants : Obligations.TasksAreReleasedAtTheirInstants := by
  unfold Obligations.TasksAreReleasedAtTheirInstants
  refine ⟨fun s p hrel hnext hp hpres => ⟨fun hdue => ?slowToo, fun hdue => ?networkOnly⟩, fun s p => ?slowDue,
    fun s p hp hrel hnext => does_fastRelease hp hrel hnext,
    fun s p c hrel hnext hp hpres he hl hc hlist => ?networkStarts, fun s p c hrel hnext hp hdue he hl hes hc hlist => ?slowStarts,
    fun s p c hp hrel hnext he hc hlist => ?fastStarts, fun s p offset deadline c hp he hl hc hlist => ?latches,
    fun s p e offset deadline he hrecent => ?skipped⟩
  case slowToo =>
    have hdoes := does_networkRelease hrel hnext hp
    rw [networkReleased_of_present hpres, slowReleased_of_due] at hdoes
    · exact hdoes
    · exact hdue
  case networkOnly =>
    have hdoes := does_networkRelease hrel hnext hp
    rw [networkReleased_of_present hpres, slowReleased_of_not_due] at hdoes
    · exact hdoes
    · exact hdue
  case slowDue => simp [slowDue]
  case networkStarts =>
    have hsame := sameCycle_atPublication s
    have hnetwork := (congrArg Ce.network (settle_ce _)).trans (network_after_networkRelease hp hpres he hl hc hlist)
    refine ⟨_, _, does_networkRelease hrel hnext (hsame.prog.trans hp), congrArg TaskRun.exec hnetwork, ?_, ?_, rfl, rfl, ?_, ?_, ?_⟩
    · rw [startedExec, hsame.relStart]
    · rw [startedExec, hsame.relCycle]
    · rw [hnetwork, ← Nat.zero_add 1, ← hnext]; rfl
    · rw [hnetwork, ← hsame.relStart]; rfl
    · rw [settle_ce, pubNt_slowReleased, pubNt_networkReleased, atPublication, publishDue_pubNt]
  case slowStarts =>
    have hsame := (sameCycle_atPublication s).trans (sameCycle_networkReleased_atPublication p he hl)
    have hslow := (congrArg Ce.slow (settle_ce _)).trans (slow_after_networkRelease hp hdue he hl hes hc hlist)
    refine ⟨_, _, does_networkRelease hrel hnext ((sameCycle_atPublication s).prog.trans hp), congrArg TaskRun.exec hslow, ?_, rfl⟩
    rw [startedExec, hsame.relStart]
  case fastStarts =>
    have hsame := sameCycle_atFastRelease s p
    have hfast := (congrArg Ce.fast (settle_ce _)).trans (fast_after_fastRelease (250 + s.ce.fast.nextRel * p.fastPeriod) hp he hc hlist)
    refine ⟨_, _, does_fastRelease hp hrel hnext, congrArg TaskRun.exec hfast, ?_, ?_, rfl, fun hrp => ?_,
      congrArg TaskRun.nextRel hfast, ?_⟩
    · rw [startedExec, hsame.relStart]
    · rw [startedExec, hsame.relCycle]
    · simp only [startedExec, hsame.rp, hrp, hsame.vn]
    · rw [hfast, ← hsame.relStart]; rfl
  case latches =>
    have hstarted := taskRun_releaseTask_of_free (t := 1) offset deadline hp he (fun _ => hl) hc hlist
    exact ⟨_, congrArg TaskRun.exec hstarted, rfl, rfl, rfl, rfl, rfl, rfl, congrArg TaskRun.prevStart hstarted⟩
  case skipped =>
    have hrun : taskRun (releaseTask s p 1 offset deadline) 1 = (s.ce.network.released 1).overrun := by
      have hrunning : (taskRun s 1).exec.isSome = true := Option.isSome_of_eq_some he
      rw [releaseTask_of_running p offset deadline (.inl hrunning), taskRun_skipRelease, taskRun_onTask_self,
        taskRun_onTask_self]
      rfl
    refine ⟨(congrArg TaskRun.exec hrun).trans ?_, (congrArg (fun r => r.stat.overruns) hrun :), (congrArg TaskRun.prevStart hrun :)⟩
    simp [TaskRun.overrun, TaskRun.released, he]

end Sys2Proof.Machine
end

section
/-! PROOFS. The boundary: its first steps keep the power state, its two kinds do their steps in order, and O17 assembled from them. -/
namespace Sys2Proof.Machine

/-! The steps before the power state is looked at keep it (01 Table 1-7). -/

@[simp] theorem keepView_pwr (s : State) : (keepView s).pwr = s.pwr := by
  unfold keepView
  split
  · dsimp only
    split <;> rfl
  · rfl

@[simp] theorem offerRecord_pwr (s : State) (nt cyc code cls source : Nat) (replay : Bool) (words : List Word) :
    (offerRecord s nt cyc code cls source replay words).pwr = s.pwr := by
  unfold offerRecord
  dsimp only
  split
  · rfl
  · split <;> rfl

@[simp] theorem exceptionRecord_pwr (s : State) : (exceptionRecord s).pwr = s.pwr := by
  unfold exceptionRecord
  split
  · rfl
  · split
    · exact offerRecord_pwr ..
    · exact offerRecord_pwr ..

@[simp] theorem latchPulses_pwr (s : State) : (latchPulses s).pwr = s.pwr := by
  unfold latchPulses
  refine List.foldlRecOn (motive := fun u : State => u.pwr = s.pwr) _ _ rfl (fun u hu n _ => ?_)
  split
  · exact hu
  · exact hu

/-! The two kinds of boundary. -/

/-- The closed cycle, as the boundary that ends it leaves it: what it read is kept, its exceptions are recorded, the count is one up. -/
def cycleClosed (s : State) : State :=
  let u := exceptionRecord (keepView (advanceTo s (boundaryNt s (s.clk.k + 1))))
  { u with clk := { u.clk with k := u.clk.k + 1, bc := 0 }, ce := { u.ce with exc := u.ce.excNext, excNext := 0 } }

@[simp] theorem cycleClosed_pwr (s : State) : (cycleClosed s).pwr = s.pwr :=
  (exceptionRecord_pwr _).trans ((keepView_pwr _).trans (advanceTo_pwr ..))

/-- After the closed cycle a change of the power state that is due is made; else the steps of the boundary follow. -/
theorem nextBoundary_eq (s : State) (n : NetImage) : nextBoundary s n =
    match (cycleClosed s).pwr.toState with
    | some (t, mb) => leaveRun (cycleClosed s) t mb
    | none => openCycle (replayTurn (cycleImages (latchInputs (applyRequests (cycleClosed s) n)) n) n) := by
  unfold nextBoundary cycleClosed
  rfl

/-- The module as the first cycle begins at T0: with the DI pulse counts of that instant, and no idle time counted. -/
def cyclesBegun (s : State) (t : Nat) : State :=
  let u := latchPulses (advanceTo s t)
  { u with
    clk := { u.clk with begun := true, bc := 0 }
    ce := { u.ce with idle := u.ce.idle.map (fun (x : Idle) => { x with running := 0 }) } }

theorem latchPulses_toState {s : State} (t : Nat) (h : s.pwr.toState = none) : (latchPulses (advanceTo s t)).pwr.toState = none := by
  rw [latchPulses_pwr, advanceTo_pwr, h]

/-- With no network image waiting, the requests take effect at T0 and the first cycle opens. -/
theorem firstBoundary_of_no_load {s : State} {n : NetImage} {t : Nat} (hto : s.pwr.toState = none)
    (hv : (applyRequests (latchInputs (cyclesBegun s t)) n).im.netLoad = none) :
    firstBoundary s n t = openCycle (replayTurn (applyRequests (latchInputs (cyclesBegun s t)) n) n) := by
  have hstay := latchPulses_toState t hto
  simp only [cyclesBegun] at hv
  simp only [firstBoundary, hstay, hv, Option.isSome_none, Bool.false_eq_true, if_false, cyclesBegun]

/-- A network image that waits comes into force before the first cycle opens. -/
theorem firstBoundary_of_load {s : State} {n : NetImage} {t : Nat} (hto : s.pwr.toState = none)
    (hv : (applyRequests (latchInputs (cyclesBegun s t)) n).im.netLoad.isSome = true) :
    firstBoundary s n t =
      openCycle (replayTurn (applyNetwork (applyRequests (latchInputs (cyclesBegun s t)) n)) n) := by
  have hstay := latchPulses_toState t hto
  simp only [cyclesBegun] at hv
  simp only [firstBoundary, hstay, hv, if_true, cyclesBegun]

section
variable {s : State} {n : NetImage} {t : Nat} (hn : s.net.image = some n) (ht : s.clk.t0 = some t) (hrun : inRun s = true)
  (hsafe : s.ft.hwsafe = false)
include hn ht hrun hsafe

/-- A boundary in a cycle ends the cycle. -/
theorem does_boundary_of_begun (hbegun : s.clk.begun = true) : Does .boundary s (nextBoundary s n) := by
  simp only [Does, exec_boundary, execBoundary, hn, ht, hrun, hsafe, hbegun, Bool.not_true, Bool.or_self, Bool.false_eq_true, if_false, if_true, done]

/-- The boundary at T0 begins the first cycle. -/
theorem does_boundary_of_not_begun (hbegun : s.clk.begun = false) : Does .boundary s (firstBoundary s n t) := by
  simp only [Does, exec_boundary, execBoundary, hn, ht, hrun, hsafe, hbegun, Bool.not_true, Bool.or_self, Bool.false_eq_true, if_false, done]

end

/-- The instant of a boundary of the network image in force. -/
theorem boundaryNt_of_image {s : State} {n : NetImage} {t : Nat} (hn : s.net.image = some n) (ht : s.clk.t0 = some t) (k : Nat) :
    boundaryNt s k = t + (k - s.clk.base) * n.len := by simp only [boundaryNt, cycleLen, hn, ht, Option.getD_some]

/-- Settles O17: with no change of the power state due, each kind of boundary is its steps in their order. -/
theorem boundaryClosesACycleAndOpensTheNext : Obligations.BoundaryClosesACycleAndOpensTheNext := by
  unfold Obligations.BoundaryClosesACycleAndOpensTheNext
  refine ⟨fun s n t hn ht hrun hsafe hbegun hto => ⟨?instant, ?next⟩, fun s n t hn ht hrun hsafe hbegun hto => ?first⟩
  case instant => rw [advanceTo_nt, boundaryNt_of_image hn ht]
  case next =>
    have hdoes := does_boundary_of_begun hn ht hrun hsafe hbegun
    rwa [nextBoundary_eq, cycleClosed_pwr, hto] at hdoes
  case first =>
    have hdoes := does_boundary_of_not_begun hn ht hrun hsafe hbegun
    refine ⟨fun hnone => ?_, fun hsome => ?_⟩
    · rw [firstBoundary_of_no_load hto (by simpa only [cyclesBegun] using hnone)] at hdoes
      simpa only [cyclesBegun] using hdoes
    · rw [firstBoundary_of_load hto (by simpa only [cyclesBegun] using hsome)] at hdoes
      simpa only [cyclesBegun] using hdoes

end Sys2Proof.Machine
end

section
/-! PROOFS. Deadlines, stops and barriers of tasks: where the cores of a task stand, and O19 assembled from the three commands. -/
namespace Sys2Proof.Machine

/-- The barrier at which core `c` of a task stands. -/
def standsAt (p : ProgImage) (t : Nat) (e : Exec) (c : Nat) : Option Nat :=
  match (p.coreList t c)[nth 0 e.pos c]? with
  | some (.barrier b) => some b
  | _ => none

/-- The execution with every core of the task past the entry at which it stands. -/
def pastBarrier (p : ProgImage) (t : Nat) (e : Exec) : Exec :=
  { e with pos := (p.cores t).foldl (fun pos c => setNth pos c (nth 0 pos c + 1)) e.pos }

/-- A barrier releases where all cores of the task stand at the same one. -/
theorem execBarrierRelease_of_running {s : State} {task : TaskClass} {p : ProgImage} {e : Exec} (hp : activeProg s = some p)
    (he : (taskRun s (taskNo task)).exec = some e) : execBarrierRelease task s =
      match (p.cores (taskNo task)).map (standsAt p (taskNo task) e) with
      | some b :: rest =>
        if cycling s && rest.all (fun x => x == some b) then
          done (settleTask (onTask s (taskNo task) (fun r => { r with exec := some (pastBarrier p (taskNo task) e) })) (taskNo task))
        else done s
      | _ => done s := by
  simp only [execBarrierRelease, hp, he]
  rfl

/-- A barrier at which every core of the task stands lets them all go on. -/
theorem does_barrierRelease {s : State} {task : TaskClass} {p : ProgImage} {e : Exec} {b : Nat} (hp : activeProg s = some p)
    (he : (taskRun s (taskNo task)).exec = some e) (hc : cycling s = true) (hcores : p.cores (taskNo task) ≠ [])
    (hat : ∀ c ∈ p.cores (taskNo task), standsAt p (taskNo task) e c = some b) :
    Does (.barrierRelease task) s (settleTask
      (onTask s (taskNo task) (fun r => { r with exec := some (pastBarrier p (taskNo task) e) })) (taskNo task)) := by
  obtain ⟨c, cs, hlist⟩ := List.exists_cons_of_ne_nil hcores
  rw [hlist, List.forall_mem_cons] at hat
  obtain ⟨hfirst, hothers⟩ := hat
  have hrest : (cs.map (standsAt p (taskNo task) e)).all (fun x => x == some b) = true := by simpa using hothers
  simp only [Does, exec_barrierRelease, execBarrierRelease_of_running hp he, hlist, List.map_cons, hfirst, hc, hrest, Bool.and_self, if_true, done]

/-- Settles O19: each command does what its meaning says, once its conditions hold. -/
theorem deadlineStopAndBarrier : Obligations.DeadlineStopAndBarrier := by
  unfold Obligations.DeadlineStopAndBarrier
  refine ⟨fun s task e he hmissed hc => ?deadline, fun s task e he hskipped hc => ?stop, fun s task p e b hp he hc hcores hat => ?barrier⟩
  case deadline =>
    simp only [Does, exec_taskDeadline, execTaskDeadline, he, hmissed, hc, Bool.not_true, Bool.or_self, Bool.false_eq_true, if_false, done]
  case stop =>
    have hgo : ¬ ((decide (e.skipped < 8) || !cycling s) = true) := by simpa [hc] using hskipped
    simp only [Does, exec_taskStop, execTaskStop, he, if_neg hgo, done]
  case barrier => exact does_barrierRelease hp he hc hcores (fun c hmem => by rw [standsAt, hat c hmem])

end Sys2Proof.Machine
end

section
/-! PROOFS. The swap of programs: what the retained store leaves of the cycle engine, what a swap makes of it, and O20 assembled from them. -/
namespace Sys2Proof.Machine

/-! A store of page 0 changes the retained store, and by the end of a store command its mailbox (15 R393, R400). -/

/-- Two states differ in the retained store and the mailboxes alone. -/
def StoreOnly (s u : State) : Prop := u = { s with rs := u.rs, mb := u.mb }

namespace StoreOnly

variable {s u v : State}

theorem refl (s : State) : StoreOnly s s := rfl

theorem trans (h : StoreOnly s u) (g : StoreOnly u v) : StoreOnly s v := by
  unfold StoreOnly at *
  rw [g, h]

theorem of_rs {r : Rs} (h : StoreOnly { s with rs := r } v) : StoreOnly s v := trans (u := { s with rs := r }) rfl h

theorem ce (h : StoreOnly s u) : u.ce = s.ce := by rw [h]

theorem clk (h : StoreOnly s u) : u.clk = s.clk := by rw [h]

theorem net (h : StoreOnly s u) : u.net = s.net := by rw [h]

end StoreOnly

theorem storeOnly_storeEnds (s : State) (who : StoreFor) (status : Nat) : StoreOnly s (storeEnds s who status) := by
  unfold storeEnds
  split
  · rfl
  · split <;> rfl
  · rfl

theorem storeOnly_beginStore (fuel : Nat) (s : State) : StoreOnly s (beginStore fuel s) := by
  induction fuel generalizing s with
  | zero => exact .refl s
  | succ f ih =>
    unfold beginStore
    split
    · exact .refl s
    · exact .refl s
    · next f' q t hf hqueue =>
      obtain rfl : f' = f := by omega
      split
      · split
        · exact .of_rs (ih _)
        · rfl
      · split
        · exact .of_rs (ih _)
        · rfl
      · split
        · exact .of_rs ((storeOnly_storeEnds ..).trans (ih _))
        · rfl

theorem storeOnly_kickStore (s : State) : StoreOnly s (kickStore s) := by
  unfold kickStore
  split
  · split
    · rfl
    · split
      · exact .refl s
      · exact storeOnly_beginStore _ s
  · exact .refl s

theorem storeOnly_setPage0 (s : State) (off n v : Nat) : StoreOnly s (setPage0 s off n v) := by
  unfold setPage0 ownerWrite
  split
  · rfl
  · unfold applyOwner requestStores
    exact .of_rs (storeOnly_kickStore _)

/-! The swap (05 R156 to R160). -/

/-- The module as the standby slot becomes the active one, before the time of the copy has passed. -/
def swapped (s : State) (n : NetImage) (p q : ProgImage) (x : Swap) : State :=
  let to_ := 1 - s.ce.active
  let m := (carryArea n (activeSlot s) p q).1
  let u := setPage0 (noteExcNext s 4) 0 4 to_
  let u := setProgSlot u to_ { progSlot u to_ with area := m }
  { u with ce := { u.ce with
      active := to_, inst := carryRuns p q u.ce.inst, swap := some { x with started := true }, areaWas := m
      fast := { u.ce.fast.anew with nextRel := fastReleases u q }, network := u.ce.network.anew, slow := u.ce.slow.anew
      idle := u.ce.idle.map (fun i => { i with min := 0xFFFFFFFF }) } }

/-- How long the copy of the carried data takes, in µs (05 R160). -/
def copyTime (s : State) (n : NetImage) (p q : ProgImage) : Nat :=
  (4 * (2500 + ((carryArea n (activeSlot s) p q).2 + 31) / 32) + 999) / 1000

theorem swapNow_eq (s : State) (n : NetImage) (p q : ProgImage) (x : Swap) :
    swapNow s n p q x = advanceTo (swapped s n p q x) ((swapped s n p q x).clk.nt + copyTime s n p q) := rfl

section
variable (s : State) (n : NetImage) (p q : ProgImage) (x : Swap)

theorem storeOnly_swapNoted (to_ : Nat) : StoreOnly (noteExcNext s 4) (setPage0 (noteExcNext s 4) 0 4 to_) := storeOnly_setPage0 ..

/-- The standby slot, with the carried data in its area, is the active one. -/
theorem activeSlot_swapped : activeSlot (swapped s n p q x) =
    { progSlot s (1 - s.ce.active) with area := (carryArea n (activeSlot s) p q).1 } := by
  unfold swapped activeSlot setProgSlot progSlot
  dsimp only
  rw [(storeOnly_swapNoted s _).ce, noteExcNext]
  by_cases h : 1 - s.ce.active = 0 <;> simp only [h, if_true, if_false]

/-- The swap is marked ONLINE_CHANGE for the next cycle. -/
theorem excNext_swapped : (swapped s n p q x).ce.excNext.testBit 4 = true := by
  have hset : (swapped s n p q x).ce.excNext = setBit s.ce.excNext 4 true := by
    unfold swapped setProgSlot
    dsimp only
    rw [apply_ite Ce.excNext, (storeOnly_swapNoted s _).ce, noteExcNext, ite_self]
  rw [hset, setBit, if_pos rfl, Nat.testBit_or, Bool.or_eq_true]
  exact .inr (by decide)

theorem fastNextRel_swapped : (swapped s n p q x).ce.fast.nextRel = fastReleases s q := by
  have hnet : (setPage0 (noteExcNext s 4) 0 4 (1 - s.ce.active)).net = s.net := (storeOnly_swapNoted s _).net
  show fastReleases (setProgSlot _ _ _) q = _
  simp only [fastReleases, cycleLen, setProgSlot_net, hnet]

theorem swapped_clk : (swapped s n p q x).clk = s.clk := (storeOnly_swapNoted s _).clk

end

section
variable {s : State} {x : Swap} {n : NetImage} {p q : ProgImage} (hx : s.ce.swap = some x) (hn : s.net.image = some n)
  (hp : activeProg s = some p) (hq : (progSlot s (1 - s.ce.active)).img = some q)
include hx hn hp hq

theorem does_swapStart (hready : swapReady s p x = true) : Does .swapStart s (swapNow s n p q x) := by
  simp only [Does, exec_swapStart, execSwapStart, hx, hn, hp, hq, hready, if_true, done]

theorem does_swapStart_not_ready (hready : swapReady s p x = false) : Does .swapStart s s := by
  simp only [Does, exec_swapStart, execSwapStart, hx, hn, hp, hq, hready, Bool.false_eq_true, if_false, done]

end

/-- What a swap leaves: the standby program active with its carried area, the swap begun, the change marked, the FAST releases of the cycle past, no execution, the time of the copy passed. -/
theorem swapNow_changes {s : State} (n : NetImage) (p : ProgImage) {q : ProgImage} (x : Swap) (hq : (progSlot s (1 - s.ce.active)).img = some q) :
    let t := settle (swapNow s n p q x)
    t.ce.active = 1 - s.ce.active ∧ activeProg t = some q ∧ (activeSlot t).area = (carryArea n (activeSlot s) p q).1 ∧
    t.ce.swap = some { x with started := true } ∧ t.ce.excNext.testBit 4 = true ∧ t.ce.fast.nextRel = fastReleases s q ∧
    t.ce.network.exec = none ∧ t.clk.nt = s.clk.nt + copyTime s n p q := by
  intro t
  have hce : t.ce = { (swapped s n p q x).ce with idle := t.ce.idle } := by rw [settle_ce, swapNow_eq, advanceTo_ce]
  have hslot : activeSlot t = { progSlot s (1 - s.ce.active) with area := (carryArea n (activeSlot s) p q).1 } := by
    rw [← activeSlot_swapped s n p q x, activeSlot, hce]
    rfl
  refine ⟨?_, ?_, ?_, ?_, ?_, ?_, ?_, ?_⟩
  · rw [hce]; rfl
  · rw [activeProg, hslot, hq]
  · rw [hslot]
  · rw [hce]; rfl
  · rw [hce]; exact excNext_swapped s n p q x
  · rw [hce]; exact fastNextRel_swapped s n p q x
  · rw [hce]; rfl
  · rw [settle_clk, swapNow_eq, advanceTo_nt, swapped_clk]; omega

/-- Settles O20: a swap that is ready does what `swapNow_changes` says, one that is not changes nothing, and the conditions of R158 make it ready. -/
theorem swapChangesTheActiveProgram : Obligations.SwapChangesTheActiveProgram := by
  unfold Obligations.SwapChangesTheActiveProgram
  refine ⟨fun s x n p q hx hn hp hq hready _ => ?starts, fun s x n p q hx hn hp hq hready => does_swapStart_not_ready hx hn hp hq hready,
    fun s x n p q hx hn hp hq _ hstarted hfirst hrel hpub hnet hfast hslow hlast htime => ?conditions⟩
  case starts =>
    obtain ⟨hact, hprog, harea, hswap, -⟩ := swapNow_changes n p x hq
    exact ⟨_, does_swapStart hx hn hp hq hready, hact, hprog, harea, hswap⟩
  case conditions =>
    have hready : swapReady s p x = true := by simp [swapReady, hstarted, hfirst, hrel, hpub, hnet, hfast, hslow, hlast, htime]
    exact ⟨_, does_swapStart hx hn hp hq hready, swapNow_changes n p x hq⟩

end Sys2Proof.Machine
end

section
/-! PROOFS. The cycle engine's mailbox commands: O43. -/
namespace Sys2Proof.Machine

/-- An activity that starts takes no time. -/
theorem maStart_clk (s : State) (no object : Nat) : (maStart s no object).clk = s.clk := by
  rw [maStart, maRecord, record_frame]

/-- Settles O43: each command is the run of its meaning on a mailbox that is taken, and each clause one branch of that meaning. -/
theorem cycleEngineCommandsAnswer : Obligations.CycleEngineCommandsAnswer := by
  unfold Obligations.CycleEngineCommandsAnswer
  refine ⟨fun s mb h => ?status,
    fun s mb h => ⟨fun hx => ?swapBusy, fun hx hcol => ?swapCollides, fun hx hfree hno => ?swapNoProgram,
      fun n p hx hfree hn hp => ⟨fun hq => ?swapBadStandby, fun q y hq hy => ?swapNotCarried, fun q hq hall => ?swapAccepted⟩⟩,
    fun s mb h => ⟨fun hx => ?cancelNone, fun x hx hstarted => ?cancelStarted, fun x hx hwaits => ?cancelled⟩,
    fun s mb h => ⟨fun hv => ?varUnknown, fun v hv => ⟨fun hbad => ?varRange, fun hpos hmax hlen => ?varRead⟩⟩⟩
  case status => exact does_of_taken h (exec_ceStatus mb s) rfl
  case swapBusy => exact refuses_of_taken (status := stBusy) h (exec_ceSwap mb s) (if_pos hx)
  case swapCollides => exact refuses_of_taken (status := stConflict) h (exec_ceSwap mb s) (by simp [hx, hcol])
  case swapNoProgram =>
    refine refuses_of_taken (status := stBadImage) h (exec_ceSwap mb s) ?_
    rcases hno with hn | hp
    · simp [hx, hfree, hn]
    · cases hn : s.net.image <;> simp [hx, hfree, hp]
  case swapBadStandby => exact refuses_of_taken (status := stBadImage) h (exec_ceSwap mb s) (by simp [hx, hfree, hn, hp, hq])
  case swapNotCarried => exact does_of_taken h (exec_ceSwap mb s) (by simp [hx, hfree, hn, hp, hq, hy, stNotPermitted])
  case swapAccepted => exact does_of_taken h (exec_ceSwap mb s) (by simp [hx, hfree, hn, hp, hq, hall, maStart_clk])
  case cancelNone => exact refuses_of_taken (status := stNotPermitted) h (exec_ceSwapCancel mb s) (by simp [hx])
  case cancelStarted => exact refuses_of_taken (status := stNotPermitted) h (exec_ceSwapCancel mb s) (by simp [hx, hstarted])
  case cancelled => exact does_of_taken h (exec_ceSwapCancel mb s) (by simp [hx, hwaits, stAborted])
  case varUnknown => exact refuses_of_taken (status := stBadParameter) h (exec_ceVarRead mb s) (by simp only [hv])
  case varRange => exact refuses_of_taken (status := stBadParameter) h (exec_ceVarRead mb s) (by simp only [hv, if_pos hbad])
  case varRead =>
    have hgood : ¬ ((box s mb).arg2.toNat = 0 ∨ 1024 < (box s mb).arg2.toNat ∨ v.length < (box s mb).arg1.toNat + (box s mb).arg2.toNat) := by
      omega
    exact does_of_taken h (exec_ceVarRead mb s) (by simp only [hv, if_neg hgood])

end Sys2Proof.Machine
end

section
/-! PROOFS. What an instance stores: words of a variable area, output slots, the area that the end of an instance leaves, and O12. -/
namespace Sys2Proof.Machine

/-! Words of a variable area that are written. -/

theorem areaWord_setArea_self (m : NMap Word) (w : Nat) (v : Word) : areaWord (setArea m w v) w = v := getD_setD_self ..

theorem areaWord_setArea_ne (m : NMap Word) {w k : Nat} (v : Word) (h : k ≠ w) : areaWord (setArea m w v) k = areaWord m k :=
  getD_setD_ne 0 m v h

/-- Words that are written leave those before them. -/
theorem areaWord_setWords_of_lt (m : NMap Word) {w k : Nat} (vs : List Word) (h : k < w) : areaWord (setWords m w vs) k = areaWord m k := by
  induction vs generalizing m w with
  | nil => rfl
  | cons v vs ih => rw [setWords, ih _ (by omega), areaWord_setArea_ne m v (by omega)]

/-! Output slots of an instance whose outputs are bound to no variable (06 R165, Table 6-3). -/

section
variable {i : Inst} (hfree : ∀ e, bindingElem (nth 0xFFFFFFFF i.outs e) = none)
include hfree

theorem storeOuts_cons (m : NMap Word) (o : Nat) (x : Sig) (outs : List Sig) :
    storeOuts m i o (x :: outs) = storeOuts (setWords m (i.slotWord o) [x.value, word x.quality]) i (o + 1) outs := by
  simp only [storeOuts, hfree]

/-- Output slots that are written leave the words before them. -/
theorem areaWord_storeOuts_of_lt (m : NMap Word) {o k : Nat} (outs : List Sig) (h : k < i.slotWord o) :
    areaWord (storeOuts m i o outs) k = areaWord m k := by
  induction outs generalizing m o with
  | nil => rfl
  | cons x outs ih =>
    have hnext : k < i.slotWord (o + 1) := by unfold Inst.slotWord at *; omega
    rw [storeOuts_cons hfree, ih _ hnext, areaWord_setWords_of_lt m _ h]

/-- The slot that is written holds the value, and the low byte of the quality. -/
theorem slotSig_storeOuts_head (m : NMap Word) (o : Nat) (x : Sig) (outs : List Sig) :
    slotSig (storeOuts m i o (x :: outs)) i o = { value := x.value, quality := (word x.quality).toNat % 256 } := by
  have hnext : i.slotWord (o + 1) = i.slotWord o + 2 := by unfold Inst.slotWord; omega
  have hvalue : areaWord (setWords m (i.slotWord o) [x.value, word x.quality]) (i.slotWord o) = x.value := by
    rw [setWords, areaWord_setWords_of_lt _ _ (by omega), areaWord_setArea_self]
  have hquality : areaWord (setWords m (i.slotWord o) [x.value, word x.quality]) (i.slotWord o + 1) = word x.quality := by
    rw [setWords, setWords, setWords, areaWord_setArea_self]
  rw [storeOuts_cons hfree, slotSig, areaWord_storeOuts_of_lt hfree _ outs (by omega), areaWord_storeOuts_of_lt hfree _ outs (by omega),
    hvalue, hquality]

theorem slotSig_storeOuts (m : NMap Word) (o : Nat) {outs : List Sig} {j : Nat} {x : Sig} (h : outs[j]? = some x) :
    slotSig (storeOuts m i o outs) i (o + j) = { value := x.value, quality := (word x.quality).toNat % 256 } := by
  induction outs generalizing m o j with
  | nil => simp at h
  | cons y outs ih =>
    cases j with
    | zero =>
      obtain rfl : y = x := by simpa using h
      exact slotSig_storeOuts_head hfree m o y outs
    | succ j =>
      rw [storeOuts_cons hfree, Nat.add_comm j 1, ← Nat.add_assoc]
      exact ih _ _ (by simpa using h)

end

/-! The area of the active program at the end of an instance. -/

@[simp] theorem activeSlot_setActiveArea (s : State) (a : NMap Word) : activeSlot (setActiveArea s a) = { activeSlot s with area := a } := by
  unfold setActiveArea setProgSlot progSlot activeSlot
  by_cases h : s.ce.active = 0 <;> simp [h]

@[simp] theorem activeSlot_onTask (s : State) (t : Nat) (f : TaskRun → TaskRun) : activeSlot (onTask s t f) = activeSlot s := by
  rw [activeSlot, onTask_ce]
  rfl

@[simp] theorem activeSlot_settleTask (s : State) (t : Nat) : activeSlot (settleTask s t) = activeSlot s := by
  obtain h | ⟨f, h⟩ := settleTask_cases s t <;> rw [h]
  exact activeSlot_onTask s t f

/-- The area after an instance has stored its outputs, FLAGS and the block-specific state (06 R165, R166, R171). -/
def instArea (s : State) (c : Ctx) (core : Nat) (o : BlkOut) : NMap Word :=
  let m := storeOuts (activeSlot s).area c.inst 0 (o.outs.map (storedSig s (poisonOf s core).isSome))
  setWords (if o.held then m else setArea m c.inst.flagWord 1) c.inst.specWord (if o.held then c.spec else o.spec)

theorem area_endInst {c : Ctx} (h : c.inst.block ≠ 0) (s : State) (core : Nat) (o : BlkOut) :
    (activeSlot (endInst s c core o)).area = instArea s c core o := by
  have hslot : activeSlot (endInst s c core o) = activeSlot (setActiveArea s (instArea s c core o)) := by
    simp only [endInst, if_neg h, activeSlot_settleTask, activeSlot_onTask]
    rfl
  rw [hslot, activeSlot_setActiveArea]

/-- FLAGS and the block-specific state stand behind the output slots. -/
theorem areaWord_instArea (s : State) (c : Ctx) (core : Nat) (o : BlkOut) {k : Nat} (h : k < c.inst.flagWord) :
    areaWord (instArea s c core o) k =
      areaWord (storeOuts (activeSlot s).area c.inst 0 (o.outs.map (storedSig s (poisonOf s core).isSome))) k := by
  rw [instArea, areaWord_setWords_of_lt _ _ (by unfold Inst.specWord; omega)]
  split
  · rfl
  · exact areaWord_setArea_ne _ _ (by omega)

theorem slotSig_instArea (s : State) (c : Ctx) (core : Nat) (o : BlkOut) {j : Nat} (h : j < c.inst.outputs) :
    slotSig (instArea s c core o) c.inst j =
      slotSig (storeOuts (activeSlot s).area c.inst 0 (o.outs.map (storedSig s (poisonOf s core).isSome))) c.inst j := by
  have hflag : c.inst.slotWord j + 1 < c.inst.flagWord := by unfold Inst.flagWord Inst.slotWord; omega
  simp only [slotSig, areaWord_instArea s c core o hflag, areaWord_instArea s c core o (Nat.lt_of_succ_lt hflag)]

/-! The quality that is stored (06 R168). -/

theorem setBit_lt {n i x : Nat} (b : Bool) (hi : i < n) (hx : x < 2 ^ n) : setBit x i b < 2 ^ n := by
  have hbit : 1 <<< i < 2 ^ n := by
    rw [Nat.one_shiftLeft]
    exact Nat.pow_lt_pow_right (by omega) hi
  unfold setBit
  split
  · exact Nat.or_lt_two_pow hx hbit
  · split
    · exact Nat.xor_lt_two_pow hx hbit
    · exact hx

/-- A stored quality is a byte whose bit 7 is clear, so that its slot holds it whole. -/
theorem word_quality_storedSig (s : State) (poisoned : Bool) (x : Sig) :
    (word (storedSig s poisoned x).quality).toNat % 256 = (storedSig s poisoned x).quality := by
  have hlt : (storedSig s poisoned x).quality < 2 ^ 7 := setBit_lt _ (by omega) (Nat.mod_lt _ (by omega))
  rw [word, BitVec.toNat_ofNat]
  omega

/-- Settles O12: FLAGS and the block-specific state leave the slots as the outputs were stored, and each slot is written once. -/
theorem outputsReachTheirSlots : Obligations.OutputsReachTheirSlots := by
  unfold Obligations.OutputsReachTheirSlots
  intro s c core o j hblock hpoison hfree hlen hj
  have hstored : (o.outs.map (storedSig s false))[j]? = some (storedSig s false o.outs[j]) := by simp [hj]
  have hslot : slotSig (activeSlot (endInst s c core o)).area c.inst j = storedSig s false o.outs[j] := by
    rw [area_endInst hblock, slotSig_instArea s c core o (hlen ▸ hj), hpoison, Option.isSome_none]
    simpa [word_quality_storedSig] using slotSig_storeOuts hfree (activeSlot s).area 0 hstored
  have hnth : nth { value := 0, quality := 0 } o.outs j = o.outs[j] := by simp [nth, hj]
  rw [hslot, hnth]
  exact ⟨rfl, rfl⟩

end Sys2Proof.Machine
end

section
/-! PROOFS. The numbers of the integer types: saturation, one result of the operating type, O13 and O14. -/
namespace Sys2Proof.Machine

/-! Saturation to a type (06 R170). -/

theorem clampInt_of_mem {lo hi x : Int} (hlo : lo ≤ x) (hhi : x ≤ hi) : clampInt lo hi x = x := by
  rw [clampInt, if_neg (by omega), if_neg (by omega)]

theorem clampInt_of_lt {lo hi x : Int} (h : x < lo) : clampInt lo hi x = lo := if_pos h

theorem clampInt_of_gt {lo hi x : Int} (hle : lo ≤ hi) (h : hi < x) : clampInt lo hi x = hi := by
  rw [clampInt, if_neg (by omega), if_pos h]

theorem toSigned_ofSigned {x : Int} (hlo : -(2 ^ 31) ≤ x) (hhi : x < 2 ^ 31) : toSigned 32 (ofSigned 32 x) = x := by
  unfold toSigned ofSigned
  split <;> omega

theorem toNat_word_ofSigned (x : Int) : (word (ofSigned 32 x)).toNat = ofSigned 32 x := by
  have hlt : ofSigned 32 x < 2 ^ 32 := by unfold ofSigned; omega
  rw [word, BitVec.toNat_ofNat, Nat.mod_eq_of_lt hlt]

theorem intOf_uint32 (v : Word) : intOf 2 v = v.toNat := rfl

theorem typeLimits_of_signed {typ : Nat} (h0 : typ ≠ 0) (h2 : typ ≠ 2) : typeLimits typ = (-(2 ^ 31), 2 ^ 31 - 1) := by
  unfold typeLimits
  split <;> trivial

theorem intOf_of_signed {typ : Nat} (h0 : typ ≠ 0) (h2 : typ ≠ 2) (v : Word) : intOf typ v = toSigned 32 v.toNat := by
  unfold intOf
  split <;> trivial

theorem typeLimits_le (typ : Nat) : (typeLimits typ).1 ≤ (typeLimits typ).2 := by
  unfold typeLimits
  split <;> decide

/-- A number within the limits of a type is what its word stands for. -/
theorem intOf_word_ofSigned {typ : Nat} {x : Int} (hlo : (typeLimits typ).1 ≤ x) (hhi : x ≤ (typeLimits typ).2) :
    intOf typ (word (ofSigned 32 x)) = x := by
  by_cases h0 : typ = 0
  · subst h0
    obtain rfl | rfl : x = 0 ∨ x = 1 := by
      simp only [typeLimits] at hlo hhi
      omega
    · rfl
    · rfl
  by_cases h2 : typ = 2
  · subst h2
    simp only [typeLimits] at hlo hhi
    rw [intOf_uint32, toNat_word_ofSigned, ofSigned]
    omega
  rw [typeLimits_of_signed h0 h2] at hlo hhi
  rw [intOf_of_signed h0 h2, toNat_word_ofSigned, toSigned_ofSigned hlo (by omega)]

theorem satWord_of_mem {typ : Nat} {x : Int} (hlo : (typeLimits typ).1 ≤ x) (hhi : x ≤ (typeLimits typ).2) :
    satWord typ x = (word (ofSigned 32 x), false) := by
  simp only [satWord, clampInt_of_mem hlo hhi, bne_self_eq_false]

theorem satWord_of_lt {typ : Nat} {x : Int} (h : x < (typeLimits typ).1) :
    satWord typ x = (word (ofSigned 32 (typeLimits typ).1), true) := by
  have hne : (typeLimits typ).1 ≠ x := by omega
  simp only [satWord, clampInt_of_lt h, bne_iff_ne.2 hne]

theorem satWord_of_gt {typ : Nat} {x : Int} (h : (typeLimits typ).2 < x) :
    satWord typ x = (word (ofSigned 32 (typeLimits typ).2), true) := by
  have hne : (typeLimits typ).2 ≠ x := by omega
  simp only [satWord, clampInt_of_gt (typeLimits_le typ) h, bne_iff_ne.2 hne]

/-! One result of the operating type. -/

theorem result_outs_of_word {c : Ctx} (h : c.typ ≠ 3) (xs : List Sig) (r : Res) :
    (c.result xs r).outs = [outWord (quals xs) r.value r.limit r.overrange] := by
  rw [Ctx.result, if_neg h]
  rfl

theorem result_outs_of_float {c : Ctx} (h : c.typ = 3) (xs : List Sig) (r : Res) :
    (c.result xs r).outs = [outFloat (quals xs) r.value r.limit r.overrange] := by
  rw [Ctx.result, if_pos h]
  rfl

/-- An exact result of an integer type or of FIX32 is saturated once, and LIMIT says so. -/
theorem result_outs_of_sat {c : Ctx} (h : c.typ ≠ 3) (xs : List Sig) (x : Int) :
    (c.result xs (.sat c.typ x)).outs = [outWord (quals xs) (satWord c.typ x).1 (satWord c.typ x).2 false] :=
  result_outs_of_word h xs (.sat c.typ x)

theorem foldl_ints_first (c : Ctx) (n : Nat) :
    (ints c.typ (c.first_ n)).foldl (· + ·) 0 = ((List.range n).map fun i => intOf c.typ (c.input i).value).sum := by
  rw [← List.sum_eq_foldl, ints, Ctx.first_, List.map_map]
  rfl

/-- Settles O13: a number has one of three places with respect to the limits of its type, and each block gives the saturated result of its exact number. -/
theorem exactResultsSaturateOnce : Obligations.ExactResultsSaturateOnce := by
  unfold Obligations.ExactResultsSaturateOnce
  refine ⟨fun typ x => ⟨fun hlo hhi => ?within, fun h => ?below, fun h => ?above⟩, fun c h => ⟨?add, ?sub, ?abs, ?neg⟩⟩
  case within =>
    rw [satWord_of_mem hlo hhi]
    exact ⟨intOf_word_ofSigned hlo hhi, rfl⟩
  case below =>
    rw [satWord_of_lt h]
    exact ⟨intOf_word_ofSigned (Int.le_refl _) (typeLimits_le typ), rfl⟩
  case above =>
    rw [satWord_of_gt h]
    exact ⟨intOf_word_ofSigned (typeLimits_le typ) (Int.le_refl _), rfl⟩
  case add => simp only [addBlock, if_neg h, result_outs_of_sat h, foldl_ints_first]
  case sub => simp only [subBlock, if_neg h, result_outs_of_sat h]
  case abs => simp only [absBlock, if_neg h, result_outs_of_sat h]
  case neg => simp only [negBlock, if_neg h, result_outs_of_sat h]

/-! Divisors of 0 (06 R173). -/

theorem divBlock_outs_of_zero {c : Ctx} (h : c.typ ≠ 3) (hb : intOf c.typ (c.input 1).value = 0) :
    (divBlock c).outs = [outWord (quals (c.first_ 2)) (divZero c.typ (intOf c.typ (c.input 0).value)).value
      (intOf c.typ (c.input 0).value != 0) true] := by
  simp only [divBlock, if_neg h, if_pos hb, result_outs_of_word h]
  rfl

theorem divBlock_outs_of_int {c : Ctx} (h3 : c.typ ≠ 3) (h4 : c.typ ≠ 4) (hb : intOf c.typ (c.input 1).value ≠ 0) :
    (divBlock c).outs = (c.result (c.first_ 2) (.sat c.typ ((intOf c.typ (c.input 0).value).tdiv (intOf c.typ (c.input 1).value)))).outs := by
  simp only [divBlock, if_neg h3, if_neg hb, if_neg h4]

theorem modBlock_outs_of_zero {c : Ctx} (h : c.typ ≠ 3) (hb : intOf c.typ (c.input 1).value = 0) :
    (modBlock c).outs = [outWord (quals (c.first_ 2)) 0 false true] := by
  simp only [modBlock, if_neg h, hb, beq_self_eq_true, if_true, result_outs_of_word h]

/-- Settles O14: by the sign of the dividend, for FP32 by the quotient of IEEE 754, and for −2^31 by −1 by the number 2^31 above the limits. -/
theorem zeroDivisorsGiveTheStatedResults : Obligations.ZeroDivisorsGiveTheStatedResults := by
  unfold Obligations.ZeroDivisorsGiveTheStatedResults
  intro c
  refine ⟨fun h hb => ⟨fun hx => ?positive, fun hx => ?negative, fun hx => ?zero, modBlock_outs_of_zero h hb⟩,
    fun h hb => ⟨?floatDiv, ?floatMod⟩, fun h ha hb => ?overflow⟩
  case positive =>
    have hne : intOf c.typ (c.input 0).value ≠ 0 := by omega
    rw [divBlock_outs_of_zero h hb, divZero, if_neg hne, if_pos hx, bne_iff_ne.2 hne]
  case negative =>
    have hne : intOf c.typ (c.input 0).value ≠ 0 := by omega
    rw [divBlock_outs_of_zero h hb, divZero, if_neg hne, if_neg (by omega), bne_iff_ne.2 hne]
  case zero =>
    rw [divBlock_outs_of_zero h hb, hx]
    rfl
  case floatDiv => simp only [divBlock, if_pos h, result_outs_of_float h, hb]
  case floatMod => simp only [modBlock, if_pos h, result_outs_of_float h, hb, if_true]
  case overflow =>
    have hq : satWord 1 ((intOf 1 0x80000000).tdiv (intOf 1 0xFFFFFFFF)) = (0x7FFFFFFF, true) := by decide
    have hb0 : intOf c.typ (c.input 1).value ≠ 0 := by
      rw [h, hb]
      decide
    rw [divBlock_outs_of_int (by omega) (by omega) hb0, result_outs_of_sat (by omega), h, ha, hb, hq]

end Sys2Proof.Machine
end

section
/-! PROOFS. The timers TON and TP: one execution of each, and O16. -/
namespace Sys2Proof.Machine

theorem pass_elapsed {t : Timer} {dt : Nat} (h : t.elapsed + dt < 2 ^ 64) : (t.pass dt).elapsed = t.elapsed + dt := if_pos h

/-- A cyclic TON that runs splits the time that has passed into whole periods and the remainder. -/
theorem tonStep_cyclic {t : Timer} {pt : Nat} (dt : Nat) (hrun : t.run = true) (hpt : 0 < pt) :
    tonStep t true true pt dt =
      (Timer.mk true t.prev ((t.pass dt).elapsed % pt), decide (pt ≤ (t.pass dt).elapsed), (t.pass dt).elapsed / pt) := by
  have hne : pt ≠ 0 := by omega
  simp only [tonStep, hrun, if_neg hne, Timer.pass, Bool.not_true, Bool.false_eq_true, if_false, if_true]

theorem tonStep_off (t : Timer) (cyclic : Bool) (pt dt : Nat) :
    tonStep t false cyclic pt dt = ({ t with run := false, elapsed := 0 }, false, 0) := rfl

/-- A TP after the time since its last execution and a rising edge of IN. -/
def Timer.tpBegin (t : Timer) (on : Bool) (dt : Nat) : Timer :=
  let u := if t.run then t.pass dt else t
  if !u.run && on && !u.prev then { u with run := true, elapsed := 0 } else u

/-- What a TP makes of that: it ends where PT has passed, and its time is cleared at rest with IN = 0. -/
def Timer.tpEnd (u : Timer) (on : Bool) (pt : Nat) : Timer :=
  let v := if u.run && decide (pt ≤ u.elapsed) then { u with run := false } else u
  { (if !v.run && !on then { v with elapsed := 0 } else v) with prev := on }

theorem tpStep_eq (t : Timer) (on : Bool) (pt dt : Nat) : tpStep t on pt dt = (t.tpBegin on dt).tpEnd on pt := rfl

/-- A TP still runs exactly where it ran and PT has not passed. -/
theorem tpEnd_run (u : Timer) (on : Bool) (pt : Nat) : (u.tpEnd on pt).run = (u.run && !decide (pt ≤ u.elapsed)) := by
  simp only [Timer.tpEnd, apply_ite Timer.run, ite_self]
  cases u.run
  · rfl
  · simp

theorem tpStep_of_zero (t : Timer) (on : Bool) (dt : Nat) : (tpStep t on 0 dt).run = false := by
  rw [tpStep_eq, tpEnd_run, decide_eq_true (Nat.zero_le _), Bool.not_true, Bool.and_false]

/-- Settles O16: a running cyclic TON divides its time by PT, and the two others follow from one execution. -/
theorem timersKeepTheirPhase : Obligations.TimersKeepTheirPhase := by
  unfold Obligations.TimersKeepTheirPhase
  refine ⟨fun t pt dt hrun hpt hlt => ?cyclic, fun t cyclic pt dt => ?off, tpStep_of_zero⟩
  case cyclic =>
    rw [tonStep_cyclic dt hrun hpt, pass_elapsed hlt]
    exact ⟨Nat.div_add_mod' .., Nat.mod_lt _ hpt, decide_eq_decide.2 (Nat.div_pos_iff.trans (and_iff_right hpt)).symm⟩
  case off =>
    rw [tonStep_off]
    exact ⟨rfl, rfl, rfl⟩

end Sys2Proof.Machine
end

section
/-! PROOFS. The solver engine at work: which task of a slot is ready first, what a command of the engine does once its conditions hold, which staging slots are kept, and O21 assembled from them. -/
namespace Sys2Proof.Machine

/-! The ready task of lowest list index (07 R205). -/

theorem readyTask_eq_some_iff {s : State} {n i : Nat} {p : SolveImage} {x : Solve} : readyTask s n = some (p, x, i) ↔
    runningSolve s n = some (p, x) ∧ ∃ j, i = (currentSection p x).first + j ∧ j < x.admitted ∧
      taskReady s n p x ((currentSection p x).first + j) = true ∧ ∀ k, k < j → taskReady s n p x ((currentSection p x).first + k) = false := by
  unfold readyTask
  cases hr : runningSolve s n with
  | none => simp
  | some q =>
    obtain ⟨p', x'⟩ := q
    simp only [List.find?_map, Option.map_map, Option.map_eq_some_iff, List.find?_range_eq_some]
    constructor
    · rintro ⟨j, ⟨hready, hmem, hbefore⟩, heq⟩
      cases heq
      exact ⟨rfl, j, rfl, List.mem_range.mp hmem, hready, fun k hk => by simpa using hbefore k hk⟩
    · rintro ⟨heq, j, rfl, hadm, hready, hbefore⟩
      cases heq
      exact ⟨j, ⟨hready, List.mem_range.mpr hadm, fun k hk => by simpa using hbefore k hk⟩, rfl⟩

/-! The tiles (07 R204, R205). -/

/-- A free context of the tile receives the ready task of the slot that is served first. -/
theorem does_taskDispatch {s : State} {tile ctx n i : Nat} {p : SolveImage} {x : Solve} (hrun : solverRuns s = true)
    (hctx : (indexed (nth [] (admitTasks s).sv.tiles tile)).find? (fun q => q.2.isNone) = some (ctx, none))
    (hslot : (servedOrder (admitTasks s)).find? (fun n => (readyTask (admitTasks s) n).isSome) = some n)
    (htask : readyTask (admitTasks s) n = some (p, x, i)) :
    Does (.taskDispatch tile) s (dispatchTask (admitTasks s) tile ctx n p x i) := by
  rw [Does, exec_taskDispatch]
  simp [execTaskDispatch, hrun, hctx, hslot, htask, done]

section
variable {s : State} {tile ctx : Nat} {c : TileCtx} {p : SolveImage} {x : Solve}

/-- A task of a solve that runs is computed at the end of its compiled cycles, once its target is staged. -/
theorem does_taskComputeDone (hc : ctxAt s tile ctx = some c) (hdone : c.done = false) (hrun : solverRuns s = true)
    (hsolve : runningSolve s c.slot = some (p, x)) (hstage : inStage s c.slot p (p.taskAt c.task).target = true) :
    Does (.taskComputeDone tile ctx) s
      (setCtx (advanceTo s (c.since + (if c.fp then (p.taskAt c.task).cycFp else (p.taskAt c.task).cycFx) / 1000)) tile ctx (some { c with done := true })) := by
  rw [Does, exec_taskComputeDone]
  simp [execTaskComputeDone, hc, hdone, hrun, hsolve, hstage, done]

/-- A computed task of a solve that runs retires, once the task that its result follows, if it names one, has retired. -/
theorem does_taskRetire (hc : ctxAt s tile ctx = some c) (hdone : c.done = true) (hrun : solverRuns s = true)
    (hsolve : runningSolve s c.slot = some (p, x)) (hprev : ∀ a, (p.taskAt c.task).accPrev = some a → hasRetired p x a = true) :
    Does (.taskRetire tile ctx) s (retire (setCtx s tile ctx none) c.slot p x c) := by
  rw [Does, exec_taskRetire]
  cases ha : (p.taskAt c.task).accPrev with
  | none => simp [execTaskRetire, hc, hdone, hrun, hsolve, ha, done]
  | some a => simp [execTaskRetire, hc, hdone, hrun, hsolve, ha, hprev a ha, done]

end

/-! The staging engine (07 R207). -/

section
variable {s : State} {slot block : Nat} {p : SolveImage} {x : Solve}

/-- The next block, of at most 240 KiB, is copied into a free staging slot. -/
theorem does_stagingCopy_in (hsolve : runningSolve s slot = some (p, x)) (hrun : solverRuns s = true) (hbulk : (p.blockAt block).bulk = true)
    (hfree : s.sv.staged.length < 256) (hnext : stageNext s slot p x block = true) (hsize : 4 * (p.blockAt block).elements ≤ 245760) :
    Does (.stagingCopy slot block false) s { s with sv := { s.sv with
      staged := s.sv.staged ++ [{ slot := slot, block := block, dirty := false }], moved := s.sv.moved + 4 * (p.blockAt block).elements } } := by
  rw [Does, exec_stagingCopy]
  simp [execStagingCopy, hsolve, hrun, hbulk, hfree, hnext, blockBytes, hsize, done]

/-- A written block whose chain has retired is copied back, and its staging slot is free where no task left needs it. -/
theorem does_stagingCopy_back {q : StageSlot} (hsolve : runningSolve s slot = some (p, x)) (hrun : solverRuns s = true)
    (hbulk : (p.blockAt block).bulk = true) (hq : stageOf s slot block = some q) (hdirty : q.dirty = true) (hchain : chainRetired p x block = true) :
    Does (.stagingCopy slot block true) s (freeStages { s with sv := { s.sv with
      staged := s.sv.staged.map (fun y => if y = q then { y with dirty := false } else y)
      moved := s.sv.moved + 4 * (p.blockAt block).elements } } slot p x) := by
  rw [Does, exec_stagingCopy]
  simp [execStagingCopy, hsolve, hrun, hbulk, hq, hdirty, hchain, blockBytes, done]

end

theorem mem_staged_freeStages_iff {s : State} {slot : Nat} {p : SolveImage} {x : Solve} {q : StageSlot} :
    q ∈ (freeStages s slot p x).sv.staged ↔ q ∈ s.sv.staged ∧ (q.slot = slot → q.dirty = true ∨ stageDone p x q.block = false) := by
  simp only [freeStages, List.mem_filter, Bool.or_eq_true, bne_iff_ne, ne_eq, Bool.not_eq_true', or_assoc, Decidable.imp_iff_not_or]

/-! The backstop (08 R248). -/

/-- A solve that has not reached FINISH ends with TIMEOUT at its backstop instant. -/
theorem does_solveBackstop {s : State} {slot : Nat} {p : SolveImage} {x : Solve} (hsolve : runningSolve s slot = some (p, x))
    (hrole : x.role ≠ 8) (hrun : solverRuns s = true) : Does (.solveBackstop slot) s (endOutside (advanceTo s x.backstop) slot p x 0x11) := by
  rw [Does, exec_solveBackstop]
  simp [execSolveBackstop, hsolve, hrole, hrun, done]

/-- Settles O21: each command does what its meaning says once its conditions hold, and the task dispatched is the first that is ready among those admitted. -/
theorem theSolverEngineWorksOnItsTasks : Obligations.TheSolverEngineWorksOnItsTasks := by
  unfold Obligations.TheSolverEngineWorksOnItsTasks
  refine ⟨fun s tile n ctx p x i hrun hctx hslot htask => ⟨does_taskDispatch hrun hctx hslot htask, ?lowest⟩,
    fun s tile ctx c p x hc hdone hrun hsolve hstage => does_taskComputeDone hc hdone hrun hsolve hstage,
    fun s tile ctx c p x hc hdone hrun hsolve hprev => does_taskRetire hc hdone hrun hsolve hprev,
    fun s slot block p x hsolve hrun hbulk => ⟨fun hfree hnext hsize => does_stagingCopy_in hsolve hrun hbulk hfree hnext hsize,
      fun q hq hdirty hchain => does_stagingCopy_back hsolve hrun hbulk hq hdirty hchain⟩,
    fun s slot p x q hq hslot => ?kept,
    fun s slot p x hsolve hrole hrun => does_solveBackstop hsolve hrole hrun⟩
  case lowest =>
    obtain ⟨-, j, hi, hadm, -, hbefore⟩ := readyTask_eq_some_iff.mp htask
    exact ⟨j, hi, hadm, hbefore⟩
  case kept => rw [mem_staged_freeStages_iff, and_iff_right hq, forall_prop_of_true hslot]

end Sys2Proof.Machine
end

section
/-! PROOFS. The solver's mailbox commands: the refusal of SLV_ABORT where no solve runs, and each command's answers, from which O44 is assembled. -/
namespace Sys2Proof.Machine

/-! SLV_ABORT of a slot that runs no solve (08 R249). -/

/-- A slot with no solve, or with one that has not ended by TIMEOUT in this very µs, has nothing to abort. -/
theorem refuses_slvAbort_of_not_running {s : State} {mb : Nat} (h : Taken s mb 0x0604) (hn : (box s mb).arg0.toNat < 4)
    (hnone : runningSolve s (box s mb).arg0.toNat = none)
    (hlate : ∀ x, (solveSlot s (box s mb).arg0.toNat).solve = some x → x.status = some 0x11 → x.backstop ≠ s.clk.nt) :
    Refuses (.slvAbort mb) s mb 0x8006 := by
  refine refuses_of_taken (status := stNotPermitted) h (exec_slvAbort mb s) ?_
  cases hx : (solveSlot s (box s mb).arg0.toNat).solve with
  | none => simp [Nat.not_le.mpr hn, hnone, hx]
  | some x =>
    have hno : ¬ (x.status = some 0x11 ∧ x.backstop = s.clk.nt) := fun ⟨hst, hb⟩ => hlate x hx hst hb
    simp only [Nat.not_le.mpr hn, hnone, hx, if_neg hno, if_false]

/-- Settles O44: each command is the run of its meaning on a mailbox that is taken, and each clause one branch of that meaning. -/
theorem solverCommandsAnswer : Obligations.SolverCommandsAnswer := by
  unfold Obligations.SolverCommandsAnswer
  refine ⟨fun s mb h => ?status, fun s mb h => ?slots,
    fun s mb h => ⟨fun hn => ?resultOperand, fun hn hr => ?resultNone, fun r hn hr => ?result⟩,
    fun s mb h => ⟨fun hn => ?abortOperand, fun p x hn hrun hrole => ?abortInFinish, fun p x hn hrun hrole => ?abort,
      fun x hn hnone hx hst hb => ?abortAtBackstop, fun hn hnone hlate => refuses_slvAbort_of_not_running h hn hnone hlate⟩,
    fun s mb h => ⟨fun hn => ?infoOperand, fun hn hp => ?infoNone, fun p hn hp => ?info⟩,
    fun s mb h => ⟨fun hn => ?unloadOperand, fun hn hx => ?unloadBusy, fun hn hx hcol => ?unloadCollides, fun hn hx hfree => ?unload⟩⟩
  case status => exact does_of_taken h (exec_slvEngineStatus mb s) rfl
  case slots => exact does_of_taken h (exec_slvSlots mb s) rfl
  case resultOperand => exact refuses_of_taken (status := stBadParameter) h (exec_slvResult mb s) (if_pos hn)
  case resultNone => exact refuses_of_taken (status := stNotReady) h (exec_slvResult mb s) (by simp [Nat.not_le.mpr hn, hr])
  case result => exact does_of_taken h (exec_slvResult mb s) (by simp [Nat.not_le.mpr hn, hr])
  case abortOperand => exact refuses_of_taken (status := stBadParameter) h (exec_slvAbort mb s) (if_pos hn)
  case abortInFinish => exact refuses_of_taken (status := stNotPermitted) h (exec_slvAbort mb s) (by simp [Nat.not_le.mpr hn, hrun, hrole])
  case abort => exact does_of_taken h (exec_slvAbort mb s) (by simp [Nat.not_le.mpr hn, hrun, hrole])
  case abortAtBackstop => exact does_of_taken h (exec_slvAbort mb s) (by simp [Nat.not_le.mpr hn, hnone, hx, hst, hb])
  case infoOperand => exact refuses_of_taken (status := stBadParameter) h (exec_slvProgramInfo mb s) (if_pos hn)
  case infoNone => exact refuses_of_taken (status := stNotReady) h (exec_slvProgramInfo mb s) (by simp [Nat.not_le.mpr hn, hp])
  case info => exact does_of_taken h (exec_slvProgramInfo mb s) (by simp [Nat.not_le.mpr hn, hp])
  case unloadOperand => exact refuses_of_taken (status := stBadParameter) h (exec_slvUnload mb s) (if_pos hn)
  case unloadBusy => exact refuses_of_taken (status := stBusy) h (exec_slvUnload mb s) (by simp [Nat.not_le.mpr hn, hx])
  case unloadCollides => exact refuses_of_taken (status := stConflict) h (exec_slvUnload mb s) (by simp [Nat.not_le.mpr hn, hx, hcol])
  case unload => exact does_of_taken h (exec_slvUnload mb s) (by simp [Nat.not_le.mpr hn, hx, hfree])

end Sys2Proof.Machine
end

section
/-! PROOFS. The vent path: bits of a number, what a release clears, DI changes and their filter, and O27 assembled from them. -/
namespace Sys2Proof.Machine

/-! Bits of a number. -/

theorem testBit_setBit_true (x i j : Nat) : (setBit x i true).testBit j = (x.testBit j || decide (i = j)) := by
  rw [setBit, if_pos rfl, Nat.testBit_or, Nat.one_shiftLeft, Nat.testBit_two_pow]

theorem testBit_setBit_false (x i j : Nat) : (setBit x i false).testBit j = (x.testBit j && !decide (i = j)) := by
  rw [setBit, if_neg Bool.false_ne_true]
  by_cases hj : i = j
  · subst hj
    cases hx : x.testBit i <;> simp [hx, Nat.one_shiftLeft]
  · cases x.testBit i <;> simp [hj, Nat.one_shiftLeft]

theorem testBit_setBit_self (x i : Nat) (b : Bool) : (setBit x i b).testBit i = b := by
  cases b
  · simp [testBit_setBit_false]
  · simp [testBit_setBit_true]

/-! Releases (09 R262). -/

/-- Whether the image in force has a latched rule of a number. -/
def ruleLatched (s : State) (i : Nat) : Bool := (s.net.image.bind fun n => n.rules[i]?).any (·.latch)

theorem ruleLatched_of_rule {s : State} {n : NetImage} {i : Nat} {r : VentRule} (hn : s.net.image = some n) (hr : n.rules[i]? = some r) :
    ruleLatched s i = r.latch := by
  simp [ruleLatched, hn, hr]

theorem ruleLatched_of_none {s : State} {n : NetImage} {i : Nat} (hn : s.net.image = some n) (hr : n.rules[i]? = none) :
    ruleLatched s i = false := by
  simp [ruleLatched, hn, hr]

/-- A release changes ACTIVE of the rules alone. -/
theorem releaseRule_eq (s : State) (i : Nat) :
    releaseRule s i = { s with vn := { s.vn with active := if ruleLatched s i then setBit s.vn.active i false else s.vn.active } } := by
  unfold releaseRule ruleLatched
  cases hn : s.net.image with
  | none => rfl
  | some n =>
    cases hr : n.rules[i]? with
    | none => simp [hr]
    | some r => cases hl : r.latch <;> simp [hr, hl]

theorem ruleLatched_releaseRule (s : State) (i j : Nat) : ruleLatched (releaseRule s i) j = ruleLatched s j := by
  rw [releaseRule_eq]
  rfl

/-- A release clears ACTIVE of its rule where that is latched. -/
theorem active_releaseRule (s : State) (i j : Nat) :
    (releaseRule s i).vn.active.testBit j = (s.vn.active.testBit j && !(ruleLatched s i && i == j)) := by
  rw [releaseRule_eq]
  have hbeq : (i == j) = decide (i = j) := rfl
  cases ruleLatched s i
  · simp
  · simp [testBit_setBit_false, hbeq]

/-- The releases of a list of rules clear ACTIVE of the latched ones among them. -/
theorem active_foldl_releaseRule (l : List Nat) (s : State) (j : Nat) :
    (l.foldl releaseRule s).vn.active.testBit j = (s.vn.active.testBit j && !(ruleLatched s j && decide (j ∈ l))) := by
  induction l generalizing s with
  | nil => simp
  | cons i t ih =>
    rw [List.foldl_cons, ih, active_releaseRule, ruleLatched_releaseRule]
    by_cases hij : j = i
    · subst hij
      cases ruleLatched s j <;> simp
    · have hji : (i == j) = false := beq_false_of_ne (Ne.symm hij)
      simp [hij, hji]

/-- ALL clears ACTIVE of every latched rule of an image of at most 1,024 rules. -/
theorem active_releaseAll {s : State} {n : NetImage} (hn : s.net.image = some n) (hlen : n.rules.length ≤ 1024) (j : Nat) :
    (releaseAll s).vn.active.testBit j = (s.vn.active.testBit j && !ruleLatched s j) := by
  rw [releaseAll, active_foldl_releaseRule]
  by_cases hj : j < n.rules.length
  · have hmem : j ∈ List.range 1024 := List.mem_range.mpr (by omega)
    simp [hmem]
  · have hnone : ruleLatched s j = false := ruleLatched_of_none hn (List.getElem?_eq_none (by omega))
    simp [hnone]

/-- A write of VNT_RELEASE is ALL by its bit 31, and names a rule without it. -/
theorem does_vntRelease {s t : State} {value : Word} (h : s.clk.running = true)
    (ht : (if value.getLsbD 31 then releaseAll s else releaseRule s (value.toNat % 1024)) = t) : Does (.vntRelease value) s t :=
  ht ▸ does_of_running (exec_vntRelease value s) h

/-! DI changes (09 R269). -/

/-- The synchronised level of a DI is taken, with the instant since which it is stable. -/
def diTaken (s : State) (input : Nat) (level : Bool) : State :=
  { s with vn := { s.vn with diRaw := setBit s.vn.diRaw input level, diSince := setNth s.vn.diSince input s.clk.nt } }

section
variable {s : State} {input : Nat}

/-- The level of a DI changes, and the filtered level takes it at once with FILTER 0. -/
theorem does_diChange {level : Bool} {at_ : Nat} {t : State} (h : s.clk.running = true) (hi : input < 16)
    (hlevel : s.vn.diRaw.testBit input = !level)
    (ht : (if diFilter (advanceTo s at_) input = 0 then setFiltered (diTaken (advanceTo s at_) input level) input level
      else diTaken (advanceTo s at_) input level) = t) :
    Does (.diChange input level at_) s (offerChange (advanceTo s at_) t) := by
  subst ht
  rw [Does, exec_diChange]
  have hcond : ¬ (!s.clk.running || decide (16 ≤ input) || decide (bit s.vn.diRaw input = level)) = true := by
    simp [h, hi, bit, hlevel]
  rw [execDiChange, if_neg hcond]
  rfl

/-- The filtered level takes the level of the DI once FILTER µs have passed since it changed. -/
theorem does_diFilterExpiry (h : s.clk.running = true) (hi : input < 16) (hfilt : s.vn.diFilt.testBit input = !s.vn.diRaw.testBit input) :
    let u := advanceTo s (nth 0 s.vn.diSince input + diFilter s input)
    Does (.diFilterExpiry input) s (offerChange u (setFiltered u input (s.vn.diRaw.testBit input))) := by
  rw [Does, exec_diFilterExpiry]
  have hcond : ¬ (!s.clk.running || decide (16 ≤ input) || decide (bit s.vn.diFilt input = bit s.vn.diRaw input)) = true := by
    simp [h, hi, bit, hfilt]
  rw [execDiFilterExpiry, if_neg hcond]
  dsimp only
  rw [advanceTo_vn]
  rfl

end

/-- A filtered level that changes is taken, and a rising edge counts a pulse. -/
theorem setFiltered_of_change {s : State} {n : Nat} {v : Bool} (h : s.vn.diFilt.testBit n = !v) :
    setFiltered s n v = { s with vn := { s.vn with
      diFilt := setBit s.vn.diFilt n v, pcnt := if v then modifyNth s.vn.pcnt n (fun c => (c + 1) % 2 ^ 32) else s.vn.pcnt } } :=
  if_neg (Bool.eq_not.mp h)

/-! Events and VNT_FIRST (09 R263, R273). -/

/-- The event at the head of the pipeline is evaluated. -/
theorem does_ventEvent {s : State} {e : VentEv} {q : List VentEv} {n : NetImage} (hq : s.vn.queue = e :: q) (hn : s.net.image = some n) :
    Does .ventEvent s (evalRules { s with vn := { s.vn with queue := q, events := (s.vn.events + 1) % 2 ^ 32 } } e 0 n.rules) := by
  rw [Does, exec_ventEvent, execVentEvent, hq, hn]
  rfl

/-- A read of VNT_FIRST answers the register and clears it. -/
theorem does_vntFirstRead {s : State} (h : s.clk.running = true) : Does .vntFirstRead s (clearFirst (answer s (vntFirst s))) :=
  does_of_running (exec_vntFirstRead s) h

theorem clearFirst_answer_of_some {s : State} {i : Nat} (hf : s.vn.first = some i) : clearFirst (answer s (vntFirst s)) =
    { s with vn := { s.vn with first := none }, link := { s.link with rdata := [word (i + 2 ^ 31)], refused := false } } := by
  rw [vntFirst, hf]
  rfl

theorem clearFirst_of_none {s : State} (hf : s.vn.first = none) : clearFirst s = s := by
  rw [clearFirst, ← hf]

theorem clearFirst_answer_of_none {s : State} (hf : s.vn.first = none) : clearFirst (answer s (vntFirst s)) =
    { s with link := { s.link with rdata := [0], refused := false } } := by
  have hans : (answer s (vntFirst s)).vn.first = none := hf
  rw [clearFirst_of_none hans, vntFirst, hf]
  rfl

/-- Settles O27: each command does what its lemma says, and the releases clear exactly the latched rules that they name. -/
theorem theVentPathTakesEventsAndReleases : Obligations.TheVentPathTakesEventsAndReleases := by
  unfold Obligations.TheVentPathTakesEventsAndReleases
  refine ⟨fun s e q n hq hn => does_ventEvent hq hn, fun s input level at_ h hi hlevel => ⟨fun hf => ?atOnce, fun hf => ?filtered⟩,
    fun s input h hi hfilt => does_diFilterExpiry h hi hfilt, fun s n v h => ?taken, fun s value h hall => ?release, fun s value h hall => ?all,
    fun s h => does_of_running (exec_vntReleaseAll s) h, fun s n hn hlen i => ?activeAll, fun s i n r hn hr j => ?activeRule,
    fun s i h hf => ?first, fun s h hf => ?noFirst⟩
  case atOnce => exact does_diChange h hi hlevel (if_pos hf)
  case filtered => exact does_diChange h hi hlevel (if_neg hf)
  case taken =>
    rw [setFiltered_of_change h]
    exact ⟨testBit_setBit_self .., rfl⟩
  case release => exact does_vntRelease h (if_neg (ne_true_of_eq_false hall))
  case all => exact does_vntRelease h (if_pos hall)
  case activeAll =>
    rw [active_releaseAll hn hlen]
    cases hr : n.rules[i]? with
    | none => rw [ruleLatched_of_none hn hr]
    | some r => rw [ruleLatched_of_rule hn hr]
  case activeRule => rw [active_releaseRule, ruleLatched_of_rule hn hr]
  case first => exact clearFirst_answer_of_some hf ▸ does_vntFirstRead h
  case noFirst => exact clearFirst_answer_of_none hf ▸ does_vntFirstRead h

end Sys2Proof.Machine
end

section
/-! PROOFS. Faults that are raised: the class of a code, the handling, the queue and its overflow, the entry into the hardware safe state, and O28 and O29 assembled from them. -/
namespace Sys2Proof.Machine

/-! The class of a code (09 R275). -/

theorem faultClass_of_halt (s : State) {code : Nat} (cls : Nat) (hlo : 0x0101 ≤ code) (hhi : code ≤ 0x0107) : faultClass s code cls = 5 :=
  if_pos ⟨hlo, hhi⟩

theorem faultClass_of_degrade (s : State) {code : Nat} (cls : Nat) (h : code = 0x0110 ∨ code = 0x0120 ∨ code = 0x0150) :
    faultClass s code cls = 3 := by
  rcases h with rfl | rfl | rfl <;> rfl

theorem faultClass_of_safe (s : State) (cls : Nat) : faultClass s 0x0121 cls = 4 := rfl

theorem faultClass_of_warning (s : State) {code : Nat} (cls : Nat)
    (h : code = 0x0111 ∨ code = 0x0191 ∨ (0x01A0 ≤ code ∧ code ≤ 0x01A4)) : faultClass s code cls = 2 := by
  have hcodes : code = 0x0111 ∨ code = 0x0191 ∨ code = 0x01A0 ∨ code = 0x01A1 ∨ code = 0x01A2 ∨ code = 0x01A3 ∨ code = 0x01A4 := by omega
  rcases hcodes with rfl | rfl | rfl | rfl | rfl | rfl | rfl <;> rfl

/-- The fault of a vent rule has FLT_CLASS of the rule. -/
theorem faultClass_of_rule {s : State} {n : NetImage} {i : Nat} {r : VentRule} (cls : Nat) (hn : s.net.image = some n)
    (hr : n.rules[i]? = some r) (hi : i < 1024) (hact : r.actFlt = true) : faultClass s (0x0400 + i) cls = r.fltClass := by
  have hhalt : ¬ (0x0101 ≤ 0x0400 + i ∧ 0x0400 + i ≤ 0x0107) := by omega
  have hdegrade : ¬ [0x0110, 0x0120, 0x0150].contains (0x0400 + i) = true := by
    simp only [List.contains_eq_mem, List.mem_cons, List.not_mem_nil, or_false, decide_eq_true_eq]
    omega
  have hsafe : ¬ 0x0400 + i = 0x0121 := by omega
  have hwarning : ¬ [0x0111, 0x0191, 0x01A0, 0x01A1, 0x01A2, 0x01A3, 0x01A4].contains (0x0400 + i) = true := by
    simp only [List.contains_eq_mem, List.mem_cons, List.not_mem_nil, or_false, decide_eq_true_eq]
    omega
  have hrule : 0x0400 ≤ 0x0400 + i ∧ 0x0400 + i ≤ 0x07FF := by omega
  rw [faultClass, if_neg hhalt, if_neg hdegrade, if_neg hsafe, if_neg hwarning, if_pos hrule, Nat.add_sub_cancel_left, hn]
  simp only [Option.bind_some, hr, hact, if_true]

/-! The handling and the queue of 16 (09 R276). -/

section
variable {s : State} {f h : FaultItem} {t : List FaultItem}

theorem enqueueFault_of_idle (hs : s.ft.stack = []) : enqueueFault s f = { s with ft := { s.ft with stack := [f] } } := by
  rw [enqueueFault, hs]

theorem enqueueFault_of_higher (hs : s.ft.stack = h :: t) (hc : h.cls < f.cls) :
    enqueueFault s f = { s with ft := { s.ft with stack := f :: h :: t } } := by
  rw [enqueueFault, hs]
  exact if_pos hc

theorem enqueueFault_of_room (hs : s.ft.stack = h :: t) (hc : f.cls ≤ h.cls) (hq : s.ft.queue.length < 16) :
    enqueueFault s f = { s with ft := { s.ft with queue := s.ft.queue ++ [f] } } := by
  rw [enqueueFault, hs]
  exact (if_neg (Nat.not_lt.mpr hc)).trans (if_pos hq)

/-- A fault that finds the queue full is lost and counted; the first lost one of a latch raises QUEUE_OVERFLOW (notes/assumptions/62). -/
theorem enqueueFault_of_full (hs : s.ft.stack = h :: t) (hc : f.cls ≤ h.cls) (hq : 16 ≤ s.ft.queue.length) :
    enqueueFault s f = match s.ft.ovfLatch with
      | some n => { s with ft := { s.ft with ovf := wrap32 (s.ft.ovf + 1), ovfLatch := some (n + 1) } }
      | none => countFault { s with ft := { s.ft with ovf := wrap32 (s.ft.ovf + 1), ovfLatch := some 1 } } 0x0150 3 := by
  rw [enqueueFault, hs]
  exact (if_neg (Nat.not_lt.mpr hc)).trans (if_neg (Nat.not_lt.mpr hq))

end

/-- A SAFE fault starts the entry where none is in effect, and is its cause. -/
def entryBegun (s : State) (code cls : Nat) : State :=
  if cls = 4 ∧ s.ft.safe = false then { s with ft := { s.ft with entry := some s.clk.nt, entryStep := 1, safeCause := code } } else s

theorem stack_entryBegun (s : State) (code cls : Nat) : (entryBegun s code cls).ft.stack = s.ft.stack := by
  unfold entryBegun; split <;> rfl

theorem queue_entryBegun (s : State) (code cls : Nat) : (entryBegun s code cls).ft.queue = s.ft.queue := by
  unfold entryBegun; split <;> rfl

theorem ovf_entryBegun (s : State) (code cls : Nat) : (entryBegun s code cls).ft.ovf = s.ft.ovf := by
  unfold entryBegun; split <;> rfl

theorem ovfLatch_entryBegun (s : State) (code cls : Nat) : (entryBegun s code cls).ft.ovfLatch = s.ft.ovfLatch := by
  unfold entryBegun; split <;> rfl

/-! What a fault that is raised does (09 R276 to R278). -/

/-- The fault as it enters the handling or the queue, raised now. -/
def faultNow (s : State) (code cls source : Nat) (words : List Word) : FaultItem :=
  { code := code, cls := cls, words := words, source := source, nt := s.clk.nt, mcc := mcc s, replay := false }

section
variable {s : State} {code cls : Nat} (source : Nat) (words : List Word)

/-- In the hardware safe state a fault is counted, and nothing else happens. -/
theorem raiseFault_of_hwsafe (hcls : 1 ≤ cls) (hsafe : s.ft.hwsafe = true) : raiseFault s code cls source words = countFault s code cls := by
  rw [raiseFault, raiseFaultAt, if_neg (Nat.ne_of_gt hcls)]
  exact if_pos hsafe

section
variable (hcls : 1 ≤ cls) (hsafe : s.ft.hwsafe = false)
include hcls hsafe

/-- A fault that the vent path acts on directly leads to the hardware safe state. -/
theorem raiseFault_of_direct {c : Nat} (hd : directCause code = some c) :
    raiseFault s code cls source words = enterHwSafe (pendClass (countFault s code cls) cls) c := by
  rw [raiseFault, raiseFaultAt, if_neg (Nat.ne_of_gt hcls), hd]
  exact if_neg (ne_true_of_eq_false hsafe)

/-- While SAFE_ENTRY is set a further fault leads to the hardware safe state. -/
theorem raiseFault_of_entry {e : Nat} (hd : directCause code = none) (he : s.ft.entry = some e) :
    raiseFault s code cls source words = enterHwSafe (pendClass (countFault s code cls) cls) 6 := by
  have hset : (countFault s code cls).ft.entry.isSome = true := Option.isSome_of_eq_some he
  rw [raiseFault, raiseFaultAt, if_neg (Nat.ne_of_gt hcls), hd]
  exact (if_neg (ne_true_of_eq_false hsafe)).trans (if_pos hset)

/-- Any other fault enters the handling or the queue. -/
theorem raiseFault_of_handled (hd : directCause code = none) (he : s.ft.entry = none) :
    raiseFault s code cls source words =
      enqueueFault (entryBegun (countFault s code cls) code cls) (faultNow s code cls source words) := by
  have hentry : (countFault s code cls).ft.entry = none := he
  have hclear : ¬ (countFault s code cls).ft.entry.isSome = true := by simp [hentry]
  rw [raiseFault, raiseFaultAt, if_neg (Nat.ne_of_gt hcls), hd]
  refine (if_neg (ne_true_of_eq_false hsafe)).trans ((if_neg hclear).trans ?_)
  simp only [entryBegun, Bool.and_eq_true, Bool.not_eq_true', decide_eq_true_eq]
  rfl

end
end

/-- FAULT_RAISED raises its fault with the class of its code while the module runs. -/
theorem does_faultRaised {s t : State} {code cls : Nat} {words : List Word} (h : s.clk.running = true)
    (ht : raiseFault s code (faultClass s code cls) (sourceOf code) words = t) : Does (.faultRaised code cls words) s t := by
  rw [Does, exec_faultRaised, execFaultRaised, if_pos h, ht, done]

/-- Settles O28: a fault that is neither direct nor meets a SAFE entry enters the handling or the queue, and which of the two is read off both. -/
theorem faultsAreTakenByClass : Obligations.FaultsAreTakenByClass := by
  unfold Obligations.FaultsAreTakenByClass
  refine ⟨fun s code cls words h hsafe he hd hlo _ => ?_, fun s code cls => ⟨faultClass_of_halt s cls, faultClass_of_degrade s cls, ?safe,
    faultClass_of_warning s cls⟩, fun s n i cls r hn hr hi hact => faultClass_of_rule cls hn hr hi hact⟩
  case safe =>
    rintro rfl
    exact faultClass_of_safe s cls
  have hraise := raiseFault_of_handled (sourceOf code) words hlo hsafe hd he
  have hstack := stack_entryBegun (countFault s code (faultClass s code cls)) code (faultClass s code cls)
  have hqueue := queue_entryBegun (countFault s code (faultClass s code cls)) code (faultClass s code cls)
  have hovf := ovf_entryBegun (countFault s code (faultClass s code cls)) code (faultClass s code cls)
  have hlatch := ovfLatch_entryBegun (countFault s code (faultClass s code cls)) code (faultClass s code cls)
  refine ⟨fun hs => ?starts, fun g t hs hc => ?preempts, fun g t hs hc hq => ?waits, fun g t k hs hc hq hl => ?lost, fun g t hs hc hq hl => ?lostFirst⟩
  all_goals refine does_faultRaised h (hraise.trans ?_)
  case starts => exact enqueueFault_of_idle (hstack.trans hs)
  case preempts => exact enqueueFault_of_higher (hstack.trans hs) hc
  case waits =>
    rw [enqueueFault_of_room (hstack.trans hs) hc (hqueue ▸ hq), hqueue]
    rfl
  case lost =>
    rw [enqueueFault_of_full (hstack.trans hs) hc (hqueue ▸ hq), hlatch.trans hl, hovf]
    rfl
  case lostFirst =>
    rw [enqueueFault_of_full (hstack.trans hs) hc (hqueue ▸ hq), hlatch.trans hl, hovf]
    rfl

/-! The hardware safe state (09 R277, R278, R280). -/

/-- A class from WARNING on sets its bit of FLT_PEND and no other. -/
theorem pend_pendClass (s : State) {cls : Nat} (h : 2 ≤ cls) (b : Nat) :
    (pendClass s cls).ft.pend.testBit b = (s.ft.pend.testBit b || decide (b = cls - 1)) := by
  rw [pendClass, if_pos h, testBit_setBit_true, decide_eq_decide.mpr eq_comm]

theorem setPstate_of_ne {s : State} {p : Nat} (h : s.pwr.pstate ≠ p) :
    (setPstate s p).pwr.pstate = p ∧ (setPstate s p).pwr.ready = (s.pwr.ready && decide (2 ≤ p ∧ p ≤ 5)) := by
  rw [setPstate, if_neg h]
  exact ⟨rfl, rfl⟩

theorem pstate_setPstate (s : State) (p : Nat) : (setPstate s p).pwr.pstate = p := by
  by_cases h : s.pwr.pstate = p
  · rw [setPstate, if_pos h, h]
  · exact (setPstate_of_ne h).1

theorem ft_setPstate_of_no_beat {s : State} (h : s.ft.beat = none) (p : Nat) : (setPstate s p).ft = s.ft := by
  by_cases hp : s.pwr.pstate = p
  · rw [setPstate, if_pos hp]
  · have hft : (setPstate s p).ft = { s.ft with beat := s.ft.beat.map (fun _ => s.clk.nt) } := by
      rw [setPstate, if_neg hp]
      rfl
    rw [hft, h, Option.map_none, ← h]

/-- The fault state as the hardware safe state is entered: its cause, and no handling, queue or heartbeat left. -/
def Ft.toHwSafe (f : Ft) (cause : Nat) : Ft :=
  { f with hwsafe := true, hwCause := cause, hwNew := true, beat := none, entry := none, entryStep := 0, stack := [], queue := [], ovfLatch := none }

/-- The entry makes a state with that fault state and with nothing that waits for a power state, and then, outside HOLD, the power state HALT. -/
theorem enterHwSafe_eq {s : State} (hsafe : s.ft.hwsafe = false) (cause : Nat) : ∃ t : State,
    t.ft = s.ft.toHwSafe cause ∧ t.pwr = { s.pwr with sysResetAt := none, toState := none } ∧
    enterHwSafe s cause = if s.pwr.pstate = 6 then t else setPstate t 7 := by
  unfold enterHwSafe
  rw [if_neg (ne_true_of_eq_false hsafe)]
  dsimp only
  cases s.net.image <;> exact ⟨_, rfl, rfl, rfl⟩

section
variable {s : State} (hsafe : s.ft.hwsafe = false) (cause : Nat)
include hsafe

theorem ft_enterHwSafe : (enterHwSafe s cause).ft = s.ft.toHwSafe cause := by
  obtain ⟨t, hft, -, heq⟩ := enterHwSafe_eq hsafe cause
  have hbeat : t.ft.beat = none := by rw [hft]; rfl
  rw [heq, apply_ite State.ft, ft_setPstate_of_no_beat hbeat, ite_self, hft]

theorem pstate_enterHwSafe : (enterHwSafe s cause).pwr.pstate = if s.pwr.pstate = 6 then 6 else 7 := by
  obtain ⟨t, -, hpwr, heq⟩ := enterHwSafe_eq hsafe cause
  rw [heq]
  split
  case isTrue h => rw [hpwr, h]
  case isFalse => exact pstate_setPstate t 7

/-- A power state that changes to HALT clears READY. -/
theorem ready_enterHwSafe (h6 : s.pwr.pstate ≠ 6) (h7 : s.pwr.pstate ≠ 7) : (enterHwSafe s cause).pwr.ready = false := by
  obtain ⟨t, -, hpwr, heq⟩ := enterHwSafe_eq hsafe cause
  have ht : t.pwr.pstate ≠ 7 := by rw [hpwr]; exact h7
  rw [heq, if_neg h6, (setPstate_of_ne ht).2]
  exact Bool.and_false _

end

/-! What leads to the hardware safe state directly (01 R23; 09 R277, Table 9-7). -/

theorem does_safeEntryWatchdog {s : State} {t : Nat} (he : s.ft.entry = some t) :
    Does .safeEntryWatchdog s (enterHwSafe (pendClass (countFault (advanceTo s (t + 100)) 0x0107 5) 5) 7) := by
  rw [Does, exec_safeEntryWatchdog, execSafeEntryWatchdog, he]
  rfl

section
variable {s : State} (h : s.clk.running = true) (hsafe : s.ft.hwsafe = false)
include h hsafe

theorem does_clockLoss_ref (href : s.clk.refOk = true) : Does (.clockLoss false) s
    (enterHwSafe (pendClass (countFault { s with clk := { s.clk with refOk := false } } 0x0101 5) 5) 1) := by
  have hboth : (s.clk.running && s.clk.refOk) = true := by rw [h, href]; rfl
  rw [Does, exec_clockLoss, execClockLoss, if_neg Bool.false_ne_true]
  refine congrArg done ((if_pos hboth).trans (raiseFault_of_direct 0 [] (by omega) ?_ rfl))
  exact hsafe

theorem does_clockLoss_pll (hpll : s.clk.pllOk = true) : Does (.clockLoss true) s
    (enterHwSafe (pendClass (countFault { s with clk := { s.clk with pllOk := false } } 0x0102 5) 5) 2) := by
  have hboth : (s.clk.running && s.clk.pllOk) = true := by rw [h, hpll]; rfl
  rw [Does, exec_clockLoss, execClockLoss, if_pos rfl]
  refine congrArg done ((if_pos hboth).trans (raiseFault_of_direct 0 [] (by omega) ?_ rfl))
  exact hsafe

theorem does_lockstepMismatch : Does .lockstepMismatch s (enterHwSafe (pendClass (countFault s 0x0103 5) 5) 3) := by
  rw [Does, exec_lockstepMismatch, execLockstepMismatch, if_pos h, raiseFault_of_direct 0 [] (by omega) hsafe rfl, done]

end

/-- Settles O29: the causes are those of a raised fault, the entry says what it changes, and in the hardware safe state only the count is left. -/
theorem theHardwareSafeStateIsEnteredAndOnlyCounts : Obligations.TheHardwareSafeStateIsEnteredAndOnlyCounts := by
  unfold Obligations.TheHardwareSafeStateIsEnteredAndOnlyCounts
  refine ⟨fun s code cls t words h hsafe he hd hlo => does_faultRaised h (raiseFault_of_entry _ words hlo hsafe hd he),
    fun s t he => does_safeEntryWatchdog he,
    fun s h hsafe => ⟨does_clockLoss_ref h hsafe, does_clockLoss_pll h hsafe, does_lockstepMismatch h hsafe⟩,
    fun s cls b h => pend_pendClass s h b, fun s cause hsafe => ?entry,
    fun s code cls words h hsafe hlo _ => does_faultRaised h (raiseFault_of_hwsafe _ words hlo hsafe)⟩
  case entry =>
    rw [ft_enterHwSafe hsafe, pstate_enterHwSafe hsafe]
    exact ⟨rfl, rfl, rfl, fun h => if_neg h, ready_enterHwSafe hsafe cause, fun h => if_pos h⟩

end Sys2Proof.Machine
end

section
/-! PROOFS. The handling of faults: SAFE entries step by step, heartbeats, poisoned reads, the exit from the SAFE fault, and O30 assembled from them. -/
namespace Sys2Proof.Machine

/-! The handling in progress (09 R276, Table 9-8). -/

section
variable {s : State} {f : FaultItem} {t : List FaultItem}

theorem does_faultHandling_completes (hs : s.ft.stack = f :: t) (h : entryGoesOn s f = false) :
    Does .faultHandling s (handledHead (handleFault s f)) := by
  rw [Does, exec_faultHandling, execFaultHandling, hs]
  exact congrArg done (if_neg (ne_true_of_eq_false h))

theorem does_faultHandling_steps (hs : s.ft.stack = f :: t) (h : entryGoesOn s f = true) : Does .faultHandling s (safeEntryStep s) := by
  rw [Does, exec_faultHandling, execFaultHandling, hs]
  exact congrArg done (if_pos h)

/-- A fault of another class, one that meets no entry, and one whose entry has made step 3 have no step to come. -/
theorem entryGoesOn_eq_false (h : f.cls ≠ 4 ∨ s.ft.entry = none ∨ 3 ≤ s.ft.entryStep) : entryGoesOn s f = false := by
  rcases h with hcls | hentry | hstep
  · simp [entryGoesOn, hcls]
  · simp [entryGoesOn, hentry]
  · simp [entryGoesOn, Nat.not_lt.mpr hstep]

theorem entryGoesOn_of_step {e : Nat} (hcls : f.cls = 4) (he : s.ft.entry = some e) (hstep : s.ft.entryStep < 3) : entryGoesOn s f = true := by
  simp [entryGoesOn, hcls, he, hstep]

end

theorem safeEntryStep_of_first {s : State} (h : s.ft.entryStep = 1) :
    safeEntryStep s = { s with vn := { s.vn with fs := 2 ^ 64 - 1 }, ft := { s.ft with entryStep := 2 } } := if_pos h

theorem safeEntryStep_of_second {s : State} (h : s.ft.entryStep = 2) :
    safeEntryStep s = { s with ft := { s.ft with safe := true, entryStep := 3 } } := if_neg (by omega)

/-! Heartbeats (09 R278). -/

theorem does_heartbeat {s : State} (h : beats s = true) : Does .heartbeat s
    (let u := match s.ft.beat with | some b => advanceTo s (b + 1000000) | none => s
     { u with ft := { u.ft with beat := some u.clk.nt } }) := by
  have hbeats : ¬ (!beats s) = true := by simp [h]
  rw [Does, exec_heartbeat, execHeartbeat, if_neg hbeats]
  rfl

/-- In RUN there are no heartbeats of the power state's own. -/
theorem beats_of_inRun {s : State} (h : inRun s = true) : beats s = false := by
  have hp : s.pwr.pstate = 3 := by simpa [inRun] using h
  simp [beats, hp]

section
variable {s : State} {b : Nat} (hb : s.ft.beat = some b)
include hb

theorem does_supWdog_of_beats (h : beats s = true) : Does .supWdog s (raiseFault (advanceTo s (b + 2000000)) 0x0106 5 0 []) := by
  rw [Does, exec_supWdog, execSupWdog, hb]
  exact if_pos h

theorem does_supWdog_of_inRun (h : inRun s = true) (hsafe : s.ft.hwsafe = false) :
    Does .supWdog s (raiseFault (advanceTo s (b + 2 * cycleLen s)) 0x0106 5 0 []) := by
  have hrun : (inRun s && !s.ft.hwsafe) = true := by simp [h, hsafe]
  rw [Does, exec_supWdog, execSupWdog, hb]
  exact (if_neg (ne_true_of_eq_false (beats_of_inRun h))).trans (if_pos hrun)

end

/-! Scrubbing and poisoned reads (01 R28, R29; 09 Table 9-7). -/

/-- A scrub pass counts three free numbers (notes/assumptions/103). -/
theorem does_scrubPass {s : State} (h : s.clk.running = true) : Does .scrubPass s (countCorrected s) := by
  rw [Does, exec_scrubPass, execScrubPass, if_pos h, done]

/-- A poisoned read is taken by its reader while the module runs. -/
theorem does_poisonedRead {s t : State} {reader : Reader} {addr : Nat} (h : s.clk.running = true) (ht : poisoned s reader addr = t) :
    Does (.poisonedRead reader addr) s t := by
  rw [Does, exec_poisonedRead, execPoisonedRead, if_pos h, ht, done]

section
variable (s : State) {addr : Nat}

theorem poisoned_cycleEngine {core : Nat} (h : core < 4) : poisoned s (.cycleEngine core) addr = poisonCentral s core addr := if_pos h

theorem poisoned_meteringDsp {channel : Nat} (hc : channel < 48) (hd : dspRuns s = true) :
    poisoned s (.meteringDsp channel) addr = poisonSample s channel addr := by
  have hin : ¬ 48 ≤ channel := by omega
  simp [poisoned, hd, hin]

theorem poisoned_hostDma {mb : Nat} (ht : transferring s mb = true) (hu : (box s mb).uploads = false) :
    poisoned s (.hostDma mb) addr = drew (stopTransfer s mb 4 (dmaMoved s mb)) := by
  simp [poisoned, ht, hu]

end

/-! The exit from the SAFE fault (09 R276). -/

/-- The request of an exit is taken. -/
def exitTaken (s : State) : State := { s with ft := { s.ft with safeExit := false } }

/-- An exit that is due is decided on the state without its request. -/
theorem exec_safeExitDecision_of_due {s : State} (hreq : s.ft.safeExit = true) (he : s.ft.entry = none) (hsafe : s.ft.hwsafe = false)
    (hinst : exitInstant s = true) : exec .safeExitDecision s =
      if !s.ft.safe then done (exitTaken s)
      else if safeCausePresent (exitTaken s) then
        done (record { exitTaken s with ft := { (exitTaken s).ft with exitRefused := true } } 0x01B1 0 [1])
      else done (record (settleSets { exitTaken s with ft := { (exitTaken s).ft with safe := false } }) 0x01B1 0 [0]) := by
  have hdue : ¬ (!s.ft.safeExit || s.ft.entry.isSome || s.ft.hwsafe || !exitInstant s) = true := by simp [hreq, he, hsafe, hinst]
  rw [exec_safeExitDecision]
  exact if_neg hdue

/-- Settles O30: each command does what its lemma says, once its conditions hold. -/
theorem handlingsHeartbeatsAndTheSafeExit : Obligations.HandlingsHeartbeatsAndTheSafeExit := by
  unfold Obligations.HandlingsHeartbeatsAndTheSafeExit
  refine ⟨fun s f t hs h => does_faultHandling_completes hs (entryGoesOn_eq_false h),
    fun s f t e hs hcls he => ⟨fun hstep => ?first, fun hstep => ?second⟩,
    fun s h => does_heartbeat h, fun s b hb h => does_supWdog_of_beats hb h, fun s b hb h hsafe => does_supWdog_of_inRun hb h hsafe,
    fun s h => ⟨_, _, _, does_scrubPass h⟩, fun s addr h => ⟨does_poisonedRead h rfl, does_poisonedRead h rfl,
      fun core hc => does_poisonedRead h (poisoned_cycleEngine s hc), does_poisonedRead h rfl,
      fun channel hc hd => does_poisonedRead h (poisoned_meteringDsp s hc hd),
      fun slot hx => ⟨does_poisonedRead h (if_pos hx), does_poisonedRead h (if_pos hx), does_poisonedRead h (if_pos hx)⟩,
      fun mb ht hu => does_poisonedRead h (poisoned_hostDma s ht hu), fun hp => does_poisonedRead h (if_pos hp)⟩,
    fun s h => does_of_running (exec_safeExit s) h,
    fun s hreq he hsafe hinst => ?exit⟩
  case first =>
    rw [← safeEntryStep_of_first hstep]
    exact does_faultHandling_steps hs (entryGoesOn_of_step hcls he (by omega))
  case second =>
    rw [← safeEntryStep_of_second hstep]
    exact does_faultHandling_steps hs (entryGoesOn_of_step hcls he (by omega))
  case exit =>
    have hdecided := exec_safeExitDecision_of_due hreq he hsafe hinst
    refine ⟨fun hno => ?noFault, fun hin hcause => ?refused, fun hin hcause => ?ends⟩
    case noFault => exact hdecided.trans (if_pos (by simp [hno]))
    case refused => exact hdecided.trans ((if_neg (by simp [hin])).trans (if_pos hcause))
    case ends => exact hdecided.trans ((if_neg (by simp [hin])).trans (if_neg (ne_true_of_eq_false hcause)))

end Sys2Proof.Machine
end

section
/-! PROOFS. The metering commands of mailboxes: a part without electrical metering refuses every one of them, and each command's answers on QG64-M40, from which O45 is assembled. -/
namespace Sys2Proof.Machine

/-! A metering command that is taken (10 R310). -/

section
variable {c : Instr} {s t : State} {mb code : Nat} {k : Mailbox → State}

/-- On a part with electrical metering a metering command does, once taken, what its meaning makes of the mailbox. -/
theorem does_of_metering (h : Taken s mb code) (hm : s.part.m40 = true) (hc : exec c s = runMeter s mb code k) (ht : k (box s mb) = t) :
    Does c s t :=
  does_of_taken h hc ((if_pos hm).trans ht)

/-- A metering command whose meaning is a refusal is refused, once taken. -/
theorem refuses_of_metering {status : Nat} (h : Taken s mb code) (hm : s.part.m40 = true) (hc : exec c s = runMeter s mb code k)
    (ht : k (box s mb) = refuse s mb status) : Refuses c s mb status :=
  does_of_metering h hm hc ht

/-- On a part without electrical metering a metering command is not permitted. -/
theorem refuses_of_no_metering (h : Taken s mb code) (hm : s.part.m40 = false) (hc : exec c s = runMeter s mb code k) :
    Refuses c s mb 0x8006 :=
  refuses_of_taken h hc (if_neg (ne_true_of_eq_false hm))

end

/-! The commands of electrical metering among those of the mailboxes (13 Table 13-11). -/

/-- The commands with the codes 0x0700 to 0x073F. -/
def meterRows : List (Nat × (Nat → Instr)) :=
  [(0x0701, .mtrRead), (0x0702, .mtrReadSigned), (0x0703, .mtrRecord), (0x0704, .mtrLoss), (0x0705, .mtrAckLoss),
   (0x0710, .mtrCalBegin), (0x0711, .mtrCalSet), (0x0712, .mtrCalMeasure), (0x0713, .mtrCalCommit), (0x0714, .mtrCalCancel),
   (0x0720, .mtrWatchRead), (0x0721, .mtrWatchClear)]

theorem filter_mailboxRows_metering : mailboxRows.filter (fun row => decide (0x0700 ≤ row.1 ∧ row.1 ≤ 0x073F)) = meterRows := rfl

/-- Every metering command is the run of a metering command, MTR_READ where none of its mailbox waits. -/
theorem runs_meterRows {s : State} (mb : Nat) (hreads : s.mt.reads.any (fun r => r.1 == mb) = false) :
    ∀ row ∈ meterRows, ∃ k, exec (row.2 mb) s = runMeter s mb row.1 k := by
  simp only [meterRows, List.forall_mem_cons]
  exact ⟨⟨_, (exec_mtrRead mb s).trans (if_neg (ne_true_of_eq_false hreads))⟩, ⟨_, exec_mtrReadSigned mb s⟩, ⟨_, exec_mtrRecord mb s⟩,
    ⟨_, exec_mtrLoss mb s⟩, ⟨_, exec_mtrAckLoss mb s⟩, ⟨_, exec_mtrCalBegin mb s⟩, ⟨_, exec_mtrCalSet mb s⟩,
    ⟨_, exec_mtrCalMeasure mb s⟩, ⟨_, exec_mtrCalCommit mb s⟩, ⟨_, exec_mtrCalCancel mb s⟩, ⟨_, exec_mtrWatchRead mb s⟩,
    ⟨_, exec_mtrWatchClear mb s⟩, List.forall_mem_nil _⟩

/-- Settles O45: each command is the run of its meaning on a mailbox that is taken, and each clause one branch of that meaning. -/
theorem meteringCommandsAnswer : Obligations.MeteringCommandsAnswer := by
  unfold Obligations.MeteringCommandsAnswer
  refine ⟨fun s mb row hrow hlo hhi h hm hreads => ?noMetering,
    fun s mb h hm hreads => ?read,
    fun s mb h hm => ⟨fun hp => ?signedOperand, fun h1 h12 hno => ?signedNotPermitted, fun h1 h12 hk hu hbad => ?signedKeyBad,
      fun h1 h12 hk hu hok => ?signed⟩,
    fun s mb h hm => ⟨fun hn => ?recordNone, fun b hb => ?record⟩,
    fun s mb h hm => ?loss, fun s mb h hm => ?ackLoss,
    fun s mb h hm => ⟨fun hmask => ?beginOperand, fun h1 h2 hcol => ?beginCollides, fun h1 h2 hfree hun => ?beginUnused,
      fun h1 h2 hfree hun => ?begins⟩,
    fun s mb h hm => ⟨fun hbad => ?setOperand, fun hc he hno => ?setNotPermitted, fun hc he hr hch => ?sets⟩,
    fun s mb h hm => ⟨fun hbad => ?measureOperand, fun h1 h2 h3 h4 hno => ?measureNotPermitted, fun h1 h2 h3 h4 hr hmask => ?measure⟩,
    fun s mb h hm => ⟨fun hno => ?commitNotPermitted, fun hr hctr hv => ?commitHoldLow, fun hr hctr hv => ?commit⟩,
    fun s mb h hm => ⟨fun hr => ?cancelNotPermitted, fun hr => ?cancel⟩,
    fun s mb h hm => ?watchRead, fun s mb h hm => ?watchClear⟩
  case noMetering =>
    have hmem : row ∈ meterRows := by
      rw [← filter_mailboxRows_metering, List.mem_filter]
      exact ⟨hrow, decide_eq_true ⟨hlo, hhi⟩⟩
    obtain ⟨k, hk⟩ := runs_meterRows (s := s) mb (by simp [hreads]) row hmem
    exact refuses_of_no_metering h hm hk
  case read =>
    have hexec := (exec_mtrRead mb s).trans (if_neg (ne_true_of_eq_false hreads))
    refine ⟨fun hp => ?operand, fun h1 h12 hu => ?unused, fun h1 h12 hu => ?waits⟩
    case operand => exact refuses_of_metering (status := stBadParameter) h hm hexec (if_pos hp)
    case unused =>
      exact refuses_of_metering (status := stNotPermitted) h hm hexec ((if_neg (by omega)).trans (if_pos (by simp [hu])))
    case waits => exact does_of_metering h hm hexec ((if_neg (by omega)).trans (if_neg (by simp [hu])))
  case signedOperand => exact refuses_of_metering (status := stBadParameter) h hm (exec_mtrReadSigned mb s) (if_pos hp)
  case signedNotPermitted =>
    exact refuses_of_metering (status := stNotPermitted) h hm (exec_mtrReadSigned mb s)
      ((if_neg (by omega)).trans (if_pos (by simpa using hno)))
  case signedKeyBad =>
    exact refuses_of_metering (status := stKeyBad) h hm (exec_mtrReadSigned mb s)
      ((if_neg (by omega)).trans ((if_neg (by simp [hk, hu])).trans (if_pos hbad)))
  case signed =>
    exact does_of_metering h hm (exec_mtrReadSigned mb s) 
      ((if_neg (by omega)).trans ((if_neg (by simp [hk, hu])).trans (if_neg (ne_true_of_eq_false hok))))
  case recordNone => exact refuses_of_metering (status := stNotReady) h hm (exec_mtrRecord mb s) (by simp [hn])
  case record => exact does_of_metering h hm (exec_mtrRecord mb s) (by simp [hb])
  case loss => exact does_of_metering h hm (exec_mtrLoss mb s) rfl
  case ackLoss => exact does_of_metering h hm (exec_mtrAckLoss mb s) rfl
  case beginOperand => exact refuses_of_metering (status := stBadParameter) h hm (exec_mtrCalBegin mb s) (if_pos hmask)
  case beginCollides =>
    exact refuses_of_metering (status := stConflict) h hm (exec_mtrCalBegin mb s) ((if_neg (by omega)).trans (if_pos hcol))
  case beginUnused =>
    exact refuses_of_metering (status := stNotPermitted) h hm (exec_mtrCalBegin mb s)
      ((if_neg (by omega)).trans ((if_neg (ne_true_of_eq_false hfree)).trans (if_pos hun)))
  case begins =>
    exact does_of_metering h hm (exec_mtrCalBegin mb s)
      ((if_neg (by omega)).trans ((if_neg (ne_true_of_eq_false hfree)).trans (if_neg (ne_true_of_eq_false hun))))
  case setOperand =>
    exact refuses_of_metering (status := stBadParameter) h hm (exec_mtrCalSet mb s) (if_pos (by simpa using hbad))
  case setNotPermitted =>
    exact refuses_of_metering (status := stNotPermitted) h hm (exec_mtrCalSet mb s) (by simp [Nat.not_le.mpr hc, he, hno])
  case sets => exact does_of_metering h hm (exec_mtrCalSet mb s) (by simp [Nat.not_le.mpr hc, he, hr, hch])
  case measureOperand => exact refuses_of_metering (status := stBadParameter) h hm (exec_mtrCalMeasure mb s) (if_pos hbad)
  case measureNotPermitted =>
    exact refuses_of_metering (status := stNotPermitted) h hm (exec_mtrCalMeasure mb s)
      ((if_neg (by omega)).trans (if_pos (by simpa [bit] using hno)))
  case measure =>
    exact does_of_metering h hm (exec_mtrCalMeasure mb s) ((if_neg (by omega)).trans (if_neg (by simp [bit, hr, hmask])))
  case commitNotPermitted =>
    exact refuses_of_metering (status := stNotPermitted) h hm (exec_mtrCalCommit mb s) (if_pos (by simpa using hno))
  case commitHoldLow =>
    exact refuses_of_metering (status := stHoldLow) h hm (exec_mtrCalCommit mb s) ((if_neg (by simp [hr, hctr])).trans (if_pos hv))
  case commit =>
    exact does_of_metering h hm (exec_mtrCalCommit mb s) ((if_neg (by simp [hr, hctr])).trans (if_neg (by omega)))
  case cancelNotPermitted =>
    exact refuses_of_metering (status := stNotPermitted) h hm (exec_mtrCalCancel mb s) (if_pos (by simp [hr]))
  case cancel => exact does_of_metering h hm (exec_mtrCalCancel mb s) (if_neg (by simp [hr]))
  case watchRead => exact does_of_metering h hm (exec_mtrWatchRead mb s) rfl
  case watchClear => exact does_of_metering h hm (exec_mtrWatchClear mb s) rfl

end Sys2Proof.Machine
end

section
/-! PROOFS. The tick end: its instant, the sums of a tick, what a tick end does after its energies, SNAP and RELEASE, and O31 assembled from them. -/
namespace Sys2Proof.Machine

/-! Lists by number. -/

/-- An entry of a list that is made for the numbers below `n`. -/
theorem nth_map_range {α : Type} (d : α) (f : Nat → α) {n i : Nat} (h : i < n) : nth d ((List.range n).map f) i = f i := by
  simp [nth, h]

/-! The instant of a tick end (10 R292). -/

/-- A tick end lies after the one before. -/
theorem tickNt_lt_nextTickEnd (s : State) : s.mt.tickNt < nextTickEnd s := by
  unfold nextTickEnd
  dsimp only
  split <;> omega

/-- Once NT has passed a tick end, the next is the first multiple of 10,000 µs that NT has not passed. -/
theorem nextTickEnd_of_lt {s : State} (h : s.mt.tickNt < s.clk.nt) : nextTickEnd s = (s.clk.nt + 9999) / 10000 * 10000 :=
  if_neg (by omega)

/-! The sums of a tick (10 R288, R291). -/

/-- The last sample of a channel: the one taken, or the one before where its word was poisoned. -/
theorem sLast_sampleRow (s : State) (raw : List Nat) {c : Nat} (h : c < 48) :
    nth 0 (sampleRow s raw).mt.sLast c = if s.mt.poisonNext.contains c then nth 0 s.mt.sLast c else nth 0 raw c % 2 ^ 24 :=
  nth_map_range 0 _ h

/-- The end of a tick gives the root mean square of each channel. -/
theorem rms_closeTick (s : State) {c : Nat} (h : c < 48) : nth 0 (closeTick s).mt.rms c = rootMean (nth 0 s.mt.tickSq c) s.mt.tickN :=
  nth_map_range 0 _ h

/-- The end of a tick gives the energy of each point. -/
theorem tickEnergy_closeTick (s : State) {m : Nat} (h : m < 12) :
    tickEnergy (closeTick s) m = binary64.div (nth 0 s.mt.tickUI (4 * m + 3)) (binary64.ofInt 8000 0) :=
  nth_map_range 0 _ h

/-! What a tick end does after its energies (10 R294, R298, R299, R303, R311). -/

/-- The view is updated unless it is frozen (R298, R299). -/
def viewUpdated (s : State) : State := if s.mt.frozen = true ∧ s.mt.snapReq = false then s else takeView s

/-- The view freezes where SNAP waits (R299). -/
def snapServed (s : State) : State := if s.mt.snapReq then { s with mt := { s.mt with frozen := true, snapReq := false } } else s

/-- A periodic save falls due at a multiple of SAVE_PERIOD (R303). -/
def saveFallsDue (s : State) : State :=
  if (meterPar s 0x0780).toNat * 1000000 ≠ 0 ∧ s.mt.tickNt % ((meterPar s 0x0780).toNat * 1000000) = 0 ∧ s.mt.tailing = false ∧
      3 ≤ s.pwr.pstate ∧ s.pwr.pstate ≤ 5
  then { s with mt := { s.mt with saveDue := true } } else s

theorem viewUpdated_eq (s : State) : viewUpdated s = if s.mt.frozen && !s.mt.snapReq then s else takeView s := by simp [viewUpdated]

theorem saveFallsDue_eq (s : State) : saveFallsDue s =
    let save := (meterPar s 0x0780).toNat * 1000000
    if save ≠ 0 ∧ s.mt.tickNt % save = 0 ∧ !s.mt.tailing ∧ 3 ≤ s.pwr.pstate ∧ s.pwr.pstate ≤ 5 then
      { s with mt := { s.mt with saveDue := true } } else s := by simp only [saveFallsDue, Bool.not_eq_true']

/-- The steps of a tick end after its energies, in their order. -/
theorem afterTick_eq (s : State) :
    afterTick s = saveFallsDue (tickReads (tickReadings (snapServed (viewUpdated ((List.range 12).foldl unmetPoint s))))) := by
  unfold afterTick
  extract_lets counted viewed src served read save
  have hviewed : viewed = viewUpdated counted := (viewUpdated_eq counted).symm
  have hserved : served = snapServed viewed := rfl
  have hread : read = tickReads (tickReadings served) := rfl
  rw [← hviewed, ← hserved, ← hread, saveFallsDue_eq]

/-! METER_TICK, with and without electrical metering (10 R293, R315). -/

section
variable {s : State} {samples : List (List Nat)} {poisoned : List (Nat × Nat × Nat)}

/-- The DSP runs on a part with electrical metering alone. -/
theorem m40_of_dspRuns (h : dspRuns s = true) : s.part.m40 = true := by
  simp only [dspRuns, Bool.and_eq_true] at h
  obtain ⟨⟨hm, _⟩, _⟩ := h
  exact hm

/-- The samples of a tick and its energies, then the rest of the tick end, then the parameters of a commit. -/
theorem does_meterTick (h : dspRuns s = true) :
    let a := closeTick (takeSamples (advanceTo s (nextTickEnd s)) samples poisoned)
    let b := { a with mt := { a.mt with tickNt := nextTickEnd s, regsWas := a.mt.regs } }
    Does (.meterTick samples poisoned) s (paramsAtTick (afterTick (pendingCycles ((metered b).foldl tickPoint b)))) := by
  have hpart : ¬ (!s.part.m40 && s.clk.running) = true := by simp [m40_of_dspRuns h]
  have hruns : ¬ (!dspRuns s) = true := by simp [h]
  exact (exec_meterTick samples poisoned s).trans ((if_neg hpart).trans (if_neg hruns))

/-- Without electrical metering a tick end is the instant at which parameters of a commit take effect. -/
theorem does_meterTick_of_no_metering (hm : s.part.m40 = false) (h : s.clk.running = true) :
    Does (.meterTick samples poisoned) s
      (paramsAtTick { advanceTo s (nextTickEnd s) with mt := { s.mt with tickNt := nextTickEnd s } }) := by
  have hcond : (!s.part.m40 && s.clk.running) = true := by simp [hm, h]
  rw [← advanceTo_mt s (nextTickEnd s)]
  exact (exec_meterTick samples poisoned s).trans (if_pos hcond)

end

/-! SNAP and RELEASE (10 R299). -/

section
variable {s : State} (hm : s.part.m40 = true) (h : s.clk.running = true)
include hm h

theorem does_mtrSnap : Does .mtrSnap s (snapView s) := by
  have hsnap : writeMtrCtrl s 1 = snapView s := if_neg (by simp [hm])
  exact hsnap ▸ does_of_running (exec_mtrSnap s) h

theorem does_mtrRelease : Does .mtrRelease s (releaseView s) := by
  have hrelease : writeMtrCtrl s 2 = releaseView s := if_neg (by simp [hm])
  exact hrelease ▸ does_of_running (exec_mtrRelease s) h

end

/-- Settles O31: the steps of a tick end are those of its meaning, and each entry of a sum is that of its channel or point. -/
theorem aTickEndAccumulatesAndShows : Obligations.ATickEndAccumulatesAndShows := by
  unfold Obligations.ATickEndAccumulatesAndShows
  refine ⟨fun s samples poisoned h => ?tick, fun s samples poisoned hm h => does_meterTick_of_no_metering hm h,
    fun s => ⟨tickNt_lt_nextTickEnd s, fun h => ?instant⟩, fun s raw c hc => ⟨sLast_sampleRow s raw hc, rfl⟩,
    fun s c m hc hm => ⟨rms_closeTick s hc, tickEnergy_closeTick s hm⟩,
    fun s hm h => ⟨does_mtrSnap hm h, does_mtrRelease hm h⟩⟩
  case tick =>
    intro a b c d e g h'
    have hc : c = (List.range 12).foldl unmetPoint (pendingCycles ((metered b).foldl tickPoint b)) := rfl
    have hd : d = viewUpdated c := rfl
    have he : e = snapServed d := rfl
    have hg : g = tickReads (tickReadings e) := rfl
    have hh : h' = saveFallsDue g := rfl
    have hafter : afterTick (pendingCycles ((metered b).foldl tickPoint b)) = h' := by rw [afterTick_eq, ← hc, ← hd, ← he, ← hg, ← hh]
    have htick : Does (.meterTick samples poisoned) s (paramsAtTick (afterTick (pendingCycles ((metered b).foldl tickPoint b)))) :=
      does_meterTick h
    rw [hafter] at htick
    exact htick
  case instant =>
    rw [nextTickEnd_of_lt h]
    omega

end Sys2Proof.Machine
end

section
/-! PROOFS. What a fold over a list leaves of one thing that it works on: all of it where no step changes it, and one step's change where one step alone does. -/
namespace Sys2Proof.Machine

section
variable {α β γ κ : Type} {f : α → β → α} {g : α → γ} {l : List β}

/-- What no step changes, a fold leaves as it was. -/
theorem foldl_keeps (h : ∀ t, ∀ i ∈ l, g (f t i) = g t) (t : α) : g (l.foldl f t) = g t :=
  List.foldlRecOn (motive := fun u => g u = g t) l f rfl fun u hu i hi => (h u i hi).trans hu

/-- What the step of one key alone changes, a fold over distinct keys changes as that step does. -/
theorem foldl_changes_once (key : β → κ) {v : γ → γ} {i : β} (hl : l.Pairwise fun a b => key a ≠ key b) (hi : i ∈ l)
    (hown : ∀ t, g (f t i) = v (g t)) (hother : ∀ t, ∀ j ∈ l, key j ≠ key i → g (f t j) = g t) (t : α) : g (l.foldl f t) = v (g t) := by
  induction l generalizing t with
  | nil => simp at hi
  | cons a rest ih =>
    obtain ⟨ha, hrest⟩ := List.pairwise_cons.mp hl
    rw [List.foldl_cons]
    rcases List.mem_cons.mp hi with rfl | hmem
    · rw [foldl_keeps fun u j hj => hother u j (List.mem_cons_of_mem _ hj) (Ne.symm (ha j hj)), hown]
    · rw [ih hrest hmem fun u j hj => hother u j (List.mem_cons_of_mem _ hj), hother t a List.mem_cons_self (ha i hmem)]

end

end Sys2Proof.Machine
end

section
/-! PROOFS. Periodic saves, the metering stop and the watch in BACKUP: what each command does under its conditions, what a second adds to the watch's totals, and O33 assembled from them. -/
namespace Sys2Proof.Machine

/-! Periodic saves (10 R303, 11 R327). -/

/-- A save that is due writes an energy record and a heat record. -/
theorem does_periodicSave {s : State} (hm : s.part.m40 = true) (hruns : dspRuns s = true) (hsafe : s.ft.hwsafe = false)
    (hdue : s.mt.saveDue = true) (htail : s.mt.tailing = false) :
    let u := { s with mt := { s.mt with saveDue := false, saveNt := s.mt.tickNt } }
    Does .periodicSave s (writeHeat (writeEnergy u 1 s.mt.tickNt true) 1 s.mt.tickNt true) :=
  (exec_periodicSave s).trans ((if_pos hm).trans (if_pos (by simp [hruns, hsafe, hdue, htail])))

/-- Without electrical metering a save writes a heat record alone. -/
theorem does_periodicSave_of_no_metering {s : State} (hm : s.part.m40 = false) (hclk : s.clk.running = true) (hsafe : s.ft.hwsafe = false)
    (hlo : 3 ≤ s.pwr.pstate) (hhi : s.pwr.pstate ≤ 5) :
    Does .periodicSave s (writeHeat (advanceTo s (nextSave s)) 1 (advanceTo s (nextSave s)).clk.nt true) :=
  (exec_periodicSave s).trans ((if_neg (ne_true_of_eq_false hm)).trans (if_pos (by simp [hclk, hsafe, hlo, hhi])))

/-! The metering stop (10 R305). -/

/-- In a hold sequence in which metering runs, the tick and the cycles in progress are closed and the tail record goes to its page. -/
theorem does_meteringStop {s : State} {h : Hold} (hhold : s.pwr.hold = some h) (hmet : h.metering = true) :
    let a := if failStores s then advanceTo s (s.mt.tailStart + 15000) else s
    let b := openCycles (pendingCycles (restOfTick a))
    let c := { b with
      pwr := { b.pwr with hold := some { h with metering := false } }
      mt := { b.mt with tailUs := Nat.min 15000 (b.clk.nt - b.mt.tailStart) } }
    let d := ownerWrite c { page := 5, off := 0, bytes := tailBody c, head := { fmt := 1, len := (tailBody c).length, w0 := 0, w1 := 0, w2 := 0 }, store := false }
    Does .meteringStop s (requestStores d [5] .powerFail) := by
  rw [Does, exec_meteringStop, execMeteringStop, hhold]
  exact if_neg (by simp [hmet])

/-! The watch (10 R312, R313). -/

section
variable {s : State} {t : Nat} (hp : s.pwr.pstate = 1) (hw : s.pwr.watchStart = some t) (hosc : s.rtc.oscFail = false)
include hp hw hosc

/-- At a second of the RTC every watched point takes its samples. -/
theorem does_watchSecond (samples : List (List (List Nat))) :
    let u := runToTick s ((s.rtc.tick / 32768 + 1) * 32768)
    let v := { u with mt := { u.mt with watchEnd := u.rtc.tick } }
    Does (.watchSecond samples) s (((watchedPoints v).zip samples).foldl (fun s x => watchPoint s x.1 x.2) v) :=
  (exec_watchSecond samples s).trans (if_neg (by simp [hp, hw, hosc]))

/-- The watch ends at its limit, and the module is in OFF. -/
theorem does_watchLimit (hlimit : watchLimitTicks s ≠ 0) :
    let u := runToTick s (t + watchLimitTicks s)
    Does .watchLimit s { u with pwr := { u.pwr with pstate := 0, watchStart := none }, mt := { u.mt with watchEnd := u.rtc.tick } } := by
  rw [Does, exec_watchLimit, execWatchLimit, hp, hw]
  exact if_neg (by simp [hlimit, hosc])

end

/-- A record that enters the ring leaves the totals. -/
theorem watchTotals_pushWatch (s : State) (b : Bytes) : (pushWatch s b).mt.watchTotals = s.mt.watchTotals := by
  unfold pushWatch
  split <;> rfl

/-- A phase's second enters its total. -/
def addWatchTotal (s : State) (m : Nat) (x : List (List Nat)) (t : NMap Nat) (p : Nat) : NMap Nat :=
  setD 0 t (3 * m + p) (satAdd 32 (getD 0 t (3 * m + p)) (ampereSeconds (watchIrms s (currCh m p) (nth [] x p))))

/-- The second of a watched point enters the totals of its phases, whether or not it leaves a record. -/
theorem watchTotals_watchPoint (s : State) (m : Nat) (x : List (List Nat)) :
    (watchPoint s m x).mt.watchTotals = [0, 1, 2].foldl (addWatchTotal s m x) s.mt.watchTotals := by
  unfold watchPoint
  dsimp only
  split
  · rw [watchTotals_pushWatch]
    rfl
  · rfl

theorem getD_watchTotals_watchPoint (s : State) (m : Nat) (x : List (List Nat)) {p : Nat} (hp : p < 3) :
    getD 0 (watchPoint s m x).mt.watchTotals (3 * m + p) =
      satAdd 32 (getD 0 s.mt.watchTotals (3 * m + p)) (ampereSeconds (watchIrms s (currCh m p) (nth [] x p))) := by
  rw [watchTotals_watchPoint]
  refine foldl_changes_once (fun n => n) (g := fun t => getD 0 t (3 * m + p)) (v := fun total => satAdd 32 total _) (i := p) (by decide)
    (by simp; omega) (fun t => getD_setD_self ..) (fun t j _ hj => getD_setD_ne _ _ _ (by omega)) _

/-- Settles O33: each command does what its lemma says, and a second enters the total of each phase once. -/
theorem savesTheMeteringStopAndTheWatch : Obligations.SavesTheMeteringStopAndTheWatch := by
  unfold Obligations.SavesTheMeteringStopAndTheWatch
  exact ⟨fun s hm hruns hsafe hdue htail => does_periodicSave hm hruns hsafe hdue htail,
    fun s hm hclk hsafe hlo hhi => does_periodicSave_of_no_metering hm hclk hsafe hlo hhi,
    fun s h hhold hmet => does_meteringStop hhold hmet,
    fun s samples t hp hw hosc => does_watchSecond hp hw hosc samples,
    fun s m p x _ hp => getD_watchTotals_watchPoint s m x hp,
    fun s t hp hw hlimit hosc => does_watchLimit hp hw hosc hlimit⟩

end Sys2Proof.Machine
end

section
/-! PROOFS. Fundamental cycles and seconds: the lock of a set, the energies of a cycle, the places of the one-second values, and O32 assembled from them. -/
namespace Sys2Proof.Machine

/-! A fundamental cycle (10 R289, R290). -/

section
variable {s : State} {set period : Nat} {samples : List (List Nat)}

/-- A set that has lost its voltages keeps its lock and completes no cycle. -/
theorem does_fundamentalCycle_without_phase (h : dspRuns s = true)
    (hl : (nth Lock.reset (takeSamples s samples []).mt.locks set).locked = true) (hp : lockPhase (takeSamples s samples []) set = 3) :
    Does (.fundamentalCycle set period samples) s (takeSamples s samples []) :=
  (exec_fundamentalCycle set period samples s).trans ((if_neg (by simp [h])).trans (if_pos (by simp [hl, hp])))

/-- The cycle of any other set, of the period or of the nominal one without a lock, moves its lock and gives the values of its points. -/
theorem does_fundamentalCycle {ns : Nat} (h : dspRuns s = true)
    (hcycle : ((nth Lock.reset (takeSamples s samples []).mt.locks set).locked && lockPhase (takeSamples s samples []) set == 3) = false)
    (hns : (if (nth Lock.reset (takeSamples s samples []).mt.locks set).locked then period else nominalPeriod (takeSamples s samples [])) = ns) :
    Does (.fundamentalCycle set period samples) s (setCycle (followLock (takeSamples s samples []) set period) set ns) :=
  hns ▸ (exec_fundamentalCycle set period samples s).trans ((if_neg (by simp [h])).trans (if_neg (ne_true_of_eq_false hcycle)))

end

/-- A cycle with a locking phase moves the lock of its set. -/
theorem locks_followLock {s : State} {set : Nat} (period : Nat) (h : lockPhase s set ≠ 3) :
    (followLock s set period).mt.locks = modifyNth s.mt.locks set (fun l => l.cycle period s.clk.nt) := by
  simp only [followLock, if_neg h]

/-- A period in range sets the count out of range to 0 and locks at the tenth in range. -/
theorem cycle_of_inRange (l : Lock) {period : Nat} (nt : Nat) (h : cycleInRange period = true) :
    (l.cycle period nt).outRange = 0 ∧ ((l.cycle period nt).locked = true ↔ (l.locked = true ∨ 10 ≤ l.inRange + 1)) := by
  cases hl : l.locked <;> simp [Lock.cycle, h, hl]

/-- A period out of range sets the count in range to 0 and unlocks at the third out of range. -/
theorem cycle_of_outOfRange (l : Lock) {period : Nat} (nt : Nat) (h : cycleInRange period = false) :
    (l.cycle period nt).inRange = 0 ∧ ((l.cycle period nt).locked = true ↔ (l.locked = true ∧ l.outRange + 1 < 3)) := by
  cases hl : l.locked <;> simp [Lock.cycle, h, hl]

/-- The no-load threshold of a point follows from the parameters in force. -/
theorem belowNoload_of_pa_eq {s u : State} (h : u.pa = s.pa) (m power : Nat) : belowNoload u m power = belowNoload s m power := by
  unfold belowNoload fullScale chRatio chGain meterSet meterPar
  rw [h]

/-- A sum over the phases of what is listed for them. -/
theorem phaseSum_listed (f : List Nat → List Nat → Nat) (u i : Nat → List Nat) :
    phaseSum (fun p => f (nth [] ([0, 1, 2].map u) p) (nth [] ([0, 1, 2].map i) p)) = phaseSum (fun p => f (u p) (i p)) := rfl

/-- A cycle of a point keeps what its energies are judged by, and adds them to those that wait unless the cycle is below NOLOAD. -/
theorem cycleValues_cases (set ns : Nat) (s : State) (m : Nat) :
    let us := [0, 1, 2].map (fun p => cyclePoints s ns (voltCh set p))
    let is := [0, 1, 2].map (fun p => cyclePoints s ns (currCh m p))
    let p1 := phaseSum (fun p => realPart (phasor (nth [] us p)) (phasor (nth [] is p)))
    let q1 := phaseSum (fun p => imagPart (phasor (nth [] us p)) (phasor (nth [] is p)))
    ∃ k : State, k.pa = s.pa ∧ k.mt.pending = s.mt.pending ∧ cycleValues set ns s m =
      if belowNoload k m (phaseSum (fun p => binary64.mul (rmsOf64 (nth [] us p)) (rmsOf64 (nth [] is p)))) then k
      else { k with mt := { k.mt with
        pending := k.mt.pending ++ [(m, binary64.mul p1 (secondsOf64 ns), binary64.mul q1 (secondsOf64 ns))] } } := by
  refine ⟨_, ?pa, ?pending, rfl⟩
  case pa => rfl
  case pending => rfl

/-- The energies of a cycle that is not below NOLOAD wait for the tick end. -/
theorem pending_cycleValues (set ns : Nat) (s : State) (m : Nat) :
    let u := fun (p : Nat) => cyclePoints s ns (voltCh set p)
    let i := fun (p : Nat) => cyclePoints s ns (currCh m p)
    let p1 := phaseSum (fun p => realPart (phasor (u p)) (phasor (i p)))
    let q1 := phaseSum (fun p => imagPart (phasor (u p)) (phasor (i p)))
    belowNoload s m (phaseSum (fun p => binary64.mul (rmsOf64 (u p)) (rmsOf64 (i p)))) = false →
    (cycleValues set ns s m).mt.pending = s.mt.pending ++ [(m, binary64.mul p1 (secondsOf64 ns), binary64.mul q1 (secondsOf64 ns))] := by
  intro u i p1 q1 h
  have hpower := phaseSum_listed (fun a b => binary64.mul (rmsOf64 a) (rmsOf64 b)) u i
  have hp1 := phaseSum_listed (fun a b => realPart (phasor a) (phasor b)) u i
  have hq1 := phaseSum_listed (fun a b => imagPart (phasor a) (phasor b)) u i
  obtain ⟨k, hpa, hpending, hk⟩ := cycleValues_cases set ns s m
  rw [belowNoload_of_pa_eq hpa, hpower, if_neg (ne_true_of_eq_false h), hp1, hq1] at hk
  rw [hk, ← hpending]

/-! The lock time-out (10 R289). -/

/-- A set with no phase at ULOCK since an instant loses its lock three nominal periods later. -/
theorem does_lockTimeout {s : State} {set t : Nat} (h : dspRuns s = true) (hq : (nth Lock.reset s.mt.locks set).quiet = some t) :
    let u := advanceTo s (t + (3 * nominalPeriod s + 999) / 1000)
    Does (.lockTimeout set) s { u with mt := { u.mt with locks := modifyNth u.mt.locks set (fun l => { l with locked := false, inRange := 0 }) } } := by
  rw [Does, exec_lockTimeout, execLockTimeout, hq]
  exact if_neg (by simp [h])

/-! A second (10 R291, Tables 10-5, 10-6 and 10-8). -/

/-- At a tick end that ends a second the values are formed, the view takes them, and measurements go on. -/
theorem does_meterSecond {s : State} (h : dspRuns s = true) (hsec : s.mt.tickNt % 1000000 = 0) (hnow : s.mt.tickNt = s.clk.nt)
    (hnew : s.mt.secNt ≠ s.mt.tickNt) :
    let u := formSecond s
    let v := if u.mt.frozen = false ∨ u.mt.viewNt = u.mt.tickNt then takeView u else u
    Does .meterSecond s (v.mt.measures.foldl measureSecond v) := by
  intro u v
  have hv : v = if !u.mt.frozen || u.mt.viewNt == u.mt.tickNt then takeView u else u := by simp [v]
  have hcond : ¬ (!dspRuns s || s.mt.tickNt % 1000000 != 0 || s.mt.tickNt != s.clk.nt || s.mt.secNt == s.mt.tickNt) = true := by
    simp [h, hsec, ← hnow, hnew]
  rw [hv]
  exact (exec_meterSecond s).trans (if_neg hcond)

/-- The key of a value names its object and its quantity. -/
theorem secKey_ne {o q o' q' : Nat} (hq : q < 64) (hq' : q' < 64) (h : o' ≠ o ∨ q' ≠ q) : secKey o q ≠ secKey o' q' := by
  unfold secKey
  omega

/-- The values of another object leave a value where it was. -/
theorem getD_putSecond_other (t : NMap Word) {o object q : Nat} {vs : List (Nat × Word)} (hvs : ∀ x ∈ vs, x.1 < 64) (hq : q < 64)
    (h : object ≠ o) : getD 0 (putSecond t object vs) (secKey o q) = getD 0 t (secKey o q) :=
  foldl_keeps (g := fun t : NMap Word => getD 0 t (secKey o q))
    (fun t x hx => getD_setD_ne 0 t x.2 (secKey_ne hq (hvs x hx) (.inl h))) t

/-- Each value of an object takes its own place. -/
theorem getD_putSecond_self (t : NMap Word) {o q : Nat} {v : Word} {vs : List (Nat × Word)} (hvs : ∀ x ∈ vs, x.1 < 64)
    (hkeys : (vs.map (·.1)).Nodup) (h : (q, v) ∈ vs) : getD 0 (putSecond t o vs) (secKey o q) = v :=
  foldl_changes_once (·.1) (g := fun t : NMap Word => getD 0 t (secKey o q)) (v := fun _ => v) ((List.pairwise_map (f := fun x : Nat × Word => x.1)).mp hkeys) h
    (fun _ => getD_setD_self ..) (fun t x hx hne => getD_setD_ne 0 t x.2 (secKey_ne (hvs _ h) (hvs x hx) (.inr hne))) t

theorem pointSecond_codes (s : State) (m : Nat) : (pointSecond s m).map (·.1) = [1, 2, 3, 4, 5, 11, 12, 13, 14, 15, 16, 17, 18, 19] := rfl

theorem setSecond_codes (s : State) (v : Nat) : (setSecond s v).map (·.1) = [0, 1, 2, 3] := rfl

/-- A bound on the codes of a list of values is one on the code of each. -/
theorem code_lt_of_mem {vs : List (Nat × Word)} {codes : List Nat} {n : Nat} (hcodes : vs.map (·.1) = codes) (hlt : ∀ q ∈ codes, q < n) :
    ∀ x ∈ vs, x.1 < n :=
  fun _ hx => hlt _ (hcodes ▸ List.mem_map_of_mem hx)

/-- The one-second values once those of the points have taken their places, and then those of the sets. -/
def secondValues (s : State) : NMap Word :=
  (List.range 4).foldl (fun t v => putSecond t (12 + v) (setSecond s v)) ((metered s).foldl (fun t m => putSecond t m (pointSecond s m)) s.mt.sec)

theorem mem_metered {s : State} {m : Nat} (h : m ∈ metered s) : m < 12 := List.mem_range.mp (List.mem_filter.mp h).1

theorem nodup_metered (s : State) : (metered s).Nodup := List.nodup_range.filter _

section
variable {s : State} {m q : Nat} {v : Word} (hm : m ∈ metered s) (h : (q, v) ∈ pointSecond s m)
include hm h

/-- A value of a point in use is at its place. -/
theorem getD_secondValues : getD 0 (secondValues s) (secKey m q) = v := by
  have hpoint (n : Nat) : ∀ x ∈ pointSecond s n, x.1 < 64 := code_lt_of_mem (pointSecond_codes s n) (by decide)
  have hset (n : Nat) : ∀ x ∈ setSecond s n, x.1 < 64 := code_lt_of_mem (setSecond_codes s n) (by decide)
  have hq : q < 64 := hpoint m _ h
  have hm12 := mem_metered hm
  rw [secondValues, foldl_keeps (g := fun t : NMap Word => getD 0 t (secKey m q))
    fun t n _ => getD_putSecond_other t (hset n) hq (by omega)]
  exact foldl_changes_once (fun n => n) (g := fun t : NMap Word => getD 0 t (secKey m q)) (v := fun _ => v) (nodup_metered s) hm
    (fun t => getD_putSecond_self t (hpoint m) (pointSecond_codes s m ▸ by decide) h)
    (fun t n _ hn => getD_putSecond_other t (hpoint n) hq hn) _

/-- The status of each point, written last, leaves it there. -/
theorem secOf_formSecond : secOf (formSecond s) m q = v := by
  have hq : q < 0x28 := code_lt_of_mem (pointSecond_codes s m) (by decide) _ h
  have hne (n : Nat) : secKey m q ≠ secKey n 0x28 := secKey_ne (by omega) (by decide) (.inr (by omega))
  rw [← getD_secondValues hm h]
  exact foldl_keeps (g := fun t : NMap Word => getD 0 t (secKey m q)) (fun t n _ => getD_setD_ne 0 t _ (hne n)) _

end

theorem pmax_formSecond (s : State) : (formSecond s).mt.pmax = (List.range 12).foldl (fun (t : NMap Nat) m =>
    setD 0 t m (largerOf (word (getD 0 t m)) (getD 0 (secondValues s) (secKey m 4))).toNat) s.mt.pmax := by
  unfold formSecond
  dsimp only
  rfl

/-- PMAX of a point in use takes the larger of itself and S of the second. -/
theorem getD_pmax_formSecond {s : State} {m : Nat} (hm : m ∈ metered s) :
    getD 0 (formSecond s).mt.pmax m = (largerOf (word (getD 0 s.mt.pmax m)) (shown (secondApparent s m))).toNat := by
  have hvalue : getD 0 (secondValues s) (secKey m 4) = shown (secondApparent s m) := getD_secondValues hm (by simp [pointSecond])
  rw [pmax_formSecond, ← hvalue]
  exact foldl_changes_once (fun n => n) (g := fun t : NMap Nat => getD 0 t m)
    (v := fun x => (largerOf (word x) (getD 0 (secondValues s) (secKey m 4))).toNat) List.nodup_range
    (List.mem_range.mpr (mem_metered hm)) (fun t => getD_setD_self ..) (fun t n _ hn => getD_setD_ne 0 t _ (Ne.symm hn)) _

/-- Settles O32: each command does what its lemma says under its conditions, and the values of a second are read at their places. -/
theorem cyclesAndSecondsFormTheirValues : Obligations.CyclesAndSecondsFormTheirValues := by
  unfold Obligations.CyclesAndSecondsFormTheirValues
  refine ⟨fun s set period samples h => ⟨fun hl hp => does_fundamentalCycle_without_phase h hl hp, fun hl hp => ?locked, fun hl => ?unlocked⟩,
    fun s set period hp => locks_followLock period hp, pending_cycleValues,
    fun l period nt h => cycle_of_inRange l nt h, fun l period nt h => cycle_of_outOfRange l nt h,
    fun s set t h hq => does_lockTimeout h hq, fun s h hsec hnow hnew => does_meterSecond h hsec hnow hnew,
    fun s m hm => ⟨?active, ?apparent, ?factor, getD_pmax_formSecond hm⟩, fun s => ⟨rfl, rfl⟩⟩
  case locked => exact does_fundamentalCycle h (by simp [hp]) (if_pos hl)
  case unlocked => exact does_fundamentalCycle h (by simp [hl]) (if_neg (ne_true_of_eq_false hl))
  case active =>
    have hmem : (1, shown (secondPower s m 3)) ∈ pointSecond s m := by simp [pointSecond]
    exact secOf_formSecond hm hmem
  case apparent =>
    have hmem : (4, shown (secondApparent s m)) ∈ pointSecond s m := by simp [pointSecond]
    exact secOf_formSecond hm hmem
  case factor =>
    have hmem : (5, shown (powerFactor (secondPower s m 3) (secondApparent s m))) ∈ pointSecond s m := by simp [pointSecond]
    exact secOf_formSecond hm hmem

end Sys2Proof.Machine
end

section
/-! PROOFS. The heat quantities' mailbox commands: each command's answers, from which O46 is assembled; HQ_READ is taken where no read of its mailbox waits (11 R328 to R330, Table 11-6). -/
namespace Sys2Proof.Machine

/-- Settles O46: each command is the run of its meaning on a mailbox that is taken, and each clause one branch of that meaning. -/
theorem heatCommandsAnswer : Obligations.HeatCommandsAnswer := by
  unfold Obligations.HeatCommandsAnswer
  refine ⟨fun s mb h hreads => ?read,
    fun s mb h => ⟨fun hn => ?signedOperand, fun hn hno => ?signedNotPermitted, fun hn hk hu hbad => ?signedKeyBad,
      fun hn hk hu hok => ?signed⟩,
    fun s mb h => ⟨fun hnone => ?recordNone, fun b hb => ?record⟩,
    fun s mb h => ?ackLoss⟩
  case read =>
    have hexec := (exec_hqRead mb s).trans (if_neg (ne_true_of_eq_false hreads))
    refine ⟨fun hn => ?operand, fun hn hu => ?unused, fun hn hu hrun => ?waits, fun hn hu hrun => ?atOnce⟩
    case operand => exact refuses_of_taken (status := stBadParameter) h hexec (if_pos hn)
    case unused =>
      exact refuses_of_taken (status := stNotPermitted) h hexec ((if_neg (Nat.not_le.mpr hn)).trans (if_pos (by simp [hu])))
    case waits =>
      exact does_of_taken h hexec ((if_neg (Nat.not_le.mpr hn)).trans ((if_neg (by simp [hu])).trans (if_pos hrun)))
    case atOnce =>
      exact does_of_taken h hexec
        ((if_neg (Nat.not_le.mpr hn)).trans ((if_neg (by simp [hu])).trans (if_neg (ne_true_of_eq_false hrun))))
  case signedOperand => exact refuses_of_taken (status := stBadParameter) h (exec_hqReadSigned mb s) (if_pos hn)
  case signedNotPermitted =>
    exact refuses_of_taken (status := stNotPermitted) h (exec_hqReadSigned mb s)
      ((if_neg (Nat.not_le.mpr hn)).trans (if_pos (by simpa using hno)))
  case signedKeyBad =>
    exact refuses_of_taken (status := stKeyBad) h (exec_hqReadSigned mb s)
      ((if_neg (Nat.not_le.mpr hn)).trans ((if_neg (by simp [hk, hu])).trans (if_pos hbad)))
  case signed =>
    exact does_of_taken h (exec_hqReadSigned mb s)
      ((if_neg (Nat.not_le.mpr hn)).trans ((if_neg (by simp [hk, hu])).trans (if_neg (ne_true_of_eq_false hok))))
  case recordNone => exact refuses_of_taken (status := stNotReady) h (exec_hqRecord mb s) (by simp [hnone])
  case record => exact does_of_taken h (exec_hqRecord mb s) (by simp [hb])
  case ackLoss => exact does_of_taken h (exec_hqAckLoss mb s) rfl

end Sys2Proof.Machine
end

section
/-! PROOFS. The end of every meaning: each command ends with the vectors settled, whatever branch it takes. -/
namespace Sys2Proof.Machine

/-- The outcome `o` is the end of a meaning: a next state whose fresh vectors owe their messages (12 R345). -/
def Settles (o : Out) : Prop := ∃ t, o = .next (settle t)

theorem Settles.of_eq {o o' : Out} (h : o = o') (ho : Settles o') : Settles o := h ▸ ho

theorem settles_done (s : State) : Settles (done s) := ⟨s, rfl⟩

theorem settles_whilePowered (s t : State) : Settles (whilePowered s t) := by
  unfold whilePowered
  split
  · exact settles_done t
  · exact settles_done s

theorem settles_runCommand (s : State) (n code : Nat) (k : Mailbox → State) : Settles (runCommand s n code k) := by
  obtain h | ⟨-, h⟩ | ⟨-, h⟩ := runCommand_cases s n code k
  · exact .of_eq h (settles_done s)
  · exact .of_eq h (settles_done _)
  · exact .of_eq h (settles_done _)

theorem settles_runMeter (s : State) (n code : Nat) (k : Mailbox → State) : Settles (runMeter s n code k) := settles_runCommand s n code _

theorem settles_runEffect (s : State) (core code : Nat) (f : Ctx → BlkOut) (g : Ctx → BlkOut → State → State) :
    Settles (runEffect s core code f g) := by
  obtain h | ⟨c, -, h⟩ := runEffect_cases s core code f g
  · exact .of_eq h (settles_done s)
  · exact .of_eq h (settles_done _)

theorem settles_runBlock (s : State) (core code : Nat) (f : Ctx → BlkOut) : Settles (runBlock s core code f) := settles_runEffect s core code f _

theorem settles_execVentEvent (s : State) : Settles (execVentEvent s) := by
  unfold execVentEvent
  split <;> exact settles_done _

theorem settles_execDiChange (input : Nat) (level : Bool) (at_ : Nat) (s : State) : Settles (execDiChange input level at_ s) := by
  unfold execDiChange
  split <;> exact settles_done _

theorem settles_execDiFilterExpiry (input : Nat) (s : State) : Settles (execDiFilterExpiry input s) := by
  unfold execDiFilterExpiry
  split <;> exact settles_done _

theorem settles_execFaultRaised (code cls : Nat) (words : List Word) (s : State) : Settles (execFaultRaised code cls words s) := by
  unfold execFaultRaised
  split <;> exact settles_done _

theorem settles_execFaultHandling (s : State) : Settles (execFaultHandling s) := by
  unfold execFaultHandling
  split <;> exact settles_done _

theorem settles_execSafeEntryWatchdog (s : State) : Settles (execSafeEntryWatchdog s) := by
  unfold execSafeEntryWatchdog
  split <;> exact settles_done _

theorem settles_execClockLoss (pll : Bool) (s : State) : Settles (execClockLoss pll s) := by
  unfold execClockLoss
  split <;> exact settles_done _

theorem settles_execLockstepMismatch (s : State) : Settles (execLockstepMismatch s) := settles_done _

theorem settles_execScrubPass (s : State) : Settles (execScrubPass s) := by
  unfold execScrubPass
  split <;> exact settles_done _

theorem settles_execHeartbeat (s : State) : Settles (execHeartbeat s) := by
  unfold execHeartbeat
  split <;> exact settles_done _

theorem settles_execSupWdog (s : State) : Settles (execSupWdog s) := by
  unfold execSupWdog
  repeat' split
  all_goals exact settles_done _

theorem settles_execSafeExitDecision (s : State) : Settles (execSafeExitDecision s) := by
  unfold execSafeExitDecision
  dsimp only
  repeat' split
  all_goals exact settles_done _

theorem settles_execMbDoorbell (mb at_ : Nat) (s : State) : Settles (execMbDoorbell mb at_ s) := by
  unfold execMbDoorbell
  split <;> exact settles_done _

theorem settles_execMailboxTake (at_ : Nat) (s : State) : Settles (execMailboxTake at_ s) := by
  unfold execMailboxTake
  repeat' split
  all_goals exact settles_done _

theorem settles_execRecallComplete (s : State) : Settles (execRecallComplete s) := by
  unfold execRecallComplete
  split <;> exact settles_done _

theorem settles_execVholdMeasure (millivolts : Nat) (s : State) : Settles (execVholdMeasure millivolts s) := by
  unfold execVholdMeasure
  split <;> exact settles_done _

theorem settles_execTimeSet (mb : Nat) (s : State) : Settles (execTimeSet mb s) := by
  unfold execTimeSet
  split
  · exact settles_done s
  · exact settles_runCommand s mb _ _

theorem settles_execTimeAdjust (mb : Nat) (s : State) : Settles (execTimeAdjust mb s) := by
  unfold execTimeAdjust
  split
  · exact settles_done s
  · exact settles_runCommand s mb _ _

theorem settles_execTimeChangeApply (s : State) : Settles (execTimeChangeApply s) := by
  unfold execTimeChangeApply
  split <;> exact settles_done _

theorem settles_execAlarmFire (s : State) : Settles (execAlarmFire s) := by
  unfold execAlarmFire
  repeat' split
  all_goals exact settles_done _

theorem settles_execBeyondReached (s : State) : Settles (execBeyondReached s) := by
  unfold execBeyondReached
  split <;> exact settles_done _

theorem settles_execOscStop (s : State) : Settles (execOscStop s) := by
  unfold execOscStop
  split <;> exact settles_done _

theorem settles_execOscRestart (s : State) : Settles (execOscRestart s) := by
  unfold execOscRestart
  split <;> exact settles_done _

theorem settles_execBatlowCheck (millivolts : Nat) (s : State) : Settles (execBatlowCheck millivolts s) := by
  unfold execBatlowCheck
  split <;> exact settles_done _

theorem settles_execRtcRegisterRead (offset : Nat) (s : State) : Settles (execRtcRegisterRead offset s) := by
  unfold execRtcRegisterRead
  split <;> exact settles_done _

theorem settles_execRtcTickHiRead (s : State) : Settles (execRtcTickHiRead s) := by
  unfold execRtcTickHiRead
  split <;> exact settles_done _

theorem settles_execRtcBlockWrite (offset : Nat) (value : Word) (s : State) : Settles (execRtcBlockWrite offset value s) := by
  unfold execRtcBlockWrite
  split <;> exact settles_done _

theorem settles_execRtcShadowTimeout (s : State) : Settles (execRtcShadowTimeout s) := by
  unfold execRtcShadowTimeout
  repeat' split
  all_goals exact settles_done _

theorem settles_execKeySlotCheck (bad : List (Nat × Nat)) (s : State) : Settles (execKeySlotCheck bad s) := by
  unfold execKeySlotCheck
  split <;> exact settles_done _

theorem settles_execNetworkRelease (s : State) : Settles (execNetworkRelease s) := by
  unfold execNetworkRelease
  dsimp only
  repeat' split
  all_goals exact settles_done _

theorem settles_execFastRelease (s : State) : Settles (execFastRelease s) := by
  unfold execFastRelease
  dsimp only
  repeat' split
  all_goals exact settles_done _

theorem settles_execTaskDeadline (task : TaskClass) (s : State) : Settles (execTaskDeadline task s) := by
  unfold execTaskDeadline
  repeat' split
  all_goals exact settles_done _

theorem settles_execTaskStop (task : TaskClass) (s : State) : Settles (execTaskStop task s) := by
  unfold execTaskStop
  dsimp only
  repeat' split
  all_goals exact settles_done _

theorem settles_execBarrierRelease (task : TaskClass) (s : State) : Settles (execBarrierRelease task s) := by
  unfold execBarrierRelease
  dsimp only
  repeat' split
  all_goals exact settles_done _

theorem settles_execSwapStart (s : State) : Settles (execSwapStart s) := by
  unfold execSwapStart
  repeat' split
  all_goals exact settles_done _

theorem settles_execMeterTick (samples : List (List Nat)) (poisoned : List (Nat × Nat × Nat)) (s : State) : Settles (execMeterTick samples poisoned s) := by
  unfold execMeterTick
  repeat' split
  all_goals exact settles_done _

theorem settles_execFundamentalCycle (set period : Nat) (samples : List (List Nat)) (s : State) : Settles (execFundamentalCycle set period samples s) := by
  unfold execFundamentalCycle
  dsimp only
  repeat' split
  all_goals exact settles_done _

theorem settles_execLockTimeout (set : Nat) (s : State) : Settles (execLockTimeout set s) := by
  unfold execLockTimeout
  repeat' split
  all_goals exact settles_done _

theorem settles_execMeterSecond (s : State) : Settles (execMeterSecond s) := by
  unfold execMeterSecond
  split <;> exact settles_done _

theorem settles_execMtrRead (mb : Nat) (s : State) : Settles (execMtrRead mb s) := by
  unfold execMtrRead
  split
  · exact settles_done s
  · exact settles_runMeter s mb _ _

theorem settles_execWatchSecond (samples : List (List (List Nat))) (s : State) : Settles (execWatchSecond samples s) := by
  unfold execWatchSecond
  split <;> exact settles_done _

theorem settles_execHqRead (mb : Nat) (s : State) : Settles (execHqRead mb s) := by
  unfold execHqRead
  split
  · exact settles_done s
  · exact settles_runCommand s mb _ _

theorem settles_execPeriodicSave (s : State) : Settles (execPeriodicSave s) := by
  unfold execPeriodicSave
  repeat' split
  all_goals exact settles_done _

theorem settles_execMeteringStop (s : State) : Settles (execMeteringStop s) := by
  unfold execMeteringStop
  repeat' split
  all_goals exact settles_done _

theorem settles_execWatchLimit (s : State) : Settles (execWatchLimit s) := by
  unfold execWatchLimit
  repeat' split
  all_goals exact settles_done _

theorem settles_execBasicCycleStart (s : State) : Settles (execBasicCycleStart s) := by
  unfold execBasicCycleStart
  split <;> exact settles_done _

theorem settles_execReferenceFrame (line at_ : Nat) (s : State) : Settles (execReferenceFrame line at_ s) := by
  unfold execReferenceFrame
  dsimp only
  repeat' split
  all_goals exact settles_done _

theorem settles_execReferenceFrameTimeout (line : Nat) (s : State) : Settles (execReferenceFrameTimeout line s) := by
  unfold execReferenceFrameTimeout
  dsimp only
  repeat' split
  all_goals exact settles_done _

theorem settles_execTxWindowStart (line : Nat) (window : TxStart) (s : State) : Settles (execTxWindowStart line window s) := by
  unfold execTxWindowStart
  dsimp only
  repeat' split
  all_goals exact settles_done _

theorem settles_execTxFrameDone (line at_ : Nat) (result : TxResult) (s : State) : Settles (execTxFrameDone line at_ result s) := by
  unfold execTxFrameDone
  dsimp only
  repeat' split
  all_goals exact settles_done _

theorem settles_execRetrySend (line window at_ : Nat) (s : State) : Settles (execRetrySend line window at_ s) := by
  unfold execRetrySend
  dsimp only
  repeat' split
  all_goals exact settles_done _

theorem settles_execInjectionSend (line at_ : Nat) (s : State) : Settles (execInjectionSend line at_ s) := by
  unfold execInjectionSend
  dsimp only
  repeat' split
  all_goals exact settles_done _

theorem settles_execFrameReceived (line at_ : Nat) (frame : Frame) (s : State) : Settles (execFrameReceived line at_ frame s) := by
  unfold execFrameReceived
  dsimp only
  repeat' split
  all_goals exact settles_done _

theorem settles_execRxWindowEnd (line window : Nat) (s : State) : Settles (execRxWindowEnd line window s) := by
  unfold execRxWindowEnd
  repeat' split
  all_goals exact settles_done _

theorem settles_execLineError (line kind : Nat) (dataPhase transmitting : Bool) (how : ErrorStep) (s : State) : Settles (execLineError line kind dataPhase transmitting how s) := by
  unfold execLineError
  dsimp only
  repeat' split
  all_goals exact settles_done _

theorem settles_execLineIntegrated (line : Nat) (s : State) : Settles (execLineIntegrated line s) := by
  unfold execLineIntegrated
  dsimp only
  repeat' split
  all_goals exact settles_done _

theorem settles_execBusOffRecovery (line : Nat) (s : State) : Settles (execBusOffRecovery line s) := by
  unfold execBusOffRecovery
  dsimp only
  repeat' split
  all_goals exact settles_done _

theorem settles_execXcvrFault (line : Nat) (fault : XcvrFault) (s : State) : Settles (execXcvrFault line fault s) := by
  unfold execXcvrFault
  split <;> exact settles_done _

theorem settles_execXcvrFaultCleared (line : Nat) (fault : XcvrFault) (s : State) : Settles (execXcvrFaultCleared line fault s) := settles_done _

theorem settles_execBusdom (line : Nat) (s : State) : Settles (execBusdom line s) := by
  unfold execBusdom
  dsimp only
  repeat' split
  all_goals exact settles_done _

theorem settles_execFenceHoldExpiry (line : Nat) (s : State) : Settles (execFenceHoldExpiry line s) := by
  unfold execFenceHoldExpiry
  repeat' split
  all_goals exact settles_done _

theorem settles_execRecoveryWindowExpiry (line : Nat) (s : State) : Settles (execRecoveryWindowExpiry line s) := by
  unfold execRecoveryWindowExpiry
  split <;> exact settles_done _

theorem settles_execRecordOffer (code cls source : Nat) (words : List Word) (s : State) : Settles (execRecordOffer code cls source words s) := by
  unfold execRecordOffer
  split <;> exact settles_done _

theorem settles_execRecordWrite (s : State) : Settles (execRecordWrite s) := by
  unfold execRecordWrite
  repeat' split
  all_goals exact settles_done _

theorem settles_execExcerptDirtyTimeout (page : Nat) (s : State) : Settles (execExcerptDirtyTimeout page s) := by
  unfold execExcerptDirtyTimeout
  repeat' split
  all_goals exact settles_done _

theorem settles_execTaskDispatch (tile : Nat) (s : State) : Settles (execTaskDispatch tile s) := by
  unfold execTaskDispatch
  dsimp only
  repeat' split
  all_goals exact settles_done _

theorem settles_execTaskComputeDone (tile ctx : Nat) (s : State) : Settles (execTaskComputeDone tile ctx s) := by
  unfold execTaskComputeDone
  dsimp only
  repeat' split
  all_goals exact settles_done _

theorem settles_execTaskRetire (tile ctx : Nat) (s : State) : Settles (execTaskRetire tile ctx s) := by
  unfold execTaskRetire
  repeat' split
  all_goals exact settles_done _

theorem settles_execStagingCopy (slot block : Nat) (toBulk : Bool) (s : State) : Settles (execStagingCopy slot block toBulk s) := by
  unfold execStagingCopy
  repeat' split
  all_goals exact settles_done _

theorem settles_execSolveBackstop (slot : Nat) (s : State) : Settles (execSolveBackstop slot s) := by
  unfold execSolveBackstop
  repeat' split
  all_goals exact settles_done _

theorem settles_execBoundary (s : State) : Settles (execBoundary s) := by
  unfold execBoundary
  repeat' split
  all_goals exact settles_done _

theorem settles_execSpiWrite (addr : Nat) (words : List Word) (s : State) : Settles (execSpiWrite addr words s) := by
  unfold execSpiWrite
  repeat' split
  all_goals exact settles_done _

theorem settles_execSpiRead (addr count : Nat) (s : State) : Settles (execSpiRead addr count s) := by
  unfold execSpiRead
  repeat' split
  all_goals exact settles_done _

theorem settles_execSpiReserved (command : Nat) (s : State) : Settles (execSpiReserved command s) := by
  unfold execSpiReserved
  split <;> exact settles_done _

theorem settles_execSpiFrameAbort (isRead : Bool) (addr : Nat) (words : List Word) (s : State) : Settles (execSpiFrameAbort isRead addr words s) := by
  unfold execSpiFrameAbort
  repeat' split
  all_goals exact settles_done _

theorem settles_execPcieMemRead (addr count : Nat) (s : State) : Settles (execPcieMemRead addr count s) := by
  unfold execPcieMemRead
  repeat' split
  all_goals exact settles_done _

theorem settles_execPcieMemWrite (addr : Nat) (words : List (Word × Nat)) (s : State) : Settles (execPcieMemWrite addr words s) := by
  unfold execPcieMemWrite
  repeat' split
  all_goals exact settles_done _

theorem settles_execPcieConfigAccess (write : Bool) (offset : Nat) (value : Word) (enables : Nat) (s : State) : Settles (execPcieConfigAccess write offset value enables s) := by
  unfold execPcieConfigAccess
  repeat' split
  all_goals exact settles_done _

theorem settles_execPciePowerState (d3hot : Bool) (s : State) : Settles (execPciePowerState d3hot s) := by
  unfold execPciePowerState
  split <;> exact settles_done _

theorem settles_execLinkDown (why : LinkDown) (s : State) : Settles (execLinkDown why s) := by
  unfold execLinkDown
  split <;> exact settles_done _

theorem settles_execPcieLinkUp (s : State) : Settles (execPcieLinkUp s) := by
  unfold execPcieLinkUp
  split <;> exact settles_done _

theorem settles_execMsiSend (vector : Nat) (s : State) : Settles (execMsiSend vector s) := by
  unfold execMsiSend
  dsimp only
  repeat' split
  all_goals exact settles_done _

theorem settles_execVioHChange (good : Bool) (s : State) : Settles (execVioHChange good s) := by
  unfold execVioHChange
  dsimp only
  repeat' split
  all_goals exact settles_done _

theorem settles_execCommandCompletion (mb at_ : Nat) (s : State) : Settles (execCommandCompletion mb at_ s) := by
  unfold execCommandCompletion
  dsimp only
  repeat' split
  all_goals exact settles_done _

theorem settles_execPageStore (s : State) : Settles (execPageStore s) := by
  unfold execPageStore
  split <;> exact settles_done _

theorem settles_execCounterIncrement (s : State) : Settles (execCounterIncrement s) := by
  unfold execCounterIncrement
  repeat' split
  all_goals exact settles_done _

theorem settles_execDmaTransfer (mb : Nat) (list data : List Byte) (s : State) : Settles (execDmaTransfer mb list data s) := by
  unfold execDmaTransfer
  repeat' split
  all_goals exact settles_done _

theorem settles_execDmaError (mb error done_ : Nat) (s : State) : Settles (execDmaError mb error done_ s) := by
  unfold execDmaError
  split <;> exact settles_done _

theorem settles_execDmaCompletionTimeout (mb done_ : Nat) (s : State) : Settles (execDmaCompletionTimeout mb done_ s) := by
  unfold execDmaCompletionTimeout
  split <;> exact settles_done _

theorem settles_execPoisonedRead (reader : Reader) (addr : Nat) (s : State) : Settles (execPoisonedRead reader addr s) := by
  unfold execPoisonedRead
  split <;> exact settles_done _

theorem settles_execBoundaryScanAccess (op : ScanOp) (s : State) : Settles (execBoundaryScanAccess op s) := by
  unfold execBoundaryScanAccess
  repeat' split
  all_goals exact settles_done _

theorem settles_execVinGood (ticks : Nat) (s : State) : Settles (execVinGood ticks s) := by
  unfold execVinGood
  repeat' split
  all_goals exact settles_done _

theorem settles_execVinFail (s : State) : Settles (execVinFail s) := by
  unfold execVinFail
  dsimp only
  repeat' split
  all_goals exact settles_done _

theorem settles_execHoldEnd (s : State) : Settles (execHoldEnd s) := by
  unfold execHoldEnd
  split <;> exact settles_done _

theorem settles_execVbatLoss (s : State) : Settles (execVbatLoss s) := settles_done _

theorem settles_execVbatPresent (s : State) : Settles (execVbatPresent s) := settles_done _

theorem settles_execVholdCutoff (s : State) : Settles (execVholdCutoff s) := by
  unfold execVholdCutoff
  dsimp only
  repeat' split
  all_goals exact settles_done _

theorem settles_execReset (cause : ResetCause) (s : State) : Settles (execReset cause s) := by
  unfold execReset
  dsimp only
  repeat' split
  all_goals exact settles_done _

theorem settles_execSysResetExpiry (s : State) : Settles (execSysResetExpiry s) := by
  unfold execSysResetExpiry
  repeat' split
  all_goals exact settles_done _

theorem settles_execInternalResetRelease (hostsel : Bool) (s : State) : Settles (execInternalResetRelease hostsel s) := by
  unfold execInternalResetRelease
  split <;> exact settles_done _

theorem settles_execReadyAssert (rootGood : Nat) (badSlots : List (Nat × Nat)) (s : State) : Settles (execReadyAssert rootGood badSlots s) := by
  unfold execReadyAssert
  split <;> exact settles_done _

theorem settles_execStartupComplete (s : State) : Settles (execStartupComplete s) := by
  unfold execStartupComplete
  split <;> exact settles_done _

theorem settles_execActivation (s : State) : Settles (execActivation s) := by
  unfold execActivation
  repeat' split
  all_goals exact settles_done _

theorem settles_execActivationTimeout (s : State) : Settles (execActivationTimeout s) := by
  unfold execActivationTimeout
  repeat' split
  all_goals exact settles_done _

/-- Every command ends with the vectors settled (12 R345). -/
theorem exec_settles (c : Instr) (s : State) : Settles (exec c s) := by
  cases c with
  | boundary => exact .of_eq (exec_boundary s) (settles_execBoundary ..)
  | safeExitDecision => exact .of_eq (exec_safeExitDecision s) (settles_execSafeExitDecision ..)
  | fenceHoldExpiry line => exact .of_eq (exec_fenceHoldExpiry line s) (settles_execFenceHoldExpiry ..)
  | recoveryWindowExpiry line => exact .of_eq (exec_recoveryWindowExpiry line s) (settles_execRecoveryWindowExpiry ..)
  | networkRelease => exact .of_eq (exec_networkRelease s) (settles_execNetworkRelease ..)
  | fastRelease => exact .of_eq (exec_fastRelease s) (settles_execFastRelease ..)
  | taskDeadline task => exact .of_eq (exec_taskDeadline task s) (settles_execTaskDeadline ..)
  | taskStop task => exact .of_eq (exec_taskStop task s) (settles_execTaskStop ..)
  | barrierRelease task => exact .of_eq (exec_barrierRelease task s) (settles_execBarrierRelease ..)
  | swapStart => exact .of_eq (exec_swapStart s) (settles_execSwapStart ..)
  | nop core => exact .of_eq (exec_nop core s) (settles_runBlock ..)
  | add core => exact .of_eq (exec_add core s) (settles_runBlock ..)
  | sub core => exact .of_eq (exec_sub core s) (settles_runBlock ..)
  | mul core => exact .of_eq (exec_mul core s) (settles_runBlock ..)
  | div core => exact .of_eq (exec_div core s) (settles_runBlock ..)
  | mod core => exact .of_eq (exec_mod core s) (settles_runBlock ..)
  | abs core => exact .of_eq (exec_abs core s) (settles_runBlock ..)
  | neg core => exact .of_eq (exec_neg core s) (settles_runBlock ..)
  | min core => exact .of_eq (exec_min core s) (settles_runBlock ..)
  | max core => exact .of_eq (exec_max core s) (settles_runBlock ..)
  | limit core => exact .of_eq (exec_limit core s) (settles_runBlock ..)
  | sqrt core => exact .of_eq (exec_sqrt core s) (settles_runBlock ..)
  | scale core => exact .of_eq (exec_scale core s) (settles_runBlock ..)
  | conv core => exact .of_eq (exec_conv core s) (settles_runBlock ..)
  | cmp core => exact .of_eq (exec_cmp core s) (settles_runBlock ..)
  | and core => exact .of_eq (exec_and core s) (settles_runBlock ..)
  | or core => exact .of_eq (exec_or core s) (settles_runBlock ..)
  | xor core => exact .of_eq (exec_xor core s) (settles_runBlock ..)
  | not core => exact .of_eq (exec_not core s) (settles_runBlock ..)
  | sel core => exact .of_eq (exec_sel core s) (settles_runBlock ..)
  | mux core => exact .of_eq (exec_mux core s) (settles_runBlock ..)
  | sr core => exact .of_eq (exec_sr core s) (settles_runBlock ..)
  | rs core => exact .of_eq (exec_rs core s) (settles_runBlock ..)
  | bitget core => exact .of_eq (exec_bitget core s) (settles_runBlock ..)
  | bitset core => exact .of_eq (exec_bitset core s) (settles_runBlock ..)
  | rtrig core => exact .of_eq (exec_rtrig core s) (settles_runBlock ..)
  | ftrig core => exact .of_eq (exec_ftrig core s) (settles_runBlock ..)
  | ton core => exact .of_eq (exec_ton core s) (settles_runBlock ..)
  | tof core => exact .of_eq (exec_tof core s) (settles_runBlock ..)
  | tp core => exact .of_eq (exec_tp core s) (settles_runBlock ..)
  | tonL core => exact .of_eq (exec_tonL core s) (settles_runBlock ..)
  | ctu core => exact .of_eq (exec_ctu core s) (settles_runBlock ..)
  | ctd core => exact .of_eq (exec_ctd core s) (settles_runBlock ..)
  | ctud core => exact .of_eq (exec_ctud core s) (settles_runBlock ..)
  | ramp core => exact .of_eq (exec_ramp core s) (settles_runBlock ..)
  | rate core => exact .of_eq (exec_rate core s) (settles_runBlock ..)
  | pid core => exact .of_eq (exec_pid core s) (settles_runBlock ..)
  | pt1 core => exact .of_eq (exec_pt1 core s) (settles_runBlock ..)
  | deadband core => exact .of_eq (exec_deadband core s) (settles_runBlock ..)
  | hyst core => exact .of_eq (exec_hyst core s) (settles_runBlock ..)
  | curve core => exact .of_eq (exec_curve core s) (settles_runBlock ..)
  | heatcurve core => exact .of_eq (exec_heatcurve core s) (settles_runBlock ..)
  | split core => exact .of_eq (exec_split core s) (settles_runBlock ..)
  | total core => exact .of_eq (exec_total core s) (settles_runBlock ..)
  | getp core => exact .of_eq (exec_getp core s) (settles_runBlock ..)
  | putp core => exact .of_eq (exec_putp core s) (settles_runEffect ..)
  | qual core => exact .of_eq (exec_qual core s) (settles_runBlock ..)
  | unitstat core => exact .of_eq (exec_unitstat core s) (settles_runBlock ..)
  | solveReq core => exact .of_eq (exec_solveReq core s) (settles_runEffect ..)
  | solveGet core => exact .of_eq (exec_solveGet core s) (settles_runBlock ..)
  | evrec core => exact .of_eq (exec_evrec core s) (settles_runEffect ..)
  | clock core => exact .of_eq (exec_clock core s) (settles_runBlock ..)
  | taskDispatch tile => exact .of_eq (exec_taskDispatch tile s) (settles_execTaskDispatch ..)
  | taskComputeDone tile ctx => exact .of_eq (exec_taskComputeDone tile ctx s) (settles_execTaskComputeDone ..)
  | taskRetire tile ctx => exact .of_eq (exec_taskRetire tile ctx s) (settles_execTaskRetire ..)
  | stagingCopy slot block toBulk => exact .of_eq (exec_stagingCopy slot block toBulk s) (settles_execStagingCopy ..)
  | solveBackstop slot => exact .of_eq (exec_solveBackstop slot s) (settles_execSolveBackstop ..)
  | basicCycleStart => exact .of_eq (exec_basicCycleStart s) (settles_execBasicCycleStart ..)
  | referenceFrame line at_ => exact .of_eq (exec_referenceFrame line at_ s) (settles_execReferenceFrame ..)
  | referenceFrameTimeout line => exact .of_eq (exec_referenceFrameTimeout line s) (settles_execReferenceFrameTimeout ..)
  | txWindowStart line window => exact .of_eq (exec_txWindowStart line window s) (settles_execTxWindowStart ..)
  | txFrameDone line at_ result => exact .of_eq (exec_txFrameDone line at_ result s) (settles_execTxFrameDone ..)
  | retrySend line window at_ => exact .of_eq (exec_retrySend line window at_ s) (settles_execRetrySend ..)
  | injectionSend line at_ => exact .of_eq (exec_injectionSend line at_ s) (settles_execInjectionSend ..)
  | frameReceived line at_ frame => exact .of_eq (exec_frameReceived line at_ frame s) (settles_execFrameReceived ..)
  | rxWindowEnd line window => exact .of_eq (exec_rxWindowEnd line window s) (settles_execRxWindowEnd ..)
  | lineError line kind dataPhase transmitting how => exact .of_eq (exec_lineError line kind dataPhase transmitting how s) (settles_execLineError ..)
  | lineIntegrated line => exact .of_eq (exec_lineIntegrated line s) (settles_execLineIntegrated ..)
  | busOffRecovery line => exact .of_eq (exec_busOffRecovery line s) (settles_execBusOffRecovery ..)
  | xcvrFault line fault => exact .of_eq (exec_xcvrFault line fault s) (settles_execXcvrFault ..)
  | ventEvent => exact .of_eq (exec_ventEvent s) (settles_execVentEvent ..)
  | diChange input level at_ => exact .of_eq (exec_diChange input level at_ s) (settles_execDiChange ..)
  | diFilterExpiry input => exact .of_eq (exec_diFilterExpiry input s) (settles_execDiFilterExpiry ..)
  | faultRaised code cls words => exact .of_eq (exec_faultRaised code cls words s) (settles_execFaultRaised ..)
  | faultHandling => exact .of_eq (exec_faultHandling s) (settles_execFaultHandling ..)
  | safeEntryWatchdog => exact .of_eq (exec_safeEntryWatchdog s) (settles_execSafeEntryWatchdog ..)
  | clockLoss pll => exact .of_eq (exec_clockLoss pll s) (settles_execClockLoss ..)
  | lockstepMismatch => exact .of_eq (exec_lockstepMismatch s) (settles_execLockstepMismatch ..)
  | poisonedRead reader addr => exact .of_eq (exec_poisonedRead reader addr s) (settles_execPoisonedRead ..)
  | scrubPass => exact .of_eq (exec_scrubPass s) (settles_execScrubPass ..)
  | heartbeat => exact .of_eq (exec_heartbeat s) (settles_execHeartbeat ..)
  | supWdog => exact .of_eq (exec_supWdog s) (settles_execSupWdog ..)
  | meterTick samples poisoned => exact .of_eq (exec_meterTick samples poisoned s) (settles_execMeterTick ..)
  | fundamentalCycle set period points => exact .of_eq (exec_fundamentalCycle set period points s) (settles_execFundamentalCycle ..)
  | lockTimeout set => exact .of_eq (exec_lockTimeout set s) (settles_execLockTimeout ..)
  | meterSecond => exact .of_eq (exec_meterSecond s) (settles_execMeterSecond ..)
  | periodicSave => exact .of_eq (exec_periodicSave s) (settles_execPeriodicSave ..)
  | meteringStop => exact .of_eq (exec_meteringStop s) (settles_execMeteringStop ..)
  | watchSecond irms => exact .of_eq (exec_watchSecond irms s) (settles_execWatchSecond ..)
  | watchLimit => exact .of_eq (exec_watchLimit s) (settles_execWatchLimit ..)
  | spiWrite addr words => exact .of_eq (exec_spiWrite addr words s) (settles_execSpiWrite ..)
  | spiRead addr count => exact .of_eq (exec_spiRead addr count s) (settles_execSpiRead ..)
  | spiReserved command => exact .of_eq (exec_spiReserved command s) (settles_execSpiReserved ..)
  | spiFrameAbort isRead addr words => exact .of_eq (exec_spiFrameAbort isRead addr words s) (settles_execSpiFrameAbort ..)
  | pcieMemRead addr count => exact .of_eq (exec_pcieMemRead addr count s) (settles_execPcieMemRead ..)
  | pcieMemWrite addr words => exact .of_eq (exec_pcieMemWrite addr words s) (settles_execPcieMemWrite ..)
  | pcieConfigAccess write offset value enables => exact .of_eq (exec_pcieConfigAccess write offset value enables s) (settles_execPcieConfigAccess ..)
  | pciePowerState d3hot => exact .of_eq (exec_pciePowerState d3hot s) (settles_execPciePowerState ..)
  | linkDown why => exact .of_eq (exec_linkDown why s) (settles_execLinkDown ..)
  | msiSend vector => exact .of_eq (exec_msiSend vector s) (settles_execMsiSend ..)
  | glbNtLoRead => exact .of_eq (exec_glbNtLoRead s) (settles_whilePowered ..)
  | glbCplRead => exact .of_eq (exec_glbCplRead s) (settles_whilePowered ..)
  | glbIrqStatWrite value => exact .of_eq (exec_glbIrqStatWrite value s) (settles_whilePowered ..)
  | glbIrqEnWrite value => exact .of_eq (exec_glbIrqEnWrite value s) (settles_whilePowered ..)
  | glbIrqMapWrite value => exact .of_eq (exec_glbIrqMapWrite value s) (settles_whilePowered ..)
  | mbDoorbell mb at_ => exact .of_eq (exec_mbDoorbell mb at_ s) (settles_execMbDoorbell ..)
  | mailboxTake at_ => exact .of_eq (exec_mailboxTake at_ s) (settles_execMailboxTake ..)
  | commandCompletion mb at_ => exact .of_eq (exec_commandCompletion mb at_ s) (settles_execCommandCompletion ..)
  | dmaTransfer mb list data => exact .of_eq (exec_dmaTransfer mb list data s) (settles_execDmaTransfer ..)
  | dmaError mb error done => exact .of_eq (exec_dmaError mb error done s) (settles_execDmaError ..)
  | dmaCompletionTimeout mb done => exact .of_eq (exec_dmaCompletionTimeout mb done s) (settles_execDmaCompletionTimeout ..)
  | sysInfo mb => exact .of_eq (exec_sysInfo mb s) (settles_runCommand ..)
  | sysState mb => exact .of_eq (exec_sysState mb s) (settles_runCommand ..)
  | sysReset mb => exact .of_eq (exec_sysReset mb s) (settles_runCommand ..)
  | sysResetExpiry => exact .of_eq (exec_sysResetExpiry s) (settles_execSysResetExpiry ..)
  | parRead mb => exact .of_eq (exec_parRead mb s) (settles_runCommand ..)
  | parWrite mb => exact .of_eq (exec_parWrite mb s) (settles_runCommand ..)
  | cfgCommit mb => exact .of_eq (exec_cfgCommit mb s) (settles_runCommand ..)
  | cfgDiscard mb => exact .of_eq (exec_cfgDiscard mb s) (settles_runCommand ..)
  | imgPut mb => exact .of_eq (exec_imgPut mb s) (settles_runCommand ..)
  | imgLoad mb => exact .of_eq (exec_imgLoad mb s) (settles_runCommand ..)
  | imgInfo mb => exact .of_eq (exec_imgInfo mb s) (settles_runCommand ..)
  | fwStage mb => exact .of_eq (exec_fwStage mb s) (settles_runCommand ..)
  | unitRead mb => exact .of_eq (exec_unitRead mb s) (settles_runCommand ..)
  | unitService mb => exact .of_eq (exec_unitService mb s) (settles_runCommand ..)
  | ptRead mb => exact .of_eq (exec_ptRead mb s) (settles_runCommand ..)
  | ptDir mb => exact .of_eq (exec_ptDir mb s) (settles_runCommand ..)
  | ptForce mb => exact .of_eq (exec_ptForce mb s) (settles_runCommand ..)
  | ptRelease mb => exact .of_eq (exec_ptRelease mb s) (settles_runCommand ..)
  | ptForces mb => exact .of_eq (exec_ptForces mb s) (settles_runCommand ..)
  | lnService mb => exact .of_eq (exec_lnService mb s) (settles_runCommand ..)
  | mxRead mb => exact .of_eq (exec_mxRead mb s) (settles_runCommand ..)
  | stnRead mb => exact .of_eq (exec_stnRead mb s) (settles_runCommand ..)
  | ceStatus mb => exact .of_eq (exec_ceStatus mb s) (settles_runCommand ..)
  | ceSwap mb => exact .of_eq (exec_ceSwap mb s) (settles_runCommand ..)
  | ceSwapCancel mb => exact .of_eq (exec_ceSwapCancel mb s) (settles_runCommand ..)
  | ceVarRead mb => exact .of_eq (exec_ceVarRead mb s) (settles_runCommand ..)
  | slvEngineStatus mb => exact .of_eq (exec_slvEngineStatus mb s) (settles_runCommand ..)
  | slvSlots mb => exact .of_eq (exec_slvSlots mb s) (settles_runCommand ..)
  | slvResult mb => exact .of_eq (exec_slvResult mb s) (settles_runCommand ..)
  | slvAbort mb => exact .of_eq (exec_slvAbort mb s) (settles_runCommand ..)
  | slvProgramInfo mb => exact .of_eq (exec_slvProgramInfo mb s) (settles_runCommand ..)
  | slvUnload mb => exact .of_eq (exec_slvUnload mb s) (settles_runCommand ..)
  | mtrRead mb => exact .of_eq (exec_mtrRead mb s) (settles_execMtrRead ..)
  | mtrReadSigned mb => exact .of_eq (exec_mtrReadSigned mb s) (settles_runMeter ..)
  | mtrRecord mb => exact .of_eq (exec_mtrRecord mb s) (settles_runMeter ..)
  | mtrLoss mb => exact .of_eq (exec_mtrLoss mb s) (settles_runMeter ..)
  | mtrAckLoss mb => exact .of_eq (exec_mtrAckLoss mb s) (settles_runMeter ..)
  | mtrCalBegin mb => exact .of_eq (exec_mtrCalBegin mb s) (settles_runMeter ..)
  | mtrCalSet mb => exact .of_eq (exec_mtrCalSet mb s) (settles_runMeter ..)
  | mtrCalMeasure mb => exact .of_eq (exec_mtrCalMeasure mb s) (settles_runMeter ..)
  | mtrCalCommit mb => exact .of_eq (exec_mtrCalCommit mb s) (settles_runMeter ..)
  | mtrCalCancel mb => exact .of_eq (exec_mtrCalCancel mb s) (settles_runMeter ..)
  | mtrWatchRead mb => exact .of_eq (exec_mtrWatchRead mb s) (settles_runMeter ..)
  | mtrWatchClear mb => exact .of_eq (exec_mtrWatchClear mb s) (settles_runMeter ..)
  | hqRead mb => exact .of_eq (exec_hqRead mb s) (settles_execHqRead ..)
  | hqReadSigned mb => exact .of_eq (exec_hqReadSigned mb s) (settles_runCommand ..)
  | hqRecord mb => exact .of_eq (exec_hqRecord mb s) (settles_runCommand ..)
  | hqAckLoss mb => exact .of_eq (exec_hqAckLoss mb s) (settles_runCommand ..)
  | timeGet mb => exact .of_eq (exec_timeGet mb s) (settles_runCommand ..)
  | timeSet mb => exact .of_eq (exec_timeSet mb s) (settles_execTimeSet ..)
  | timeAdjust mb => exact .of_eq (exec_timeAdjust mb s) (settles_execTimeAdjust ..)
  | timeChangeApply => exact .of_eq (exec_timeChangeApply s) (settles_execTimeChangeApply ..)
  | alarmSet mb => exact .of_eq (exec_alarmSet mb s) (settles_runCommand ..)
  | timeTrim mb => exact .of_eq (exec_timeTrim mb s) (settles_runCommand ..)
  | alarmFire => exact .of_eq (exec_alarmFire s) (settles_execAlarmFire ..)
  | beyondReached => exact .of_eq (exec_beyondReached s) (settles_execBeyondReached ..)
  | oscStop => exact .of_eq (exec_oscStop s) (settles_execOscStop ..)
  | oscRestart => exact .of_eq (exec_oscRestart s) (settles_execOscRestart ..)
  | batlowCheck millivolts => exact .of_eq (exec_batlowCheck millivolts s) (settles_execBatlowCheck ..)
  | rtcRegisterRead offset => exact .of_eq (exec_rtcRegisterRead offset s) (settles_execRtcRegisterRead ..)
  | rtcTickHiRead => exact .of_eq (exec_rtcTickHiRead s) (settles_execRtcTickHiRead ..)
  | rtcBlockWrite offset value => exact .of_eq (exec_rtcBlockWrite offset value s) (settles_execRtcBlockWrite ..)
  | rtcShadowTimeout => exact .of_eq (exec_rtcShadowTimeout s) (settles_execRtcShadowTimeout ..)
  | rsStore mb => exact .of_eq (exec_rsStore mb s) (settles_runCommand ..)
  | rsInfo mb => exact .of_eq (exec_rsInfo mb s) (settles_runCommand ..)
  | ctrRead mb => exact .of_eq (exec_ctrRead mb s) (settles_runCommand ..)
  | pageStore => exact .of_eq (exec_pageStore s) (settles_execPageStore ..)
  | counterIncrement => exact .of_eq (exec_counterIncrement s) (settles_execCounterIncrement ..)
  | rsCmdStore value => exact .of_eq (exec_rsCmdStore value s) (settles_whilePowered ..)
  | rsCmdCtrInc value => exact .of_eq (exec_rsCmdCtrInc value s) (settles_whilePowered ..)
  | rsWdataRead => exact .of_eq (exec_rsWdataRead s) (settles_whilePowered ..)
  | rsWdataWrite value => exact .of_eq (exec_rsWdataWrite value s) (settles_whilePowered ..)
  | recallComplete => exact .of_eq (exec_recallComplete s) (settles_execRecallComplete ..)
  | keyInfo mb => exact .of_eq (exec_keyInfo mb s) (settles_runCommand ..)
  | keyStage mb => exact .of_eq (exec_keyStage mb s) (settles_runCommand ..)
  | keyVerify mb => exact .of_eq (exec_keyVerify mb s) (settles_runCommand ..)
  | keyCommit mb => exact .of_eq (exec_keyCommit mb s) (settles_runCommand ..)
  | keyDiscard mb => exact .of_eq (exec_keyDiscard mb s) (settles_runCommand ..)
  | attest mb => exact .of_eq (exec_attest mb s) (settles_runCommand ..)
  | keyPublic mb => exact .of_eq (exec_keyPublic mb s) (settles_runCommand ..)
  | keySlotCheck bad => exact .of_eq (exec_keySlotCheck bad s) (settles_execKeySlotCheck ..)
  | evrRead mb => exact .of_eq (exec_evrRead mb s) (settles_runCommand ..)
  | evrExcerpt mb => exact .of_eq (exec_evrExcerpt mb s) (settles_runCommand ..)
  | evrCode mb => exact .of_eq (exec_evrCode mb s) (settles_runCommand ..)
  | recordOffer code cls source words => exact .of_eq (exec_recordOffer code cls source words s) (settles_execRecordOffer ..)
  | recordWrite => exact .of_eq (exec_recordWrite s) (settles_execRecordWrite ..)
  | excerptDirtyTimeout page => exact .of_eq (exec_excerptDirtyTimeout page s) (settles_execExcerptDirtyTimeout ..)
  | evrCurHiWrite value => exact .of_eq (exec_evrCurHiWrite value s) (settles_whilePowered ..)
  | evrToOldest => exact .of_eq (exec_evrToOldest s) (settles_whilePowered ..)
  | evrToNew => exact .of_eq (exec_evrToNew s) (settles_whilePowered ..)
  | maStatus mb => exact .of_eq (exec_maStatus mb s) (settles_runCommand ..)
  | rplCapture mb => exact .of_eq (exec_rplCapture mb s) (settles_runCommand ..)
  | rplSnapGet mb => exact .of_eq (exec_rplSnapGet mb s) (settles_runCommand ..)
  | rplStart mb => exact .of_eq (exec_rplStart mb s) (settles_runCommand ..)
  | rplFeed mb => exact .of_eq (exec_rplFeed mb s) (settles_runCommand ..)
  | rplOutput mb => exact .of_eq (exec_rplOutput mb s) (settles_runCommand ..)
  | rplEnd mb => exact .of_eq (exec_rplEnd mb s) (settles_runCommand ..)
  | lbwSelWrite value => exact .of_eq (exec_lbwSelWrite value s) (settles_whilePowered ..)
  | lbwWatchWrite value => exact .of_eq (exec_lbwWatchWrite value s) (settles_whilePowered ..)
  | vntRelease value => exact .of_eq (exec_vntRelease value s) (settles_whilePowered ..)
  | vntReleaseAll => exact .of_eq (exec_vntReleaseAll s) (settles_whilePowered ..)
  | vntFirstRead => exact .of_eq (exec_vntFirstRead s) (settles_whilePowered ..)
  | safeExit => exact .of_eq (exec_safeExit s) (settles_whilePowered ..)
  | mtrSnap => exact .of_eq (exec_mtrSnap s) (settles_whilePowered ..)
  | mtrRelease => exact .of_eq (exec_mtrRelease s) (settles_whilePowered ..)
  | cvStart unit => exact .of_eq (exec_cvStart unit s) (settles_whilePowered ..)
  | cvFeed8 unit value => exact .of_eq (exec_cvFeed8 unit value s) (settles_whilePowered ..)
  | cvFeed16 unit value => exact .of_eq (exec_cvFeed16 unit value s) (settles_whilePowered ..)
  | cvFeed32 unit value => exact .of_eq (exec_cvFeed32 unit value s) (settles_whilePowered ..)
  | cvCfgWrite unit value => exact .of_eq (exec_cvCfgWrite unit value s) (settles_whilePowered ..)
  | registerWrite addr value => exact .of_eq (exec_registerWrite addr value s) (settles_whilePowered ..)
  | vinGood ticks => exact .of_eq (exec_vinGood ticks s) (settles_execVinGood ..)
  | vinFail => exact .of_eq (exec_vinFail s) (settles_execVinFail ..)
  | holdEnd => exact .of_eq (exec_holdEnd s) (settles_execHoldEnd ..)
  | vbatLoss => exact .of_eq (exec_vbatLoss s) (settles_execVbatLoss ..)
  | vioHChange good => exact .of_eq (exec_vioHChange good s) (settles_execVioHChange ..)
  | reset cause => exact .of_eq (exec_reset cause s) (settles_execReset ..)
  | readyAssert rootGood badSlots => exact .of_eq (exec_readyAssert rootGood badSlots s) (settles_execReadyAssert ..)
  | activation => exact .of_eq (exec_activation s) (settles_execActivation ..)
  | activationTimeout => exact .of_eq (exec_activationTimeout s) (settles_execActivationTimeout ..)
  | xcvrFaultCleared line fault => exact .of_eq (exec_xcvrFaultCleared line fault s) (settles_execXcvrFaultCleared ..)
  | busdom line => exact .of_eq (exec_busdom line s) (settles_execBusdom ..)
  | vbatPresent => exact .of_eq (exec_vbatPresent s) (settles_execVbatPresent ..)
  | vholdCutoff => exact .of_eq (exec_vholdCutoff s) (settles_execVholdCutoff ..)
  | vholdMeasure millivolts => exact .of_eq (exec_vholdMeasure millivolts s) (settles_execVholdMeasure ..)
  | pcieLinkUp => exact .of_eq (exec_pcieLinkUp s) (settles_execPcieLinkUp ..)
  | internalResetRelease hostsel => exact .of_eq (exec_internalResetRelease hostsel s) (settles_execInternalResetRelease ..)
  | startupComplete => exact .of_eq (exec_startupComplete s) (settles_execStartupComplete ..)
  | boundaryScanAccess op => exact .of_eq (exec_boundaryScanAccess op s) (settles_execBoundaryScanAccess ..)

end Sys2Proof.Machine
end

section
/-! PROOFS. The step, the state after reset and the interrupts: O1 and O3 to O8 assembled from what every command ends with, what a step without a command leaves, and what settling does vector by vector. -/
namespace Sys2Proof.Machine

/-! The invariant of the messages. -/

/-- A state that is settled knows the vectors pending. -/
theorem msiSettled_settle (s : State) : MsiSettled (settle s) := (settle_msiWas s).trans (vectorsPending_settle s).symm

theorem alm_spin (r : Rtc) (dt : Nat) : (r.spin dt).alm = r.alm := rfl

/-- Time that passes leaves the alarm flag as it is. -/
theorem alm_run (r : Rtc) (dt : Nat) : (r.run dt).alm = r.alm := by
  unfold Rtc.run
  split
  · rfl
  · split
    · exact alm_spin r dt
    · exact alm_spin r r.toEdge

@[simp] theorem alm_rtcAfter (s : State) (dt : Nat) : (rtcAfter s dt).alm = s.rtc.alm := by
  unfold rtcAfter
  split
  · exact alm_run s.rtc dt
  · rfl

/-- A step without a command leaves the alarm flag as it is. -/
theorem alm_idleTick (s : State) : (idleTick s).rtc.alm = s.rtc.alm := by
  unfold idleTick advanceTo
  split
  · split
    · rfl
    · exact alm_rtcAfter s _
  · split
    · rfl
    · rfl

/-- The interrupt sources are bits of the global registers, of the faults that are pending, of the alarm, of the recorder and of RS_CMD (12 R344). -/
theorem irqStat_congr {s t : State} (hglb : t.glb = s.glb) (hft : t.ft = s.ft) (halm : t.rtc.alm = s.rtc.alm) (hev : t.ev = s.ev)
    (hrs : t.rs = s.rs) : irqStat t = irqStat s := by
  simp only [irqStat, hglb, hft, halm, hev, hrs]

/-- The vectors pending are made of the sources, of the global registers and of the link's configuration (12 R345). -/
theorem vectorsPending_congr {s t : State} (hirq : irqStat t = irqStat s) (hglb : t.glb = s.glb) (hpwr : t.pwr = s.pwr)
    (hpcie : t.pcie = s.pcie) : vectorsPending t = vectorsPending s := by
  have hon : msiOn t = msiOn s := by simp only [msiOn, hpwr, hpcie]
  have hvec : vectorOf t = vectorOf s := by
    funext g
    simp only [vectorOf, msiGranted, hglb, hpcie]
  simp only [vectorsPending, hon, hvec, hirq, hglb]

/-- A step without a command changes no source of an interrupt. -/
theorem vectorsPending_idleTick (s : State) : vectorsPending (idleTick s) = vectorsPending s :=
  vectorsPending_congr (irqStat_congr (idleTick_glb s) (idleTick_ft s) (alm_idleTick s) (idleTick_ev s) (idleTick_rs s))
    (idleTick_glb s) (idleTick_pwr s) (idleTick_pcie s)

theorem msiSettled_idleTick {s : State} (h : MsiSettled s) : MsiSettled (idleTick s) := by
  rw [MsiSettled, idleTick_link, vectorsPending_idleTick]
  exact h

/-- What a command leaves is settled, whatever it found. -/
theorem msiSettled_of_exec {c : Instr} {s t : State} (h : exec c s = .next t) : MsiSettled t := by
  obtain ⟨u, hu⟩ := exec_settles c s
  obtain rfl : settle u = t := by injection hu.symm.trans h
  exact msiSettled_settle u

/-- Settles O1: the step is defined by the front of the queue. -/
theorem stepRunsTheFrontCommand : Obligations.StepRunsTheFrontCommand := by
  unfold Obligations.StepRunsTheFrontCommand
  intro s c rest h
  simp only [step, h]

/-- Settles O3: every command ends with a settled state. -/
theorem everyCommandAnswersANextState : Obligations.EveryCommandAnswersANextState := by
  unfold Obligations.EveryCommandAnswersANextState
  intro c s
  obtain ⟨t, ht⟩ := exec_settles c s
  exact ⟨settle t, ht⟩

/-- Settles O4: a command settles what it leaves, and a step without a command changes no source. -/
theorem everyStepKeepsMessagesSettled : Obligations.EveryStepKeepsMessagesSettled := by
  unfold Obligations.EveryStepKeepsMessagesSettled
  intro s t hs ht
  cases hq : s.pending with
  | nil =>
    obtain rfl : idleTick s = t := by injection (step_of_empty hq).symm.trans ht
    exact msiSettled_idleTick hs
  | cons c rest => exact msiSettled_of_exec ((stepRunsTheFrontCommand s c rest hq).symm.trans ht)

/-- Settles O5: no vector is pending after reset, and none is known as pending. -/
theorem resetIsSettled : Obligations.ResetIsSettled := by
  unfold Obligations.ResetIsSettled
  rfl

/-- Settles O6: each value is the one that the state after reset is defined with. -/
theorem resetLeavesTheStatedValues : Obligations.ResetLeavesTheStatedValues := by
  unfold Obligations.ResetLeavesTheStatedValues
  refine ⟨rfl, rfl, rfl, rfl, fun l => ⟨rfl, rfl, rfl⟩, rfl, rfl, rfl, rfl, rfl, rfl, rfl, rfl, rfl, rfl, rfl, rfl, rfl, rfl, rfl, rfl, rfl,
    rfl, rfl, rfl, rfl, rfl, rfl, rfl⟩

/-! What settling does, vector by vector. -/

/-- The vectors that have become pending since the last command. -/
def freshVectors (s : State) : Nat := vectorsPending s &&& (vectorsPending s ^^^ (vectorsPending s &&& s.link.msiWas))

theorem testBit_freshVectors (s : State) (v : Nat) :
    (freshVectors s).testBit v = ((vectorsPending s).testBit v && !s.link.msiWas.testBit v) := by
  simp only [freshVectors, Nat.testBit_and, Nat.testBit_xor]
  cases (vectorsPending s).testBit v <;> simp

theorem owe_zero (s : State) : owe s 0 = s := by simp [owe]

theorem settle_eq (s : State) :
    settle s = { owe s (freshVectors s) with link := { (owe s (freshVectors s)).link with msiWas := vectorsPending s } } := by
  unfold settle
  dsimp only
  split
  next h => rw [show freshVectors s = 0 from h, owe_zero]
  next h => rfl

/-- Settles O7: the fresh vectors become owed, or their Pending bits are set where they are masked. -/
theorem aNewVectorOwesItsMessage : Obligations.ANewVectorOwesItsMessage := by
  unfold Obligations.ANewVectorOwesItsMessage
  intro s v
  have hdue : (settle s).link.msiDue = s.link.msiDue ||| (freshVectors s ^^^ (freshVectors s &&& msiMask s)) := by rw [settle_eq]; rfl
  have hpend : (settle s).pcie.msiPending = s.pcie.msiPending ||| (freshVectors s &&& msiMask s) := by rw [settle_eq]; rfl
  refine ⟨?due, ?pending, settle_frame s⟩
  case due =>
    simp only [hdue, Nat.testBit_or, Nat.testBit_xor, Nat.testBit_and, testBit_freshVectors]
    cases (msiMask s).testBit v <;> simp
  case pending => simp only [hpend, Nat.testBit_or, Nat.testBit_and, testBit_freshVectors]

/-! HOST_IRQ_N. -/

theorem and_ne_zero_iff_testBit (x y : Nat) : x &&& y ≠ 0 ↔ ∃ b, x.testBit b = true ∧ y.testBit b = true := by
  constructor
  · intro h
    obtain ⟨b, hb⟩ := Nat.exists_testBit_of_ne_zero h
    rw [Nat.testBit_and, Bool.and_eq_true] at hb
    exact ⟨b, hb⟩
  · rintro ⟨b, hx, hy⟩ h
    have hb : (x &&& y).testBit b = true := by rw [Nat.testBit_and, hx, hy]; rfl
    simp [h] at hb

theorem hostIrq_of_stopped {s : State} (h : s.clk.running = false) : hostIrq s = false := by simp [hostIrq, h]

theorem hostIrq_iff (s : State) :
    hostIrq s = true ↔ s.clk.running = true ∧ ∃ b, (irqStat s).testBit b = true ∧ s.glb.irqEn.testBit b = true := by
  rw [← and_ne_zero_iff_testBit]
  simp [hostIrq]

/-- Settles O8: the land follows the sources and the enables, and no clock runs after a reset. -/
theorem hostIrqFollowsTheEnabledSources : Obligations.HostIrqFollowsTheEnabledSources := by
  unfold Obligations.HostIrqFollowsTheEnabledSources
  exact ⟨hostIrq_iff, fun s h => hostIrq_of_stopped h, fun s spi p => rfl, hostIrq_of_stopped rfl, fun s p => hostIrq_of_stopped rfl⟩

end Sys2Proof.Machine
end

section
/-! PROOFS. The blocks of instances: each command runs its block, what such a run leaves unchanged, and the selection blocks; O9, O10, O11 and O15. -/
namespace Sys2Proof.Machine

/-! The commands that run an instance of a block. -/

/-- The command of a row runs the row's block at an instance of the row's code. -/
def BlockRow.Runs (row : BlockRow) : Prop := ∀ (core : Nat) (s : State), exec (row.cmd core) s = runBlock s core row.code row.block

theorem runs_arithmeticRows : ∀ row ∈ arithmeticRows, row.Runs := by
  simp only [arithmeticRows, List.forall_mem_cons]
  exact ⟨exec_nop, exec_add, exec_sub, exec_mul, exec_div, exec_mod, exec_abs, exec_neg, exec_min, exec_max, exec_limit, exec_sqrt,
    exec_scale, exec_conv, fun _ h => nomatch h⟩

theorem runs_logicRows : ∀ row ∈ logicRows, row.Runs := by
  simp only [logicRows, List.forall_mem_cons]
  exact ⟨exec_cmp, exec_and, exec_or, exec_xor, exec_not, exec_sel, exec_mux, exec_sr, exec_rs, exec_bitget,
    exec_bitset, fun _ h => nomatch h⟩

theorem runs_timeRows : ∀ row ∈ timeRows, row.Runs := by
  simp only [timeRows, List.forall_mem_cons]
  exact ⟨exec_rtrig, exec_ftrig, exec_ton, exec_tof, exec_tp, exec_tonL, exec_ctu, exec_ctd, exec_ctud, exec_ramp,
    exec_rate, fun _ h => nomatch h⟩

theorem runs_controlRows : ∀ row ∈ controlRows, row.Runs := by
  simp only [controlRows, List.forall_mem_cons]
  exact ⟨exec_pid, exec_pt1, exec_deadband, exec_hyst, exec_curve, exec_heatcurve, exec_split, exec_total, fun _ h => nomatch h⟩

theorem runs_readingRows : ∀ row ∈ readingRows, row.Runs := by
  simp only [readingRows, List.forall_mem_cons]
  exact ⟨exec_getp, exec_qual, exec_unitstat, exec_solveGet, exec_clock, fun _ h => nomatch h⟩

/-- The blocks without an effect beyond their own state. -/
def innerRows : List BlockRow := arithmeticRows ++ logicRows ++ timeRows ++ controlRows ++ readingRows

theorem runs_innerRows : ∀ row ∈ innerRows, row.Runs := by
  simp only [innerRows, List.forall_mem_append]
  exact ⟨⟨⟨⟨runs_arithmeticRows, runs_logicRows⟩, runs_timeRows⟩, runs_controlRows⟩, runs_readingRows⟩

/-- At an instance of its block, a command stores what the block makes of what the instance sees. -/
theorem BlockRow.Runs.does {row : BlockRow} (h : row.Runs) {s : State} {core : Nat} {c : Ctx} (hat : AtBlock s core row.code c) :
    Does (row.cmd core) s (endInst s c core (row.block c)) := (h core s).trans (runBlock_at hat row.block)

/-- Settles O9: a command runs its block, and a block that runs ends its instance. -/
theorem theBlocksRun : Obligations.TheBlocksRun := by
  unfold Obligations.TheBlocksRun
  exact ⟨fun row h s core c => (runs_arithmeticRows row h).does, fun row h s core c => (runs_logicRows row h).does,
    fun row h s core c => (runs_timeRows row h).does, fun row h s core c => (runs_controlRows row h).does⟩

/-- Settles O10: the commands that only read run their blocks, and the three others have their effect before the instance ends. -/
theorem interfaceBlocksRun : Obligations.InterfaceBlocksRun := by
  unfold Obligations.InterfaceBlocksRun
  refine ⟨fun row h s core c => (runs_readingRows row h).does, fun s core c hat => ⟨fun hen => ?written, fun hen => ?unwritten⟩,
    fun s core c hat => (exec_evrec core s).trans (runEffect_at hat evrecBlock evrecEffect),
    fun s core c hat => (exec_solveReq core s).trans (runEffect_at hat solveReqBlock solveReqEffect)⟩
  all_goals have hexec := (exec_putp core s).trans (runEffect_at hat putpBlock putpWrite)
  case written =>
    rw [putpWrite, if_pos hen] at hexec
    exact hexec
  case unwritten =>
    rw [putpWrite, if_neg (ne_true_of_eq_false hen)] at hexec
    exact hexec

/-! What the command of a block leaves unchanged. -/

/-- `t` is `s` but for the cycle engine, the count of free values and the messages owed. -/
def OnlyCycleEngine (s t : State) : Prop := t = { s with
  ce := t.ce, free := t.free
  link := { s.link with msiDue := t.link.msiDue, msiWas := t.link.msiWas }
  pcie := { s.pcie with msiPending := t.pcie.msiPending } }

theorem onlyCycleEngine_settle (s : State) : OnlyCycleEngine s (settle s) := by
  rw [OnlyCycleEngine, settle_frame]

theorem onlyCycleEngine_settle_endInst (s : State) (c : Ctx) (core : Nat) (o : BlkOut) :
    OnlyCycleEngine s (settle (endInst s c core o)) := by
  rw [OnlyCycleEngine, settle_frame, endInst_frame]

/-- What the run of a block leaves: a settled state, or a settled state after the end of the instance. -/
theorem onlyCycleEngine_of_runBlock {s t : State} {core code : Nat} {f : Ctx → BlkOut} (h : runBlock s core code f = .next t) :
    OnlyCycleEngine s t := by
  obtain hr | ⟨c, -, hr⟩ := runEffect_cases s core code f fun _ _ s => s
  · obtain rfl := done_eq (hr.symm.trans h)
    exact onlyCycleEngine_settle s
  · obtain rfl := done_eq (hr.symm.trans h)
    exact onlyCycleEngine_settle_endInst s c core (f c)

/-- Settles O11: a command of these rows is the run of its block. -/
theorem blockCommandsChangeOnlyTheCycleEngine : Obligations.BlockCommandsChangeOnlyTheCycleEngine := by
  unfold Obligations.BlockCommandsChangeOnlyTheCycleEngine
  intro row hrow s t core h
  exact onlyCycleEngine_of_runBlock ((runs_innerRows row hrow core s).symm.trans h)

/-! The selection blocks (06 Table 6-8). -/

theorem selBlock_outs (c : Ctx) {x : Sig} (h : (if c.flag 0 then c.input 2 else c.input 1) = x) :
    (selBlock c).outs = [outWord [(c.input 0).quality, x.quality] x.value false false] := by
  subst h
  rfl

theorem muxBlock_outs (c : Ctx) {i : Nat} (h : Nat.min (c.input 0).value.toNat ((c.param 0).toNat - 1) = i) :
    (muxBlock c).outs = [outWord [(c.input 0).quality, (c.input (1 + i)).quality] (c.input (1 + i)).value
      (decide ((c.param 0).toNat ≤ (c.input 0).value.toNat)) false] := by
  subst h
  rfl

theorem srBlock_outs (c : Ctx) {b : Bool} (h : (c.flag 0 || ((c.held 0).getLsbD 0 && !c.flag 1)) = b) :
    (srBlock c).outs = [outBool (quals (c.first_ 2)) b] := by
  subst h
  rfl

theorem rsBlock_outs (c : Ctx) {b : Bool} (h : (!c.flag 1 && (c.flag 0 || (c.held 0).getLsbD 0)) = b) :
    (rsBlock c).outs = [outBool (quals (c.first_ 2)) b] := by
  subst h
  rfl

/-- Settles O15: each clause decides which input is selected, or the state that SR and RS keep. -/
theorem selectionBlocksSelect : Obligations.SelectionBlocksSelect := by
  unfold Obligations.SelectionBlocksSelect
  intro c
  refine ⟨fun h => selBlock_outs c (if_pos h), fun h => selBlock_outs c (if_neg (ne_true_of_eq_false h)), fun k hk hlt => ?inRange,
    fun n hn hle => ?beyond, fun h => srBlock_outs c (by simp [h]), fun h0 h1 => srBlock_outs c (by simp [h0, h1]),
    fun h => rsBlock_outs c (by simp [h]), fun h1 h0 => rsBlock_outs c (by simp [h0, h1]),
    fun h0 h1 => ⟨srBlock_outs c (by simp [h0, h1]), rsBlock_outs c (by simp [h0, h1])⟩⟩
  case inRange =>
    have hmin : Nat.min (c.input 0).value.toNat ((c.param 0).toNat - 1) = k := by rw [hk]; exact Nat.min_eq_left (by omega)
    rw [muxBlock_outs c hmin, decide_eq_false (by omega)]
  case beyond =>
    have hmin : Nat.min (c.input 0).value.toNat ((c.param 0).toNat - 1) = n := by rw [hn]; exact Nat.min_eq_right (by omega)
    rw [muxBlock_outs c hmin, decide_eq_true (by omega)]

end Sys2Proof.Machine
end

section
/-! PROOFS. Mailboxes: doorbells and the common checks, completion and long responses, payload pages, unnamed argument words, and a failed REPLAY request whose end waits; O34, O35, O36, O38 and the refutation of O37. -/
namespace Sys2Proof.Machine

/-! Doorbells (12 Table 12-13, R351 to R353). -/

@[simp] theorem box_advanceTo (s : State) (t mb : Nat) : box (advanceTo s t) mb = box s mb := by simp only [box, advanceTo_mb]

theorem ringBell_of_free {s : State} {mb : Nat} (h : (box s mb).inFlight = false) : ringBell s mb =
    let v := onBox s mb fun b => { b with state := .posted, bellNt := s.clk.nt }
    { v with
      glb := { v.glb with cpl := s.glb.cpl.filter fun e => e.1 != mb }
      mb := { v.mb with bells := s.mb.bells ++ [mb] } } := if_neg (ne_true_of_eq_false h)

/-- The common checks end with the first that fails: what serves the command comes first. -/
theorem commonChecks_of_not_served {s : State} {n : Nat} {b : Mailbox} (h : checkServed s n b.code (ruleOf b.code) ≠ stOk) :
    commonChecks s n b = checkServed s n b.code (ruleOf b.code) := if_pos h

theorem commonChecks_of_no_rule {s : State} {n : Nat} {b : Mailbox} (h : checkServed s n b.code (ruleOf b.code) = stOk)
    (hr : ruleOf b.code = none) : commonChecks s n b = stUnknown := by
  rw [hr] at h
  simp only [commonChecks, hr, h, ne_eq, not_true_eq_false, if_false]

theorem commonChecks_of_rule {s : State} {n : Nat} {b : Mailbox} {r : CmdRule} (h : checkServed s n b.code (ruleOf b.code) = stOk)
    (hr : ruleOf b.code = some r) : commonChecks s n b =
    if (indexed s.mb.boxes).any (fun p => p.1 != n && p.2.inFlight && p.2.tag == b.tag) then stBadParameter
    else if !dmaFieldsOk s r b then stBadParameter
    else if r.isLong b && decide (15 ≤ acceptedCount s) then stBusy
    else stOk := by
  rw [hr] at h
  simp only [commonChecks, hr, h, ne_eq, not_true_eq_false, if_false]

theorem checkServed_of_not_served {s : State} {n code : Nat} {r : Option CmdRule} (h : s.pwr.pstate = 6 ∨ (s.pwr.pstate ≠ 3 ∧ n ≠ 0)) :
    checkServed s n code r = stNotReady := if_pos h

/-- A mailbox that stands under its number in the list, and conversely. -/
theorem mem_indexed_iff {α : Type} {l : List α} {i : Nat} {x : α} : (i, x) ∈ indexed l ↔ l[i]? = some x := by
  refine ⟨getElem?_of_mem_indexed, fun h => ?_⟩
  obtain ⟨hlt, rfl⟩ := List.getElem?_eq_some_iff.mp h
  have hlen : i < (indexed l).length := by simpa [indexed] using hlt
  have hget : (indexed l)[i] = (i, l[i]) := by simp [indexed]
  exact hget ▸ List.getElem_mem hlen

theorem checking_iff (s : State) :
    checking s = true ↔ ∃ b n, s.mb.boxes[n]? = some b ∧ b.state = .exec ∧ serves s n = true ∧ waitsInExec s n = false := by
  simp only [checking, List.any_eq_true, Prod.exists, mem_indexed_iff, Bool.and_eq_true, beq_iff_eq, Bool.not_eq_true', and_assoc]
  exact exists_comm

theorem takes_iff (s : State) : takes s = true ↔
    (s.clk.running = true ∧ ((s.pwr.pstate = 2 ∧ s.pwr.ready = true) ∨ (3 ≤ s.pwr.pstate ∧ s.pwr.pstate ≠ 7))) := by
  simp [takes]

/-- A mailbox that is taken stands in EXEC with its DMA fields cleared, and ends at once where a common check fails. -/
theorem exec_mailboxTake_of_bell {s : State} {n : Nat} {t : List Nat} (at_ : Nat) (hb : s.mb.bells = n :: t) (ht : takes s = true)
    (hc : checking s = false) :
    let u := advanceTo s at_
    let v := onBox { u with mb := { u.mb with bells := t, order := s.mb.order.filter (fun m => m != n) ++ [n] } } n
      (fun b => { b with state := .exec, dmaErr := 0, dmaDone := 0, dmaNeed := 0, reply := none, dmaWait := false })
    exec (.mailboxTake at_) s = done (if commonChecks v n (box v n) = stOk then v else refuse v n (commonChecks v n (box v n))) := by
  simp [exec_mailboxTake, execMailboxTake, takenNow, hb, ht, hc]

/-- Settles O34: the doorbell and the take by their own lemmas, and the common checks one by one. -/
theorem doorbellsPostAndAreTaken : Obligations.DoorbellsPostAndAreTaken := by
  unfold Obligations.DoorbellsPostAndAreTaken
  refine ⟨fun s mb at_ hrun hmb hfree => ?posts, fun s mb at_ hfl => ?inFlight, fun s mb at_ hmb => ?noMailbox,
    fun s n at_ t hb hc => ?waits, checking_iff, fun s n at_ t hb ht hc => ?taken, takes_iff,
    fun s n b h => commonChecks_of_not_served h, fun s n b h hr => commonChecks_of_no_rule h hr,
    fun s n b r h hr => ⟨fun hbad => ?badParameter, fun htwin hdma hlong hfull => ?busy, fun htwin hdma hroom => ?ok⟩,
    fun s n code r h6 => checkServed_of_not_served (.inl h6), fun s n code r h3 hn => checkServed_of_not_served (.inr ⟨h3, hn⟩),
    fun s n code r hserved hm hlo hhi => ?notMetering⟩
  case posts =>
    have hbell : ringBell (advanceTo s at_) mb = _ := ringBell_of_free (by rw [box_advanceTo]; exact hfree)
    have hcond : ¬(!s.clk.running || 16 ≤ mb || (box s mb).inFlight) = true := by simp [hrun, hfree]; omega
    exact ((exec_mbDoorbell mb at_ s).trans (if_neg hcond)).trans (congrArg done hbell)
  case inFlight => exact (exec_mbDoorbell mb at_ s).trans (if_pos (by simp [hfl]))
  case noMailbox => exact (exec_mbDoorbell mb at_ s).trans (if_pos (by simp [hmb]))
  case waits => simp [Does, exec_mailboxTake, execMailboxTake, hb, hc, done]
  case taken =>
    have hexec := exec_mailboxTake_of_bell at_ hb ht hc
    exact ⟨fun hok => hexec.trans (congrArg done (if_pos hok)), fun hbad => hexec.trans (congrArg done (if_neg hbad))⟩
  case badParameter =>
    rw [commonChecks_of_rule h hr]
    rcases hbad with htwin | hdma
    · exact if_pos htwin
    · simp [hdma, stBadParameter]
  case busy =>
    rw [commonChecks_of_rule h hr, if_neg (ne_true_of_eq_false htwin), if_neg (by simp [hdma]), if_pos (by simp [hlong, hfull])]
    rfl
  case ok =>
    have hshort : ¬(r.isLong b && decide (15 ≤ acceptedCount s)) = true := by
      rcases hroom with hl | hc
      · simp [hl]
      · simp [hc]
    rw [commonChecks_of_rule h hr, if_neg (ne_true_of_eq_false htwin), if_neg (by simp [hdma]), if_neg hshort]
    rfl
  case notMetering =>
    have hs : ¬(s.pwr.pstate = 6 ∨ (s.pwr.pstate ≠ 3 ∧ n ≠ 0)) := by omega
    exact (if_neg hs).trans (if_pos (by simp [hm, hlo, hhi]))

/-! Completion and long responses (12 R349, R350, R354, 13 R364). -/

theorem readByte_finish {s : State} {n : Nat} (r : Reply) (h : n < s.mb.boxes.length) (a : Nat) :
    readByte (box (finish s n r) n).page a = if a < r.page.length then (r.page[a]?).getD 0 else readByte (box s n).page a := by
  rw [box_finish_self r h, readByte_writeSpan]
  simp [nth]

/-- What a change of a mailbox keeps, it keeps of every mailbox. -/
theorem map_box_onBox {β : Type} {f : Mailbox → Mailbox} (g : Mailbox → β) (hg : ∀ b, g (f b) = g b) (s : State) (n m : Nat) :
    g (box (onBox s n f) m) = g (box s m) := by
  by_cases hm : m = n
  · subst hm
    by_cases hlen : m < s.mb.boxes.length
    · rw [box_onBox_self f hlen, hg]
    · have hnone : ∀ l : List Mailbox, l.length = s.mb.boxes.length → nth Mailbox.reset l m = Mailbox.reset := fun l hl => by
        simp [nth, List.getElem?_eq_none (hl ▸ Nat.le_of_not_lt hlen)]
      exact congrArg g ((hnone _ (length_modifyNth _ _ _)).trans (hnone _ rfl).symm)
  · rw [box_onBox_ne s f hm]

theorem cpl_finish (s : State) (n : Nat) (r : Reply) : (finish s n r).glb.cpl = s.glb.cpl ++ [(n, (box s n).tag)] :=
  congrArg (fun tag => s.glb.cpl ++ [(n, tag)]) (map_box_onBox Mailbox.tag (by exact fun _ => rfl) s n n)

theorem testBit_irqW1c_finish (s : State) (n : Nat) (r : Reply) (b : Nat) :
    (finish s n r).glb.irqW1c.testBit b = (s.glb.irqW1c.testBit b || b == n) := by
  have hset : (finish s n r).glb.irqW1c = setBit s.glb.irqW1c n true := rfl
  rw [hset, testBit_setBit_true]
  exact congrArg (s.glb.irqW1c.testBit b || ·) (decide_eq_decide.mpr eq_comm)

/-- Settles O35: the completed mailbox by its fields, what a completion leaves, and where a long response goes. -/
theorem completionsAndLongResponses : Obligations.CompletionsAndLongResponses := by
  unfold Obligations.CompletionsAndLongResponses
  refine ⟨fun s n r h => ?fields, fun s n r => ⟨cpl_finish s n r, testBit_irqW1c_finish s n r, fun m hm => box_finish_ne s r hm, finish_frame s n r, rfl⟩,
    fun s n r total gen => ⟨fun hdma h3 => ?awaits, fun hdma h3 => ?dmaOffset, fun hdma hoff hin => ?piece, fun hdma hbad => ?offset⟩⟩
  case fields =>
    refine ⟨?_, ?_, ?_, ?_, ?_, ?_, ?_, ?_, ?_, readByte_finish r h, finish_page_wf r h⟩
    all_goals rw [box_finish_self r h]
  case awaits => exact (if_pos hdma).trans (if_neg (not_not_intro h3))
  case dmaOffset => exact (if_pos hdma).trans (if_pos h3)
  case piece =>
    have hwithin : (box s n).arg3.toNat = 0 ∨ (box s n).arg3.toNat < total.length := hin.imp_left (congrArg BitVec.toNat)
    exact (if_neg (ne_true_of_eq_false hdma)).trans (if_neg (by omega))
  case offset =>
    have hout : (box s n).arg3.toNat % 4096 ≠ 0 ∨ ((box s n).arg3.toNat ≠ 0 ∧ total.length ≤ (box s n).arg3.toNat) :=
      hbad.imp_right (And.imp_left fun hne h0 => hne (BitVec.eq_of_toNat_eq h0))
    exact (if_neg (ne_true_of_eq_false hdma)).trans (if_pos hout)

/-! Payload pages (12 R347, R348). -/

theorem nth_natLe {n i : Nat} (x : Nat) (h : i < n) : nth 0 (natLe n x) i = BitVec.ofNat 8 (x / 256 ^ i) := by
  induction n generalizing i x with
  | zero => omega
  | succ n ih =>
    cases i with
    | zero => simp [natLe, nth]
    | succ i =>
      have hrec := ih (x / 256) (Nat.lt_of_succ_lt_succ h)
      rw [Nat.div_div_eq_div_mul, ← Nat.pow_succ'] at hrec
      simpa [natLe, nth] using hrec

@[simp] theorem length_natLe (n x : Nat) : (natLe n x).length = n := by
  induction n generalizing x with
  | zero => rfl
  | succ n ih => simp [natLe, ih]

/-- A word of a mailbox's page, at its address. -/
theorem writeReg_page (s : State) {n off : Nat} (value : Word) (hn : n < 16) (hoff : off < 0x1000) (h4 : off % 4 = 0) :
    writeReg s (0x20000 + 0x1000 * n + off) value = pageWrite s n off value := by
  have hbox : (0x20000 + 0x1000 * n + off - 0x20000) / 0x1000 = n := by omega
  have hin : (0x20000 + 0x1000 * n + off) % 0x1000 = off := by omega
  unfold writeReg
  rw [hbox, hin, if_neg (by omega), if_neg (by omega), if_neg (by omega), if_neg (by omega), if_neg (by omega), if_neg (by omega),
    if_neg (by omega), if_neg (by omega), if_neg (by omega), if_neg (by omega), if_neg (by omega), if_neg (by omega), if_pos (by omega)]

/-- Settles O38: the register at a page's address is the page, and the four bytes are those of the word. -/
theorem payloadPagesTakeHostWrites : Obligations.PayloadPagesTakeHostWrites := by
  unfold Obligations.PayloadPagesTakeHostWrites
  intro s n off value hlen hn hoff h4 hrun
  have hwrite : Does (.registerWrite (0x20000 + 0x1000 * n + off) value) s (pageWrite s n off value) := by
    rw [← writeReg_page s value hn hoff h4]
    exact does_of_running (exec_registerWrite _ value s) hrun
  refine ⟨fun hfree => ⟨?written, fun a => ?bytes, fun m hm => box_onBox_ne s _ hm, fun hwf => ?form⟩, fun hfl => ?discarded⟩
  case written => rwa [pageWrite, if_neg (ne_true_of_eq_false hfree)] at hwrite
  case bytes =>
    rw [box_onBox_self _ hlen, readByte_writeBytes, length_natLe]
    split
    next h => exact nth_natLe value.toNat (by omega)
    next h => rfl
  case form =>
    rw [box_onBox_self _ hlen]
    exact writeBytes_wf _ off hwf
  case discarded => rwa [pageWrite, if_pos hfl] at hwrite

/-! Argument words that a command does not name (13 R362). -/

/-- The command of a row is the run of a mailbox command with the row's code. -/
def RunsCommand (s : State) (mb : Nat) (row : Nat × (Nat → Instr)) : Prop := ∃ k, exec (row.2 mb) s = runCommand s mb row.1 k

theorem RunsCommand.of_metering {s : State} {mb : Nat} {row : Nat × (Nat → Instr)} {k : Mailbox → State}
    (h : exec (row.2 mb) s = runMeter s mb row.1 k) : RunsCommand s mb row := ⟨_, h⟩

/-- Every mailbox command is such a run, where none waits for a tick end or a tick edge. -/
theorem runsCommand_mailboxRows {s : State} (mb : Nat) (hchange : s.rtc.change = none) (hreads : s.mt.reads = []) :
    ∀ row ∈ mailboxRows, RunsCommand s mb row := by
  simp only [mailboxRows, List.forall_mem_append, List.forall_mem_cons]
  exact ⟨⟨⟨⟨_, exec_sysInfo mb s⟩, ⟨_, exec_sysState mb s⟩, ⟨_, exec_sysReset mb s⟩, ⟨_, exec_parRead mb s⟩, ⟨_, exec_parWrite mb s⟩,
     ⟨_, exec_cfgCommit mb s⟩, ⟨_, exec_cfgDiscard mb s⟩, ⟨_, exec_imgPut mb s⟩, ⟨_, exec_imgLoad mb s⟩, ⟨_, exec_imgInfo mb s⟩,
     ⟨_, exec_fwStage mb s⟩, ⟨_, exec_unitRead mb s⟩, ⟨_, exec_unitService mb s⟩, ⟨_, exec_ptRead mb s⟩, ⟨_, exec_ptDir mb s⟩,
     ⟨_, exec_ptForce mb s⟩, ⟨_, exec_ptRelease mb s⟩, ⟨_, exec_ptForces mb s⟩, ⟨_, exec_lnService mb s⟩, ⟨_, exec_mxRead mb s⟩,
     ⟨_, exec_stnRead mb s⟩, ⟨_, exec_ceStatus mb s⟩, ⟨_, exec_ceSwap mb s⟩, ⟨_, exec_ceSwapCancel mb s⟩, ⟨_, exec_ceVarRead mb s⟩,
     ⟨_, exec_slvEngineStatus mb s⟩, ⟨_, exec_slvSlots mb s⟩, ⟨_, exec_slvResult mb s⟩, ⟨_, exec_slvAbort mb s⟩,
     ⟨_, exec_slvProgramInfo mb s⟩, ⟨_, exec_slvUnload mb s⟩, List.forall_mem_nil _⟩,
    ⟨.of_metering ((exec_mtrRead mb s).trans (if_neg (by simp [hreads]))), .of_metering (exec_mtrReadSigned mb s),
     .of_metering (exec_mtrRecord mb s), .of_metering (exec_mtrLoss mb s), .of_metering (exec_mtrAckLoss mb s),
     .of_metering (exec_mtrCalBegin mb s), .of_metering (exec_mtrCalSet mb s), .of_metering (exec_mtrCalMeasure mb s),
     .of_metering (exec_mtrCalCommit mb s), .of_metering (exec_mtrCalCancel mb s), .of_metering (exec_mtrWatchRead mb s),
     .of_metering (exec_mtrWatchClear mb s), ⟨_, (exec_hqRead mb s).trans (if_neg (by simp [hreads]))⟩, ⟨_, exec_hqReadSigned mb s⟩,
     ⟨_, exec_hqRecord mb s⟩, ⟨_, exec_hqAckLoss mb s⟩, ⟨_, exec_timeGet mb s⟩,
     ⟨_, (exec_timeSet mb s).trans (if_neg (by simp [hchange]))⟩, ⟨_, (exec_timeAdjust mb s).trans (if_neg (by simp [hchange]))⟩,
     ⟨_, exec_alarmSet mb s⟩, ⟨_, exec_timeTrim mb s⟩, List.forall_mem_nil _⟩⟩,
    ⟨⟨_, exec_rsStore mb s⟩, ⟨_, exec_rsInfo mb s⟩, ⟨_, exec_ctrRead mb s⟩, ⟨_, exec_keyInfo mb s⟩, ⟨_, exec_keyStage mb s⟩,
     ⟨_, exec_keyVerify mb s⟩, ⟨_, exec_keyCommit mb s⟩, ⟨_, exec_keyDiscard mb s⟩, ⟨_, exec_attest mb s⟩, ⟨_, exec_keyPublic mb s⟩,
     ⟨_, exec_evrRead mb s⟩, ⟨_, exec_evrExcerpt mb s⟩, ⟨_, exec_evrCode mb s⟩, ⟨_, exec_maStatus mb s⟩, ⟨_, exec_rplCapture mb s⟩,
     ⟨_, exec_rplSnapGet mb s⟩, ⟨_, exec_rplStart mb s⟩, ⟨_, exec_rplFeed mb s⟩, ⟨_, exec_rplOutput mb s⟩, ⟨_, exec_rplEnd mb s⟩,
     List.forall_mem_nil _⟩⟩

theorem runCommand_of_unnamed {s : State} {n code : Nat} (h : executes s n code = true)
    (hargs : (box s n).unnamedZero (((ruleOf code).map (fun r => r.args)).getD 15) = false) (k : Mailbox → State) :
    runCommand s n code k = done (refuse s n stBadParameter) := by
  simp [runCommand, h, hargs]

/-- Settles O36: each command runs, and the run makes this check first. -/
theorem unnamedArgumentsAreRefused : Obligations.UnnamedArgumentsAreRefused := by
  unfold Obligations.UnnamedArgumentsAreRefused
  intro s mb row hrow h hargs hchange hreads
  obtain ⟨k, hk⟩ := runsCommand_mailboxRows mb hchange hreads row hrow
  exact hk.trans (runCommand_of_unnamed h hargs k)

/-! A transfer that fails while a REPLAY request and its end wait (12 R359, 13 R367). -/

/-- Mailbox 0 holds a RPL_START whose data are still to come, and mailbox 1 a RPL_END that waits. -/
def endWaits : State :=
  { onBox State.reset 0 (fun b => { b with cmd := 0x0C04 }) with rp := { State.reset.rp with ending := some 1 } }

/-- Refutes O37: a failed RPL_START gives the RPL_END of another mailbox its outcome. -/
theorem not_longCommandsAndTransfersEnd : ¬ Obligations.LongCommandsAndTransfersEnd := by
  unfold Obligations.LongCommandsAndTransfersEnd
  intro h
  obtain ⟨-, -, -, -, -, -, -, -, hfail⟩ := h
  obtain ⟨-, -, -, -, hothers, -⟩ := hfail endWaits 0 5 0 (by decide)
  have hsame : (box (dmaFail endWaits 0 5 0) 1).reply = (box endWaits 1).reply := congrArg Mailbox.reply (hothers 1 (by decide))
  have hwas : (box endWaits 1).reply = none := rfl
  have hnow : (box (dmaFail endWaits 0 5 0) 1).reply = some Reply.ok := rfl
  rw [hwas, hnow] at hsame
  cases hsame

end Sys2Proof.Machine
end

section
/-! PROOFS. The host links: what a refused request leaves of the link, and each command of SPI, PCI Express and their events, from which O51 is assembled. -/
namespace Sys2Proof.Machine

/-! A link that is up (12 R331, R336). -/

/-- A command of the SPI link does what its meaning says while the link answers. -/
theorem does_of_spiUp {c : Instr} {s t : State} {o : Out} (hup : spiUp s = true) (hc : exec c s = if !spiUp s then done s else o)
    (ho : o = done t) : Does c s t := (hc.trans (if_neg (by simp [hup]))).trans ho

/-- A command of PCI Express does what its meaning says while the link is up. -/
theorem does_of_pcieUp {c : Instr} {s t : State} {o : Out} (hup : pcieUp s = true) (hc : exec c s = if !pcieUp s then done s else o)
    (ho : o = done t) : Does c s t := (hc.trans (if_neg (by simp [hup]))).trans ho

/-! Requests that are refused (12 R334 to R337): what the error bits leave of the link. -/

@[simp] theorem cfgError_link (s : State) (off v : Nat) : (cfgError s off v).link = s.link := rfl

@[simp] theorem signalError_link (s : State) (b : Nat) : (signalError s b).link = s.link := by
  unfold signalError
  split <;> rfl

@[simp] theorem uncorrectable_link (s : State) (b : Nat) : (uncorrectable s b).link = s.link := by simp [uncorrectable]

@[simp] theorem advisory_link (s : State) (b : Nat) : (advisory s b).link = s.link := by
  unfold advisory
  dsimp only
  split <;> rfl

@[simp] theorem unsupported_link (s : State) (posted : Bool) : (unsupported s posted).link = s.link := by
  unfold unsupported
  dsimp only
  split <;> simp

theorem link_refuseRequest (s : State) (posted : Bool) : (refuseRequest s posted).link = { s.link with rdata := [], refused := true } :=
  unsupported_link _ posted

/-- Settles O51: each command does what its meaning says under its conditions, and each word of a frame or of a request is one register. -/
theorem theHostLinksWork : Obligations.TheHostLinksWork := by
  unfold Obligations.TheHostLinksWork
  refine ⟨fun s addr words hup => ⟨fun h4 => ?spiWrite, fun h4 => ?spiWriteUnaligned⟩, fun s addr => ⟨rfl, fun w t => rfl⟩,
    fun s addr count hup => ⟨fun h4 => ?spiRead, fun h4 => ?spiReadUnaligned⟩, fun s addr => rfl,
    fun s command hup h2 hB => ?spiReserved,
    fun s addr words hup => ⟨fun h4 => ⟨?abortedWrite, ?abortedRead⟩, fun isRead h4 => ?abortedUnaligned⟩,
    fun s addr count hup => ⟨fun hserved => ?memRead, fun hserved => ?memReadRefused⟩,
    fun s addr words hup => ⟨fun hserved => ?memWrite, fun hserved => ?memWriteRefused⟩,
    fun s posted => ⟨by rw [link_refuseRequest], by rw [link_refuseRequest]⟩,
    fun s addr w t => ⟨fun hen => ?fullWord, fun hen => ?partWord⟩,
    fun s offset enables value hup => ⟨?configRead, ?configWrite⟩,
    fun s d3 hup => ?powerState, fun s hrun href hlink htrain hdown => ?linkUp, fun s why hrun hlink => ?linkDown,
    fun s hard => ⟨rfl, rfl, rfl⟩, fun s v hdue hup hd3 hmaster hmsi => ⟨fun hmask => ?sends, fun hmask => ?pends⟩,
    fun s => ⟨?vioLost, fun hrun htrain => ?vioEndsReset, fun hno => ?vioGood⟩⟩
  case spiWrite => exact does_of_spiUp hup (exec_spiWrite addr words s) (if_neg (not_not_intro h4))
  case spiWriteUnaligned => exact does_of_spiUp hup (exec_spiWrite addr words s) (if_pos h4)
  case spiRead => exact does_of_spiUp hup (exec_spiRead addr count s) (if_neg (not_not_intro h4))
  case spiReadUnaligned => exact does_of_spiUp hup (exec_spiRead addr count s) (if_pos h4)
  case spiReserved => exact (exec_spiReserved command s).trans (if_neg (by simp [hup, h2, hB]))
  case abortedWrite =>
    exact does_of_spiUp hup (exec_spiFrameAbort false addr words s) ((if_neg (not_not_intro h4)).trans (if_neg Bool.false_ne_true))
  case abortedRead => exact does_of_spiUp hup (exec_spiFrameAbort true addr words s) ((if_neg (not_not_intro h4)).trans (if_pos rfl))
  case abortedUnaligned => exact does_of_spiUp hup (exec_spiFrameAbort isRead addr words s) (if_pos h4)
  case memRead => exact does_of_pcieUp hup (exec_pcieMemRead addr count s) (if_neg (by simp [hserved]))
  case memReadRefused => exact does_of_pcieUp hup (exec_pcieMemRead addr count s) (if_pos (by simp [hserved]))
  case memWrite => exact does_of_pcieUp hup (exec_pcieMemWrite addr words s) (if_neg (by simp [hserved]))
  case memWriteRefused => exact does_of_pcieUp hup (exec_pcieMemWrite addr words s) (if_pos (by simp [hserved]))
  case fullWord => rw [memWrite, if_pos hen]
  case partWord => rw [memWrite, if_neg hen]
  case configRead => exact does_of_pcieUp hup (exec_pcieConfigAccess false offset value enables s) (if_neg Bool.false_ne_true)
  case configWrite => exact does_of_pcieUp hup (exec_pcieConfigAccess true offset value enables s) (if_pos rfl)
  case powerState => exact does_of_pcieUp hup (exec_pciePowerState d3 s) rfl
  case linkUp => exact (exec_pcieLinkUp s).trans (if_neg (by simp [hrun, href, hlink, htrain, hdown]))
  case linkDown => exact (exec_linkDown why s).trans (if_neg (by simp [hrun, hlink]))
  case sends =>
    have hcond : ¬(!bit s.link.msiDue v || !pcieUp s || s.pcie.d3 || !busMaster s || !msiOn s) = true := by
      simp [bit, hdue, hup, hd3, hmaster, hmsi]
    exact ((exec_msiSend v s).trans (if_neg hcond)).trans (if_neg (ne_true_of_eq_false hmask))
  case pends =>
    have hcond : ¬(!bit s.link.msiDue v || !pcieUp s || s.pcie.d3 || !busMaster s || !msiOn s) = true := by
      simp [bit, hdue, hup, hd3, hmaster, hmsi]
    exact ((exec_msiSend v s).trans (if_neg hcond)).trans (if_pos hmask)
  case vioLost => exact exec_vioHChange false s
  case vioEndsReset => exact (exec_vioHChange true s).trans (if_pos (by simp [hrun, htrain]))
  case vioGood =>
    refine (exec_vioHChange true s).trans (if_neg ?_)
    rcases hno with hstop | htrain
    · simp [hstop]
    · simp [htrain]

end Sys2Proof.Machine
end

section
/-! PROOFS. System commands and parameters: what an activity that begins leaves, which transitions are allowed, and each command's answers, from which O39 and O40 are assembled. -/
namespace Sys2Proof.Machine

/-! Activities that begin and end (19 R476). -/

/-- The record of an activity changes the recorder only. -/
theorem maRecord_frame (s : State) (no : Nat) (ended : Bool) (status : Nat) :
    maRecord s no ended status = { s with ev := (maRecord s no ended status).ev } := record_frame _ _ _ _

/-- An activity that begins stands in the list of those that run, and is recorded. -/
theorem maStart_frame (s : State) (no object : Nat) : maStart s no object =
    { s with ma := s.ma ++ [{ no := no, object := object }], ev := (maStart s no object).ev } := by
  unfold maStart
  rw [maRecord_frame]

@[simp] theorem maStart_pwr (s : State) (no object : Nat) : (maStart s no object).pwr = s.pwr := by rw [maStart_frame]
@[simp] theorem maStart_sv (s : State) (no object : Nat) : (maStart s no object).sv = s.sv := by rw [maStart_frame]
@[simp] theorem maStart_mb (s : State) (no object : Nat) : (maStart s no object).mb = s.mb := by rw [maStart_frame]
@[simp] theorem maStart_im (s : State) (no object : Nat) : (maStart s no object).im = s.im := by rw [maStart_frame]
@[simp] theorem maStart_ma (s : State) (no object : Nat) : (maStart s no object).ma = s.ma ++ [{ no := no, object := object }] := by
  rw [maStart_frame]

/-! System commands (13 Table 13-3, 19 R466 to R468). -/

theorem transitionOk_iff (s : State) (t : Nat) : transitionOk s t = true ↔
    ((s.pwr.pstate = 3 ∧ (t = 4 ∨ t = 5)) ∨ (s.pwr.pstate = 4 ∧ t = 5) ∨ (s.pwr.pstate = 5 ∧ t = 4) ∨
     ((s.pwr.pstate = 4 ∨ s.pwr.pstate = 5) ∧ t = 3 ∧ mayActivate s = true)) := by
  unfold transitionOk
  split
  case h_7 hrun4 hrun5 htest5 hrec4 htest3 hrec3 =>
    refine iff_of_false Bool.false_ne_true ?_
    rintro (⟨hp, rfl | rfl⟩ | ⟨hp, rfl⟩ | ⟨hp, rfl⟩ | ⟨hp | hp, rfl, -⟩)
    · exact hrun4 hp rfl
    · exact hrun5 hp rfl
    · exact htest5 hp rfl
    · exact hrec4 hp rfl
    · exact htest3 hp rfl
    · exact hrec3 hp rfl
  all_goals simp_all

section
variable {s : State} {mb : Nat}

/-- SYS_STATE of a transition that is allowed, with no activity running. -/
theorem does_sysState {u : State} (h : Taken s mb 0x0102) (hlo : 3 ≤ (box s mb).arg0.toNat) (hhi : (box s mb).arg0.toNat ≤ 5)
    (hok : transitionOk s (box s mb).arg0.toNat = true) (hma : s.ma = [])
    (hu : (if (box s mb).arg0.toNat = 3 then
        { accept s mb with pwr := { (accept s mb).pwr with toState := some (3, mb) } }
      else if inRun s then
        requestStores { accept s mb with pwr := { (accept s mb).pwr with toState := some ((box s mb).arg0.toNat, mb) } }
          (retainPages (accept s mb) ++ dirtyOf (accept s mb) [0, 10]) .owner
      else replyTo (setPstate (accept s mb) (box s mb).arg0.toNat) mb { Reply.ok with res0 := (box s mb).arg0.toNat }) = u) :
    Does (.sysState mb) s u :=
  does_of_taken h (exec_sysState mb s)
    ((if_neg (by omega)).trans ((if_neg (by simp [hok])).trans ((if_neg (not_not_intro hma)).trans hu)))

end

/-- Settles O39: each command is the run of its meaning on a mailbox that is taken, and each clause one branch of that meaning. -/
theorem systemCommandsAreCarriedOut : Obligations.SystemCommandsAreCarriedOut := by
  unfold Obligations.SystemCommandsAreCarriedOut
  refine ⟨fun s mb h => ?info,
    fun s mb h => ⟨fun ht => ?operand, fun hlo hhi hno => ?notPermitted, fun hlo hhi hok hma => ?collides, fun ht hok hma => ?toRun,
      fun ht hok hma hrun => ?fromRun, fun ht hok hma hrun => ?atOnce⟩,
    transitionOk_iff, fun s mb h => ⟨fun hkey => ?wrongKey, fun hkey => ?resets⟩⟩
  case info => exact does_of_taken h (exec_sysInfo mb s) rfl
  case operand => exact refuses_of_taken (status := stBadParameter) h (exec_sysState mb s) (if_pos ht)
  case notPermitted =>
    exact refuses_of_taken (status := stNotPermitted) h (exec_sysState mb s) ((if_neg (by omega)).trans (if_pos (by simp [hno])))
  case collides =>
    exact refuses_of_taken (status := stConflict) h (exec_sysState mb s)
      ((if_neg (by omega)).trans ((if_neg (by simp [hok])).trans (if_pos hma)))
  case toRun => exact does_sysState h (by omega) (by omega) hok hma (if_pos ht)
  case fromRun => exact does_sysState h (by omega) (by omega) hok hma ((if_neg (by omega)).trans (if_pos hrun))
  case atOnce =>
    exact does_sysState h (by omega) (by omega) hok hma ((if_neg (by omega)).trans (if_neg (ne_true_of_eq_false hrun)))
  case wrongKey => exact refuses_of_taken (status := stBadParameter) h (exec_sysReset mb s) (if_pos hkey)
  case resets => exact does_of_taken h (exec_sysReset mb s) (if_neg (not_not_intro hkey))

/-! Parameters (13 R368, 15 R411). -/

/-- A parameter has the value of the highest layer that holds it: the runtime layer, the configuration image, the default. -/
theorem parValue_eq (s : State) (p : Nat) : parValue s p = (match lookup s.pa.runtime p with
    | some v => v
    | none => match s.pa.conf with
      | some c => (match lookup c.entries p with | some v => v | none => parDefault p)
      | none => parDefault p) := by
  unfold parValue confValue
  cases lookup s.pa.runtime p with
  | some v => rfl
  | none =>
    cases s.pa.conf with
    | none => rfl
    | some c =>
      dsimp only
      cases lookup c.entries p <;> rfl

theorem parInRange_mode (v : Word) : parInRange 0x0101 v = decide (v.toNat ≤ 1) := rfl

/-- Settles O40: each command is the run of its meaning on a mailbox that is taken, and each clause one branch of that meaning. -/
theorem parametersAreReadWrittenAndCommitted : Obligations.ParametersAreReadWrittenAndCommitted := by
  unfold Obligations.ParametersAreReadWrittenAndCommitted
  refine ⟨fun s mb h => ⟨fun hdef => ?readUndefined, fun hdef => ?read⟩, parValue_eq,
    fun s mb h => ⟨fun hdef => ?writeUndefined, fun hdef hp => ?writeOther, fun hp hv => ?writeRange, fun hp hv => ?write⟩,
    fun s mb h => ⟨fun hcol => ?commitCollides, fun hfree hseq => ?commitLast, fun hfree hseq hk hbad => ?commitKeyBad,
      fun hfree hseq hkey => ?commits⟩,
    fun s mb h => ⟨fun hrun => ?discardConflict, fun hrun => ?discards⟩⟩
  case readUndefined => exact refuses_of_taken (status := stBadParameter) h (exec_parRead mb s) (if_pos (by simp [hdef]))
  case read => exact does_of_taken h (exec_parRead mb s) (if_neg (by simp [hdef]))
  case writeUndefined => exact refuses_of_taken (status := stBadParameter) h (exec_parWrite mb s) (if_pos (by simp [hdef]))
  case writeOther =>
    exact refuses_of_taken (status := stNotPermitted) h (exec_parWrite mb s) ((if_neg (by simp [hdef])).trans (if_pos hp))
  case writeRange =>
    have hdef : parDefined (box s mb).arg0.toNat = true := by rw [hp]; rfl
    have hout : parInRange (box s mb).arg0.toNat (box s mb).arg1 = false := by rw [hp, parInRange_mode]; exact decide_eq_false (by omega)
    exact refuses_of_taken (status := stBadParameter) h (exec_parWrite mb s)
      ((if_neg (by simp [hdef])).trans ((if_neg (not_not_intro hp)).trans (if_pos (by simp [hout]))))
  case write =>
    have hdef : parDefined (box s mb).arg0.toNat = true := by rw [hp]; rfl
    have hin : parInRange (box s mb).arg0.toNat (box s mb).arg1 = true := by rw [hp, parInRange_mode]; exact decide_eq_true hv
    exact does_of_taken h (exec_parWrite mb s)
      ((if_neg (by simp [hdef])).trans ((if_neg (not_not_intro hp)).trans (if_neg (by simp [hin]))))
  case commitCollides => exact refuses_of_taken (status := stConflict) h (exec_cfgCommit mb s) (if_pos hcol)
  case commitLast =>
    exact refuses_of_taken (status := stNotPermitted) h (exec_cfgCommit mb s) ((if_neg (ne_true_of_eq_false hfree)).trans (if_pos hseq))
  case commitKeyBad =>
    exact refuses_of_taken (status := stAuthFailed) h (exec_cfgCommit mb s)
      ((if_neg (ne_true_of_eq_false hfree)).trans ((if_neg hseq).trans (if_pos (by simp [hk, hbad]))))
  case commits =>
    have hgood : ¬(keysOn s && slotBad s 8) = true := by
      rcases hkey with hk | hk
      · simp [hk]
      · simp [hk]
    refine does_of_taken h (exec_cfgCommit mb s) ((if_neg (ne_true_of_eq_false hfree)).trans ((if_neg hseq).trans ((if_neg hgood).trans ?_)))
    simp only [maStart_im, accept_im]
  case discardConflict => exact refuses_of_taken (status := stConflict) h (exec_cfgDiscard mb s) (if_pos hrun)
  case discards => exact does_of_taken h (exec_cfgDiscard mb s) (if_neg (ne_true_of_eq_false hrun))

end Sys2Proof.Machine
end

section
/-! PROOFS. Images: uploads into the staging area, a load that passes its checks by its kind, firmware, and each command's answers, from which O41 is assembled. -/
namespace Sys2Proof.Machine

@[simp] theorem box_settle (s : State) (n : Nat) : box (settle s) n = box s n := by simp only [box, settle_mb]

/-! IMG_PUT (13 R369). -/

section
variable {s : State} {mb : Nat}

/-- The kind and the slot of an upload are in their ranges. -/
def PlaceOk (b : Mailbox) : Prop :=
  ¬(b.arg0.toNat = 0 ∨ 5 < b.arg0.toNat ∨ (if b.arg0.toNat = 3 then 3 < b.arg3.toNat else b.arg3.toNat ≠ 0))

theorem placeOk_of_ranges {b : Mailbox} (h1 : 1 ≤ b.arg0.toNat) (h5 : b.arg0.toNat ≤ 5)
    (hslot : if b.arg0.toNat = 3 then b.arg3.toNat ≤ 3 else b.arg3.toNat = 0) : PlaceOk b := by
  unfold PlaceOk
  split at hslot
  next h3 => rw [if_pos h3]; omega
  next h3 => rw [if_neg h3]; omega

/-- IMG_PUT of a place that exists, by DMA. -/
theorem does_imgPut_dma {t : State} (h : Taken s mb 0x0201) (hok : PlaceOk (box s mb)) (hdma : (box s mb).dmaEn = true)
    (ht : (if !dmaUploadOk (box s mb) then refuse s mb stBadParameter
      else if stagingFull s (imgPlace (box s mb).arg0.toNat (box s mb).arg3.toNat) (box s mb).arg1.toNat then refuse s mb stNoSpace
      else awaitDma s mb) = t) : Does (.imgPut mb) s t :=
  does_of_taken h (exec_imgPut mb s) ((if_neg hok).trans ((if_pos hdma).trans ht))

/-- IMG_PUT of a place that exists, in pieces. -/
theorem does_imgPut_piece {t : State} {x : Piece} (h : Taken s mb 0x0201) (hok : PlaceOk (box s mb)) (hdma : (box s mb).dmaEn = false)
    (hx : takePiece s mb (box s mb).arg0.toNat (box s mb).arg3.toNat = x)
    (ht : (if x.status ≠ stOk then refuse x.state mb x.status
      else if stagingFull s (imgPlace (box s mb).arg0.toNat (box s mb).arg3.toNat) (box s mb).arg1.toNat then refuse s mb stNoSpace
      else
        match x.whole with
        | some bs => finish (stageImage x.state (imgPlace (box s mb).arg0.toNat (box s mb).arg3.toNat) bs) mb { Reply.ok with res0 := x.held }
        | none => finish x.state mb { Reply.ok with res0 := x.held }) = t) : Does (.imgPut mb) s t := by
  subst hx
  exact does_of_taken h (exec_imgPut mb s) ((if_neg hok).trans ((if_neg (ne_true_of_eq_false hdma)).trans ht))

/-! IMG_LOAD (13 R370). -/

/-- IMG_LOAD whose checks pass takes the staged images. -/
theorem does_imgLoad {kind slot : Nat} {persist : Bool} (h : Taken s mb 0x0202) (hargs : loadArgsOk (box s mb) = true)
    (hkind : (box s mb).arg0.toNat = kind) (hslot : loadSlot s (box s mb) = slot) (hpersist : bit (box s mb).arg2.toNat 0 = persist)
    (hst : loadStatus s kind slot = 0) (hroom : ¬(kind = 4 ∧ persist = true ∧ newestSeq s = 0xFFFFFFFF)) :
    Does (.imgLoad mb) s (beginLoad s mb kind slot persist) := by
  subst hkind hslot hpersist
  exact does_of_taken h (exec_imgLoad mb s) ((if_neg (by simp [hargs])).trans ((if_neg (not_not_intro hst)).trans (if_neg hroom)))

theorem loadSlot_of_ne {b : Mailbox} (h : b.arg0 ≠ 3) : loadSlot s b = 0 := if_neg h

/-- The state in which a load has been accepted and its staged images are taken. -/
def loadTaken (s : State) (mb kind slot : Nat) : State := accept (unstage s (loadPlaces s kind slot)) mb

theorem state_box_loadTaken (kind slot : Nat) (hlen : mb < s.mb.boxes.length) :
    (box (loadTaken s mb kind slot) mb).state = .accepted := congrArg Mailbox.state (box_onBox_self _ hlen)

theorem length_boxes_loadTaken (kind slot : Nat) : (loadTaken s mb kind slot).mb.boxes.length = s.mb.boxes.length :=
  length_modifyNth s.mb.boxes mb _

theorem state_box_settle {v : State} {kind slot : Nat} (hv : v.mb = (loadTaken s mb kind slot).mb) (hlen : mb < s.mb.boxes.length) :
    (box (settle v) mb).state = .accepted := by
  rw [box_settle, box, hv]
  exact state_box_loadTaken kind slot hlen

theorem runs_maStart (s : State) (no object : Nat) : runs (maStart s no object) no = true := by simp [runs]

theorem runs_settle {u v : State} {no object : Nat} (hv : v.ma = (maStart u no object).ma) : runs (settle v) no = true := by
  rw [runs, settle_ma, hv]
  exact runs_maStart u no object

theorem atOnce_of_inRun {t : State} (f : State → State) (hp : t.pwr = s.pwr) (hrun : inRun s = true) : atOnce t f = t := by
  have ht : inRun t = true := by rw [inRun, hp]; exact hrun
  exact if_pos ht

/-- A NETWORK load in RUN waits for its boundary. -/
theorem beginLoad_network (hrun : inRun s = true) (persist : Bool) :
    let u := maStart (loadTaken s mb 1 0) 3 0
    beginLoad s mb 1 0 persist = { u with im := { u.im with netLoad := some {
      network := (openPlace s (imgPlace 1 0)).bytes, cycle := (openPlace s (imgPlace 2 0)).bytes, solves := takenSolves s, mb := mb
      persist := persist } } } := by
  unfold beginLoad
  exact atOnce_of_inRun _ (maStart_pwr _ _ _) hrun

/-- A SOLVE load in RUN waits for its boundary. -/
theorem beginLoad_solve (hrun : inRun s = true) (slot : Nat) (persist : Bool) :
    let u := maStart (loadTaken s mb 3 slot) 2 slot
    beginLoad s mb 3 slot persist = { u with sv := { u.sv with reqs := u.sv.reqs ++ [{
      slot := slot, bytes := some (openPlace s (imgPlace 3 slot)).bytes, mb := mb, persist := persist }] } } := by
  unfold beginLoad
  exact atOnce_of_inRun _ (maStart_pwr _ _ _) hrun

/-- A CONFIG load in RUN that is not persistent waits for its boundary. -/
theorem beginLoad_config (hrun : inRun s = true) :
    let u := maStart (loadTaken s mb 4 0) 4 0
    beginLoad s mb 4 0 false = { u with im := { u.im with cfgLoad := some {
      bytes := (openPlace s (imgPlace 4 0)).bytes, staged := [], slot := none, mb := mb } } } := by
  unfold beginLoad
  exact atOnce_of_inRun _ (maStart_pwr _ _ _) hrun

/-! FW_STAGE (13 R371). -/

/-- FW_STAGE with a firmware image staged and nothing that collides. -/
theorem does_fwStage {t : State} {bs : Bytes} (h : Taken s mb 0x0210) (hfree : collides s 7 0 = false)
    (hbs : stagedAt s (imgPlace 5 0) = some bs)
    (ht : (if !Config.firmwareSigned bs then refuse s mb stAuthFailed
      else if !Config.firmwareOk bs then refuse s mb stBadImage
      else
        let u := maStart (accept (unstage s [imgPlace 5 0]) mb) 7 0
        replyTo { u with im := { u.im with fwHeld := some bs } } mb { Reply.ok with res0 := 1 - u.im.fwSlot }) = t) :
    Does (.fwStage mb) s t := by
  refine does_of_taken h (exec_fwStage mb s) ((if_neg (ne_true_of_eq_false hfree)).trans ?_)
  rw [hbs]
  exact ht

end

/-- A staged image that is taken is no longer staged. -/
theorem lookup_staged_unstage {s : State} {places : List Nat} {p : Nat} (h : p ∈ places) : lookup (unstage s places).im.staged p = none := by
  have hf := lookup_filter s.im.staged (fun k => !places.contains k) p
  rw [if_neg (by simpa using h)] at hf
  exact hf

/-- Settles O41: each command is the run of its meaning on a mailbox that is taken, and a load that passes its checks is begun by its kind. -/
theorem imagesArePutAndLoaded : Obligations.ImagesArePutAndLoaded := by
  unfold Obligations.ImagesArePutAndLoaded
  refine ⟨fun s mb h => ⟨fun hkind => ?putKind, fun h1 h5 hslot => ?putSlot, fun h1 h5 hslot => ?put⟩,
    fun s mb h => ⟨fun hargs => ?loadOperand, fun hargs hst => ?loadRefused, fun hargs hst h4 hp hseq => ?loadLast,
      fun hargs hst hroom => ?load⟩,
    fun s mb h hargs hlen => ⟨fun hk hst hrun => ?network, fun hk hst => ?cycle, fun hk hst hrun => ?solve, fun hk hst hrun hp => ?config⟩,
    fun s mb h => ⟨fun hkind => ?infoKind, fun h1 h5 => ?info⟩,
    fun s mb h => ⟨fun hcol => ?fwCollides, fun hfree hnone => ?fwNone, fun bs hfree hbs hsig => ?fwUnsigned,
      fun bs hfree hbs hsig hok => ?fwBad, fun bs hfree hbs hsig hok => ?fw⟩⟩
  case putKind => exact refuses_of_taken (status := stBadParameter) h (exec_imgPut mb s) (if_pos (hkind.imp_right .inl))
  case putSlot => exact refuses_of_taken (status := stBadParameter) h (exec_imgPut mb s) (if_pos (.inr (.inr hslot)))
  case put =>
    have hplace := placeOk_of_ranges h1 h5 hslot
    refine ⟨fun hdma hok => ?dmaFields, fun hdma hok hfull => ?dmaFull, fun hdma hok hroom => ?dma, fun hdma hst => ?pieceRefused,
      fun hdma hst hfull => ?pieceFull, fun hdma hst hroom => ⟨fun hw => ?piece, fun bs hw => ?whole⟩⟩
    case dmaFields => exact does_imgPut_dma h hplace hdma (if_pos (by simp [hok]))
    case dmaFull => exact does_imgPut_dma h hplace hdma ((if_neg (by simp [hok])).trans (if_pos hfull))
    case dma => exact does_imgPut_dma h hplace hdma ((if_neg (by simp [hok])).trans (if_neg (ne_true_of_eq_false hroom)))
    case pieceRefused => exact does_imgPut_piece h hplace hdma rfl (if_pos hst)
    case pieceFull => exact does_imgPut_piece h hplace hdma rfl ((if_neg (not_not_intro hst)).trans (if_pos hfull))
    case piece =>
      refine does_imgPut_piece h hplace hdma rfl ((if_neg (not_not_intro hst)).trans ((if_neg (ne_true_of_eq_false hroom)).trans ?_))
      rw [hw]
    case whole =>
      refine does_imgPut_piece h hplace hdma rfl ((if_neg (not_not_intro hst)).trans ((if_neg (ne_true_of_eq_false hroom)).trans ?_))
      rw [hw]
      rfl
  case loadOperand => exact refuses_of_taken (status := stBadParameter) h (exec_imgLoad mb s) (if_pos (by simp [hargs]))
  case loadRefused => exact refuses_of_taken h (exec_imgLoad mb s) ((if_neg (by simp [hargs])).trans (if_pos hst))
  case loadLast =>
    exact refuses_of_taken (status := stNotPermitted) h (exec_imgLoad mb s)
      ((if_neg (by simp [hargs])).trans ((if_neg (not_not_intro hst)).trans (if_pos ⟨h4, hp, hseq⟩)))
  case load =>
    refine does_imgLoad h hargs rfl rfl rfl hst ?_
    rintro ⟨h4, hp, hseq⟩
    rcases hroom with hk | hk | hk
    · exact hk h4
    · exact ne_true_of_eq_false hk hp
    · exact hk hseq
  case network =>
    have hdoes := does_imgLoad (kind := 1) h hargs (congrArg BitVec.toNat hk) (loadSlot_of_ne (by simp [hk])) rfl hst (by simp)
    rw [beginLoad_network hrun] at hdoes
    exact ⟨_, hdoes, state_box_settle (maStart_mb _ _ _) hlen, runs_settle rfl, by rw [settle_im]; rfl⟩
  case cycle =>
    have hdoes := does_imgLoad (kind := 2) h hargs (congrArg BitVec.toNat hk) (loadSlot_of_ne (by simp [hk])) rfl hst (by simp)
    have hbox : box (settle (beginLoad s mb 2 0 (bit (box s mb).arg2.toNat 0))) mb =
        { box (loadTaken s mb 2 0) mb with reply := some Reply.ok } := by
      rw [box_settle]
      exact box_onBox_self _ (hlen.trans_eq (length_boxes_loadTaken 2 0).symm)
    refine ⟨_, hdoes, ?_, ?_, ?_, ?_⟩
    · rw [hbox]
      exact state_box_loadTaken 2 0 hlen
    · rw [hbox]
    · rw [settle_im]
      exact lookup_staged_unstage (by simp [loadPlaces, imgPlace])
    · rw [settle_im]
      rfl
  case solve =>
    have hdoes := does_imgLoad (kind := 3) h hargs (congrArg BitVec.toNat hk) rfl rfl hst (by simp)
    rw [beginLoad_solve hrun] at hdoes
    refine ⟨_, hdoes, state_box_settle (maStart_mb _ _ _) hlen, runs_settle rfl, ?_⟩
    rw [settle_sv]
    simp only [maStart_sv]
    rfl
  case config =>
    have hdoes := does_imgLoad (kind := 4) h hargs (congrArg BitVec.toNat hk) (loadSlot_of_ne (by simp [hk])) hp hst (by simp)
    rw [beginLoad_config hrun] at hdoes
    exact ⟨_, hdoes, state_box_settle (maStart_mb _ _ _) hlen, runs_settle rfl, by rw [settle_im]; rfl⟩
  case infoKind => exact refuses_of_taken (status := stBadParameter) h (exec_imgInfo mb s) (if_pos hkind)
  case info => exact does_of_taken h (exec_imgInfo mb s) (if_neg (by omega))
  case fwCollides => exact refuses_of_taken (status := stConflict) h (exec_fwStage mb s) (if_pos hcol)
  case fwNone =>
    refine refuses_of_taken (status := stNotReady) h (exec_fwStage mb s) ((if_neg (ne_true_of_eq_false hfree)).trans ?_)
    rw [show stagedAt s (imgPlace 5 0) = none from hnone]
  case fwUnsigned => exact does_fwStage h hfree hbs (if_pos (by simp [hsig]))
  case fwBad => exact does_fwStage h hfree hbs ((if_neg (by simp [hsig])).trans (if_pos (by simp [hok])))
  case fw =>
    refine does_fwStage h hfree hbs ((if_neg (by simp [hsig])).trans ((if_neg (by simp [hok])).trans ?_))
    simp only [maStart_im, accept_im]
    rfl

end Sys2Proof.Machine
end

section
/-! PROOFS. Time commands and tick edges: each command by the branches of its meaning, and an edge by what it counts, changes and fires; O47. -/
namespace Sys2Proof.Machine

/-! The time commands (13 Table 13-12, 14 R376, R382, R383, R388). -/

/-- The top byte of a word is clear exactly below 2^24. -/
theorem bits_top_eq_zero_iff (w : Word) : bits w.toNat 24 8 = 0 ↔ w.toNat < 2 ^ 24 := by
  have hlt := w.isLt
  simp only [bits]
  omega

/-- Settles O47: each command is the run of its meaning on a mailbox that is taken, and each clause one branch of that meaning. -/
theorem timeCommandsAnswer : Obligations.TimeCommandsAnswer := by
  unfold Obligations.TimeCommandsAnswer
  refine ⟨fun s mb h => ?get,
    fun s mb h hchange => ⟨fun htop => ?setOperand, fun htop hx => ?setBadDate, fun x htop hx => ?set⟩,
    fun s mb h hchange => ⟨fun hout => ?adjustOperand, fun hin hout => ?adjustBadDate, fun hin hfits => ?adjust⟩,
    fun s mb h => ⟨fun hbad => ?alarmOperand, fun htop hop => ?disarm, fun htop hop hx => ?alarmBadDate, fun x htop hop hx => ?arm⟩,
    fun s mb h => ⟨fun hc => ?trimOperand, fun hc => ?trim⟩⟩
  case get => exact does_of_taken h (exec_timeGet mb s) rfl
  case setOperand =>
    have hexec := (exec_timeSet mb s).trans (if_neg (by simp [hchange]))
    exact refuses_of_taken (status := stBadParameter) h hexec (if_pos (mt (bits_top_eq_zero_iff _).mp (by omega)))
  case setBadDate =>
    have hexec := (exec_timeSet mb s).trans (if_neg (by simp [hchange]))
    refine refuses_of_taken (status := stBadDate) h hexec ((if_neg (not_not_intro ((bits_top_eq_zero_iff _).mpr htop))).trans ?_)
    rw [hx]
  case set =>
    have hexec := (exec_timeSet mb s).trans (if_neg (by simp [hchange]))
    refine does_of_taken h hexec ((if_neg (not_not_intro ((bits_top_eq_zero_iff _).mpr htop))).trans ?_)
    rw [hx]
  case adjustOperand =>
    have hexec := (exec_timeAdjust mb s).trans (if_neg (by simp [hchange]))
    exact refuses_of_taken (status := stBadParameter) h hexec (if_pos (by omega))
  case adjustBadDate =>
    have hexec := (exec_timeAdjust mb s).trans (if_neg (by simp [hchange]))
    exact refuses_of_taken (status := stBadDate) h hexec ((if_neg (by omega)).trans (if_pos (by omega)))
  case adjust =>
    have hexec := (exec_timeAdjust mb s).trans (if_neg (by simp [hchange]))
    exact does_of_taken h hexec ((if_neg (by omega)).trans (if_neg (by omega)))
  case alarmOperand =>
    have hout : bits (box s mb).arg1.toNat 24 8 ≠ 0 ∨ 1 < (box s mb).arg2.toNat :=
      hbad.imp_left fun htop => mt (bits_top_eq_zero_iff _).mp (by omega)
    exact refuses_of_taken (status := stBadParameter) h (exec_alarmSet mb s) (if_pos hout)
  case disarm =>
    have hok : ¬(bits (box s mb).arg1.toNat 24 8 ≠ 0 ∨ 1 < (box s mb).arg2.toNat) := by simp [(bits_top_eq_zero_iff _).mpr htop, hop]
    exact does_of_taken h (exec_alarmSet mb s) ((if_neg hok).trans (if_pos hop))
  case alarmBadDate =>
    have hok : ¬(bits (box s mb).arg1.toNat 24 8 ≠ 0 ∨ 1 < (box s mb).arg2.toNat) := by simp [(bits_top_eq_zero_iff _).mpr htop, hop]
    refine refuses_of_taken (status := stBadDate) h (exec_alarmSet mb s) ((if_neg hok).trans ((if_neg (by simp [hop])).trans ?_))
    rw [hx]
  case arm =>
    have hok : ¬(bits (box s mb).arg1.toNat 24 8 ≠ 0 ∨ 1 < (box s mb).arg2.toNat) := by simp [(bits_top_eq_zero_iff _).mpr htop, hop]
    refine does_of_taken h (exec_alarmSet mb s) ((if_neg hok).trans ((if_neg (by simp [hop])).trans ?_))
    rw [hx]
  case trimOperand => exact refuses_of_taken (status := stBadParameter) h (exec_timeTrim mb s) (if_pos hc)
  case trim => exact does_of_taken h (exec_timeTrim mb s) (if_neg (by omega))

/-! A tick edge (14 R373, R382, R383, R386). -/

/-- What an event of the RTC leaves of the RTC: all but the events that wait to be told. -/
theorem tellRtc_rtc (s : State) (code : Nat) (words : List Word) :
    (tellRtc s code words).rtc = { s.rtc with told := (tellRtc s code words).rtc.told } := by
  rw [tellRtc_frame]

/-- An edge without a change counts one tick, and reaches the end of the calendar there or nowhere. -/
theorem edge_of_none {r : Rtc} (h : r.change = none) : r.edge = { r with
    tick := (r.tick + 1) % 2 ^ 48, trim := r.trimNew.getD r.trim, trimNew := none
    beyond := r.beyond || decide (r.tick + 1 = calendarEnd) } := by
  have hend : decide (r.tick < calendarEnd ∧ calendarEnd ≤ r.tick + 1) = decide (r.tick + 1 = calendarEnd) :=
    decide_eq_decide.mpr (by omega)
  simp only [Rtc.edge, Rtc.newTrim, h, Rtc.count, hend]

/-- An edge with a change makes it. -/
theorem edge_of_some {r : Rtc} {x : TimeChange} (h : r.change = some x) :
    let t := if x.adjust then (((r.tick + 1 : Nat) : Int) + x.value).toNat % 2 ^ 48 else x.value.toNat
    let u := { r with tick := t, trim := r.trimNew.getD r.trim, trimNew := none, change := none }
    r.edge = if x.adjust then { u with beyond := r.beyond || decide (r.tick < calendarEnd ∧ calendarEnd ≤ t) }
      else { u with valid := true, beyond := false } := by
  obtain ⟨adjust, value, mb⟩ := x
  cases adjust <;> simp [Rtc.edge, Rtc.newTrim, h]

/-- The edge's own part: the alarm that the count has reached fires, and else an arming that was late is forgotten. -/
def edgeAlarm (s : State) : State :=
  if s.rtc.armed = true ∧ s.rtc.alarm ≤ s.rtc.tick then fireAlarm s (decide (s.rtc.alarm < s.rtc.tick))
  else { s with rtc := { s.rtc with lateArm := false } }

theorem tickEdge_eq (s : State) : tickEdge s =
    let u := tellChange { s with rtc := s.rtc.edge } s.rtc.tick s.rtc.change
    endChange (edgeAlarm u) s.rtc.tick (u.rtc.armed && decide (u.rtc.alarm ≤ u.rtc.tick) && decide (u.rtc.alarm < u.rtc.tick)) s.rtc.change := by
  simp only [tickEdge, edgeAlarm, Bool.and_eq_true, decide_eq_true_eq]

end Sys2Proof.Machine
end

section
/-! PROOFS. The time base: an edge with a change, the alarm, and the events of the RTC where the module runs and where it does not; O56. -/
namespace Sys2Proof.Machine

@[simp] theorem tellRtc_tick (s : State) (code : Nat) (words : List Word) : (tellRtc s code words).rtc.tick = s.rtc.tick := by rw [tellRtc_rtc]
@[simp] theorem tellRtc_armed (s : State) (code : Nat) (words : List Word) : (tellRtc s code words).rtc.armed = s.rtc.armed := by rw [tellRtc_rtc]
@[simp] theorem tellRtc_alarm (s : State) (code : Nat) (words : List Word) : (tellRtc s code words).rtc.alarm = s.rtc.alarm := by rw [tellRtc_rtc]

/-- What the edge's alarm looks at, an event that is told leaves as it is. -/
theorem edgeAlarm_tellRtc (s : State) (code : Nat) (words : List Word) : edgeAlarm (tellRtc s code words) =
    if s.rtc.armed = true ∧ s.rtc.alarm ≤ s.rtc.tick then fireAlarm (tellRtc s code words) (decide (s.rtc.alarm < s.rtc.tick))
    else { tellRtc s code words with rtc := { (tellRtc s code words).rtc with lateArm := false } } := by
  simp only [edgeAlarm, tellRtc_tick, tellRtc_armed, tellRtc_alarm]

/-- The state at an edge with a change, before its event is told. -/
def changed (s : State) (x : TimeChange) : State :=
  let t := if x.adjust then (((s.rtc.tick + 1 : Nat) : Int) + x.value).toNat % 2 ^ 48 else x.value.toNat
  let r := { s.rtc with tick := t, trim := s.rtc.trimNew.getD s.rtc.trim, trimNew := none, change := none }
  { s with rtc := if x.adjust then { r with beyond := s.rtc.beyond || decide (s.rtc.tick < calendarEnd ∧ calendarEnd ≤ t) }
                  else { r with valid := true, beyond := false } }

theorem changed_fields (s : State) (x : TimeChange) :
    (changed s x).rtc.tick = (if x.adjust then (((s.rtc.tick + 1 : Nat) : Int) + x.value).toNat % 2 ^ 48 else x.value.toNat) ∧
    (changed s x).rtc.armed = s.rtc.armed ∧ (changed s x).rtc.alarm = s.rtc.alarm := by
  unfold changed
  cases x.adjust <;> exact ⟨rfl, rfl, rfl⟩

/-- A tick edge with a change tells it, fires an alarm that it reaches, and ends the command that waited. -/
theorem tickEdge_of_change {s : State} {x : TimeChange} {t : Nat} (h : s.rtc.change = some x) (ht : (changed s x).rtc.tick = t) :
    let c := tellRtc (changed s x) 0x0180 (twoWords s.rtc.tick ++ twoWords t ++ [word (b2n x.adjust)])
    let late := decide (s.rtc.alarm < t)
    tickEdge s = endChange
      (if s.rtc.armed = true ∧ s.rtc.alarm ≤ t then fireAlarm c late else { c with rtc := { c.rtc with lateArm := false } })
      s.rtc.tick (s.rtc.armed && decide (s.rtc.alarm ≤ t) && late) (some x) := by
  subst ht
  have hedge : { s with rtc := s.rtc.edge } = changed s x := by
    rw [edge_of_some h]
    rfl
  obtain ⟨-, harmed, halarm⟩ := changed_fields s x
  rw [tickEdge_eq, h, hedge]
  simp only [tellChange, edgeAlarm_tellRtc, tellRtc_tick, tellRtc_armed, tellRtc_alarm, harmed, halarm]

theorem endChange_of_not_exec {s : State} {x : TimeChange} (h : (box s x.mb).state ≠ .exec) (before : Nat) (fired : Bool) :
    endChange s before fired (some x) = s := if_pos (bne_iff_ne.mpr h)

theorem endChange_of_exec {s : State} {x : TimeChange} (h : (box s x.mb).state = .exec) (before : Nat) (fired : Bool) :
    endChange s before fired (some x) = if x.adjust then finish s x.mb { Reply.ok with res0 := b2n fired }
      else finish s x.mb { Reply.ok with res0 := before % 2 ^ 32, res1 := before / 2 ^ 32 } := if_neg (by simp [h])

theorem b2n_and (a b c : Bool) : b2n (a && b && c) = if (a = true ∧ b = true) ∧ c = true then 1 else 0 := by
  cases a <;> cases b <;> cases c <;> rfl

/-- A tick edge without a change counts one tick, and fires an armed alarm that it reaches. -/
theorem tickEdge_of_none {s : State} (h : s.rtc.change = none) : tickEdge s = edgeAlarm { s with rtc := { s.rtc with
    tick := (s.rtc.tick + 1) % 2 ^ 48, trim := s.rtc.trimNew.getD s.rtc.trim, trimNew := none
    beyond := s.rtc.beyond || decide (s.rtc.tick + 1 = calendarEnd) } } := by
  simp only [tickEdge_eq, edge_of_none h, h, tellChange, endChange]

theorem tellRtc_with_rtc_of_running {s : State} (h : s.clk.running = true) (r : Rtc) (code : Nat) (words : List Word) :
    tellRtc { s with rtc := r } code words = record { s with rtc := r } code 6 words := if_pos h

theorem tellRtc_with_rtc_of_stopped {s : State} (h : s.clk.running = false) (r : Rtc) (code : Nat) (words : List Word) :
    tellRtc { s with rtc := r } code words = { s with rtc := { r with told := r.told ++ [(code, words)] } } :=
  if_neg (ne_true_of_eq_false h)

theorem fireAlarm_of_running {s : State} (h : s.clk.running = true) (late : Bool) :
    fireAlarm s late = record { s with rtc := { s.rtc with alm := true, almLate := late, armed := false, lateArm := false } }
      0x0181 6 (twoWords s.rtc.alarm ++ [word (b2n late)]) := if_pos h

/-- Settles O56: the edge by what it counts or changes, the alarm by what it tells, and each event by its own meaning. -/
theorem theTimeBaseTakesItsEvents : Obligations.TheTimeBaseTakesItsEvents := by
  unfold Obligations.TheTimeBaseTakesItsEvents
  refine ⟨fun s x h hosc hrun hp => ?apply, fun s x h => ?change, fun s h => ⟨fun harm hle => ?reached, fun hno => ?unreached⟩,
    fun s harm hosc hp hchange => ⟨fun hlate => ?firesLate, fun hlate => ?fires⟩,
    fun s late => ⟨fun hrun => ?toldNow, fun hstop => ?toldLater⟩, fun s hb hosc hp => ?beyond,
    fun s hosc hp => ⟨fun hrun => ?stopRecorded, fun hstop => ?stopWaits⟩,
    fun s hosc hp => ⟨fun hrun => ?restartRecorded, fun hstop => ?restartWaits⟩, fun s mv hrun hps => ?battery⟩
  case apply => exact (exec_timeChangeApply s).trans (if_neg (by simp [h, hosc, hrun, hp]))
  case change =>
    obtain ⟨htick, -, -⟩ := changed_fields s x
    have hedge := tickEdge_of_change h htick
    refine ⟨fun hexec hadj => ?adjusted, fun hexec hset => ?wasSet, fun hexec => ?nobody⟩
    case adjusted =>
      refine (hedge.trans (endChange_of_exec hexec _ _)).trans ((if_pos hadj).trans ?_)
      simp only [b2n_and, decide_eq_true_eq]
    case wasSet => exact (hedge.trans (endChange_of_exec hexec _ _)).trans (if_neg (ne_true_of_eq_false hset))
    case nobody => exact hedge.trans (endChange_of_not_exec hexec _ _)
  case reached => exact (tickEdge_of_none h).trans (if_pos ⟨harm, hle⟩)
  case unreached =>
    refine (tickEdge_of_none h).trans (if_neg ?_)
    rintro ⟨harm, hle⟩
    rcases hno with hoff | hlt
    · exact ne_true_of_eq_false hoff harm
    · exact Nat.not_le.mpr hlt hle
  case firesLate => exact ((exec_alarmFire s).trans (if_neg (by simp [harm, hosc, hp, hchange]))).trans (if_pos hlate)
  case fires =>
    exact ((exec_alarmFire s).trans (if_neg (by simp [harm, hosc, hp, hchange]))).trans (if_neg (ne_true_of_eq_false hlate))
  case toldNow =>
    refine (congrArg State.rtc (fireAlarm_of_running hrun late)).trans ?_
    rw [record_frame]
  case toldLater => exact if_neg (ne_true_of_eq_false hstop)
  case beyond => exact (exec_beyondReached s).trans (if_neg (by simp [hb, hosc, hp]))
  case stopRecorded =>
    have hstopped : oscStopped s = advanceHeld s (s.clk.nt + 1000 - s.rtc.acc / tickRate s.rtc.trim) := if_pos hrun
    have hclk : (advanceHeld s (s.clk.nt + 1000 - s.rtc.acc / tickRate s.rtc.trim)).clk.running = true := by
      simp [advanceHeld, advanceTo_clk, hrun]
    refine ((exec_oscStop s).trans (if_neg (by simp [hosc, hp]))).trans ?_
    rw [hstopped]
    exact congrArg done (tellRtc_with_rtc_of_running hclk _ _ _)
  case stopWaits =>
    have hstopped : oscStopped s = s := if_neg (ne_true_of_eq_false hstop)
    refine ((exec_oscStop s).trans (if_neg (by simp [hosc, hp]))).trans ?_
    rw [hstopped]
    exact congrArg done (tellRtc_with_rtc_of_stopped hstop _ _ _)
  case restartRecorded =>
    exact ((exec_oscRestart s).trans (if_neg (by simp [hosc, hp]))).trans (congrArg (fun t => done (tickEdge t)) (tellRtc_with_rtc_of_running hrun _ _ _))
  case restartWaits =>
    exact ((exec_oscRestart s).trans (if_neg (by simp [hosc, hp]))).trans (congrArg (fun t => done (tickEdge t)) (tellRtc_with_rtc_of_stopped hstop _ _ _))
  case battery =>
    have hcond : ¬(!s.clk.running || !(s.pwr.pstate == 2 || inRun s)) = true := by
      rcases hps with hps | hps
      · simp [hrun, hps]
      · simp [hrun, inRun, hps]
    refine ((exec_batlowCheck mv s).trans (if_neg hcond)).trans ?_
    simp only [inRun, beq_iff_eq]
    rfl

end Sys2Proof.Machine
end

section
/-! PROOFS. The RTC block: what a read freezes and answers, and what a write clears; O57. -/
namespace Sys2Proof.Machine

/-! Reads of the RTC block (14 R378 to R380, Table 14-1). -/

/-- A read of a free block freezes it at its instant. -/
theorem freezeRtc_of_free {s : State} (h : frozenShadow s = none) :
    let f := { s with rtc := { s.rtc with frz := (s.rtc.frz + 1) % 256 } }
    freezeRtc s = { f with rtc := { f.rtc with shadow := some { regs := rtcLive f, nt := s.clk.nt } } } := by
  simp only [freezeRtc, h]

/-- A read of a frozen block leaves it as it is. -/
theorem freezeRtc_of_frozen {s : State} {x : Shadow} (h : frozenShadow s = some x) : freezeRtc s = s := by
  simp only [freezeRtc, h]

theorem shadowWord_of_shadow {s : State} {x : Shadow} (h : s.rtc.shadow = some x) (off : Nat) :
    shadowWord s off = (nth 0 x.regs (off / 4)).toNat := by
  simp only [shadowWord, h]

theorem readRtc_of_lt {off : Nat} (h : off < 0x1C) (s : State) : readRtc s off = (shadowWord (freezeRtc s) off, freezeRtc s) :=
  (if_neg (by omega)).trans (congrArg (Prod.mk _) (if_neg (by omega)))

theorem readRtc_tickHi (s : State) : readRtc s 0x1C = (shadowWord (freezeRtc s) 0x1C, releaseRtc (freezeRtc s)) := rfl

theorem aligned_div_four (offset : Nat) : 4 * (offset / 4) / 4 = offset / 4 := Nat.mul_div_cancel_left _ (by decide)

/-- A read below RTC_TICK_HI answers the shadow word and leaves the block frozen. -/
theorem does_rtcRegisterRead {s u : State} {regs : List Word} {nt : Nat} {offset : Nat} (hrun : s.clk.running = true) (hoff : offset < 0x1C)
    (hfreeze : freezeRtc s = u) (hx : u.rtc.shadow = some { regs := regs, nt := nt }) :
    Does (.rtcRegisterRead offset) s (answer u (nth 0 regs (offset / 4)).toNat) := by
  refine ((exec_rtcRegisterRead offset s).trans (if_pos hrun)).trans (congrArg done ?_)
  rw [hostReadRtc, readRtc_of_lt (by omega), hfreeze, shadowWord_of_shadow hx, aligned_div_four]

/-- A read of RTC_TICK_HI answers its shadow word and releases the block. -/
theorem does_rtcTickHiRead {s u : State} {regs : List Word} {nt : Nat} (hrun : s.clk.running = true)
    (hfreeze : freezeRtc s = u) (hx : u.rtc.shadow = some { regs := regs, nt := nt }) :
    Does .rtcTickHiRead s (answer (releaseRtc u) (nth 0 regs 7).toNat) := by
  refine ((exec_rtcTickHiRead s).trans (if_pos hrun)).trans (congrArg done ?_)
  rw [hostReadRtc, readRtc_tickHi, hfreeze, shadowWord_of_shadow hx]

/-- Settles O57: a read by whether the block is free, a write by its offset. -/
theorem rtcReadsAreOfOneInstant : Obligations.RtcReadsAreOfOneInstant := by
  unfold Obligations.RtcReadsAreOfOneInstant
  refine ⟨fun s offset hrun hoff hfree => ?freeRead, fun s offset x hrun hoff hfrozen hx => ?frozenRead,
    fun s x hrun hfrozen hx => ?frozenTickHi, fun s hrun hfree => ?freeTickHi, fun s offset value hrun hoff => ?write,
    fun s offset value hrun hoff => ⟨fun halm => ?writeAlm, fun halm => ?writeStat⟩, fun s x hrun hx => ?timeout⟩
  case freeRead => exact does_rtcRegisterRead hrun hoff (freezeRtc_of_free hfree) rfl
  case frozenRead => exact does_rtcRegisterRead hrun hoff (freezeRtc_of_frozen hfrozen) hx
  case frozenTickHi => exact does_rtcTickHiRead hrun (freezeRtc_of_frozen hfrozen) hx
  case freeTickHi =>
    have hdoes := does_rtcTickHiRead hrun (freezeRtc_of_free hfree) rfl
    exact hdoes
  case write =>
    have hne : 4 * (offset / 4) ≠ 0 := by omega
    exact ((exec_rtcBlockWrite offset value s).trans (if_pos hrun)).trans (congrArg done (if_pos hne))
  case writeAlm =>
    have hzero : ¬4 * (offset / 4) ≠ 0 := by omega
    exact ((exec_rtcBlockWrite offset value s).trans (if_pos hrun)).trans
      (congrArg done ((if_neg hzero).trans (if_pos ((Bool.and_eq_true _ _).mpr halm))))
  case writeStat =>
    have hzero : ¬4 * (offset / 4) ≠ 0 := by omega
    exact ((exec_rtcBlockWrite offset value s).trans (if_pos hrun)).trans
      (congrArg done ((if_neg hzero).trans (if_neg (mt (Bool.and_eq_true _ _).mp halm))))
  case timeout =>
    refine (exec_rtcShadowTimeout s).trans ?_
    simp only [execRtcShadowTimeout, hx, hrun, if_true]
    rfl

end Sys2Proof.Machine
end

section
/-! PROOFS. The store's, the recorder's and the key commands: each command by the branches of its meaning; O48 and O49. -/
namespace Sys2Proof.Machine

/-! The store's and the recorder's commands (13 Tables 13-13 and 13-15). -/

/-- Settles O48: each clause is one branch of the command's meaning on a mailbox that is taken. -/
theorem storeAndRecorderCommandsAnswer : Obligations.StoreAndRecorderCommandsAnswer := by
  unfold Obligations.StoreAndRecorderCommandsAnswer
  refine ⟨fun s mb h => ⟨fun hrec => ?storeRecalling, fun hrec hnone => ?storeNothing, fun hrec hsome hbusy => ?storeBusy, fun hrec hsome hfree => ?store⟩,
    fun s mb h => ⟨fun hrec => ?infoRecalling, fun hrec => ?info⟩,
    fun s mb h => ⟨fun hrec => ?counterRecalling, fun hrec hc => ?counterBad, fun hrec hc => ?counter⟩,
    fun s mb h => ⟨fun hn => ?readOperand, fun hlo hhi hnew => ?readNothing, fun hlo hhi hnew hold => ?readOverwritten, fun hlo hhi hnew hold => ?read⟩,
    fun s mb h => ?excerpt, fun s mb h => ⟨fun hc => ?codeUnknown, fun hc => ?code⟩⟩
  case storeRecalling => exact refuses_of_taken (status := stNotReady) h (exec_rsStore mb s) (if_pos hrec)
  case storeNothing =>
    exact refuses_of_taken (status := stBadParameter) h (exec_rsStore mb s) ((if_neg (ne_true_of_eq_false hrec)).trans (if_pos hnone))
  case storeBusy =>
    exact refuses_of_taken (status := stBusy) h (exec_rsStore mb s) ((if_neg (ne_true_of_eq_false hrec)).trans
      ((if_neg hsome).trans ((if_neg (ne_true_of_eq_false (collides_ma05 s 0))).trans (if_pos hbusy))))
  case store =>
    exact does_of_taken h (exec_rsStore mb s) ((if_neg (ne_true_of_eq_false hrec)).trans
      ((if_neg hsome).trans ((if_neg (ne_true_of_eq_false (collides_ma05 s 0))).trans (if_neg (ne_true_of_eq_false hfree)))))
  case infoRecalling => exact refuses_of_taken (status := stNotReady) h (exec_rsInfo mb s) (if_pos hrec)
  case info => exact does_of_taken h (exec_rsInfo mb s) (if_neg (ne_true_of_eq_false hrec))
  case counterRecalling => exact refuses_of_taken (status := stNotReady) h (exec_ctrRead mb s) (if_pos hrec)
  case counterBad =>
    exact refuses_of_taken (status := stBadParameter) h (exec_ctrRead mb s) ((if_neg (ne_true_of_eq_false hrec)).trans (if_pos hc))
  case counter =>
    exact does_of_taken h (exec_ctrRead mb s) ((if_neg (ne_true_of_eq_false hrec)).trans (if_neg (Nat.not_le.mpr hc)))
  case readOperand => exact refuses_of_taken (status := stBadParameter) h (exec_evrRead mb s) (if_pos hn)
  case readNothing => exact does_of_taken h (exec_evrRead mb s) ((if_neg (by omega)).trans (if_pos hnew))
  case readOverwritten =>
    exact does_of_taken h (exec_evrRead mb s) ((if_neg (by omega)).trans ((if_neg (Nat.not_le.mpr hnew)).trans (if_pos hold)))
  case read =>
    exact does_of_taken h (exec_evrRead mb s) ((if_neg (by omega)).trans ((if_neg (Nat.not_le.mpr hnew)).trans (if_neg (Nat.not_lt.mpr hold))))
  case excerpt => exact does_of_taken h (exec_evrExcerpt mb s) rfl
  case codeUnknown => exact refuses_of_taken (status := stBadParameter) h (exec_evrCode mb s) (if_pos ((Bool.not_eq_true' _).mpr hc))
  case code => exact does_of_taken h (exec_evrCode mb s) (if_neg (by simp [hc]))

/-! The key commands (13 Table 13-14, 17 R425, R434 to R438). -/

/-- With keys disabled every key command but KEY_INFO is refused. -/
theorem key_commands_refused {s : State} {mb : Nat} (hoff : keysOn s = false) :
    (Taken s mb 0x0A02 → Refuses (.keyStage mb) s mb stNotPermitted) ∧ (Taken s mb 0x0A03 → Refuses (.keyVerify mb) s mb stNotPermitted) ∧
    (Taken s mb 0x0A04 → Refuses (.keyCommit mb) s mb stNotPermitted) ∧ (Taken s mb 0x0A05 → Refuses (.keyDiscard mb) s mb stNotPermitted) ∧
    (Taken s mb 0x0A06 → Refuses (.attest mb) s mb stNotPermitted) ∧ (Taken s mb 0x0A07 → Refuses (.keyPublic mb) s mb stNotPermitted) := by
  have hkeys : (!keysOn s) = true := (Bool.not_eq_true' _).mpr hoff
  refine ⟨fun h => ?stage, fun h => ?verify, fun h => ?commit, fun h => ?discard, fun h => ?attest, fun h => ?publicKey⟩
  case stage => exact refuses_of_taken h (exec_keyStage mb s) (if_pos hkeys)
  case verify =>
    refine refuses_of_taken h (exec_keyVerify mb s) ?_
    cases s.ks.staged with
    | none => rfl
    | some k => exact if_pos (by simp [hoff])
  case commit =>
    refine refuses_of_taken h (exec_keyCommit mb s) ?_
    cases s.ks.staged with
    | none => rfl
    | some k => exact if_pos (by simp [hoff])
  case discard =>
    refine refuses_of_taken h (exec_keyDiscard mb s) ?_
    cases s.ks.staged with
    | none => rfl
    | some k => exact if_pos (by simp [hoff])
  case attest => exact refuses_of_taken h (exec_attest mb s) (if_pos hkeys)
  case publicKey => exact refuses_of_taken h (exec_keyPublic mb s) (if_pos hkeys)

/-- With no key staged there is none to verify, to commit or to discard. -/
theorem staged_key_commands_refused_of_none {s : State} {mb : Nat} (hnone : s.ks.staged = none) :
    (Taken s mb 0x0A03 → Refuses (.keyVerify mb) s mb stNotPermitted) ∧ (Taken s mb 0x0A04 → Refuses (.keyCommit mb) s mb stNotPermitted) ∧
    (Taken s mb 0x0A05 → Refuses (.keyDiscard mb) s mb stNotPermitted) := by
  refine ⟨fun h => refuses_of_taken h (exec_keyVerify mb s) ?_, fun h => refuses_of_taken h (exec_keyCommit mb s) ?_,
    fun h => refuses_of_taken h (exec_keyDiscard mb s) ?_⟩ <;> rw [hnone]

/-- A command that names another slot than the staged key's is refused. -/
theorem staged_key_commands_refused_of_other_slot {s : State} {mb : Nat} {k : StagedKey} (hk : s.ks.staged = some k)
    (hother : ¬(box s mb).arg0.toNat = k.slot) :
    (Taken s mb 0x0A03 → Refuses (.keyVerify mb) s mb stNotPermitted) ∧ (Taken s mb 0x0A04 → Refuses (.keyCommit mb) s mb stNotPermitted) ∧
    (Taken s mb 0x0A05 → Refuses (.keyDiscard mb) s mb stNotPermitted) := by
  have hslot : (k.slot != (box s mb).arg0.toNat) = true := bne_iff_ne.mpr (Ne.symm hother)
  refine ⟨fun h => refuses_of_taken h (exec_keyVerify mb s) ?_, fun h => refuses_of_taken h (exec_keyCommit mb s) ?_,
    fun h => refuses_of_taken h (exec_keyDiscard mb s) ?_⟩ <;> rw [hk] <;> exact if_pos (by simp [hslot])

/-- KEY_VERIFY of the staged key's slot: the check value decides. -/
theorem does_keyVerify {s t : State} {mb : Nat} {k : StagedKey} (h : Taken s mb 0x0A03) (hkeys : keysOn s = true) (hk : s.ks.staged = some k)
    (hslot : (box s mb).arg0.toNat = k.slot)
    (ht : (if checkValue k.key = (box s mb).arg1.toNat % 2 ^ 24 then
        finish { s with ks := { s.ks with staged := some { k with verified := true } } } mb Reply.ok
      else refuse s mb stAuthFailed) = t) : Does (.keyVerify mb) s t := by
  refine does_of_taken h (exec_keyVerify mb s) ?_
  rw [hk]
  exact (if_neg (by simp [hkeys, hslot])).trans ht

/-- KEY_COMMIT of the staged key's slot: a key not verified is refused; else the command is accepted, and answered at once where no line names the slot. -/
theorem does_keyCommit {s t : State} {mb : Nat} {k : StagedKey} (h : Taken s mb 0x0A04) (hkeys : keysOn s = true) (hk : s.ks.staged = some k)
    (hslot : (box s mb).arg0.toNat = k.slot) (hver : k.verified = true)
    (ht : (let u := accept { s with ks := { s.ks with commit := some { slot := k.slot, mb := mb, since := s.clk.nt } } } mb
      if lineNames u k.slot then u else replyTo u mb Reply.ok) = t) : Does (.keyCommit mb) s t := by
  refine does_of_taken h (exec_keyCommit mb s) ?_
  rw [hk]
  exact (if_neg (by simp [hkeys, hslot, hver])).trans ht

/-- Settles O49: the refusals of all key commands first, and then each command by the branches of its meaning. -/
theorem keyCommandsAnswer : Obligations.KeyCommandsAnswer := by
  unfold Obligations.KeyCommandsAnswer
  refine ⟨fun s mb h => does_of_taken h (exec_keyInfo mb s) rfl, fun s mb hoff => key_commands_refused hoff,
    fun s mb h hkeys => ?stage, fun s mb _ hnone => staged_key_commands_refused_of_none hnone,
    fun s mb k hkeys hk => ⟨fun hother => staged_key_commands_refused_of_other_slot hk hother, fun hslot h hcheck => ?verified,
      fun hslot h hcheck => ?notVerified, fun hslot h => ⟨fun hver => ?commitRefused, fun hver hline => ?commitWaits, fun hver hline => ?commitAtOnce⟩,
      fun hslot h => ?discard⟩,
    fun s mb h hkeys => ⟨fun hbad => ?attestBad, fun hgood => ?attest⟩,
    fun s mb h hkeys => ⟨fun hn => ?publicOperand, fun hn hbad => ?publicBad, fun hn hgood => ?publicKey⟩⟩
  case stage =>
    have hon : ¬(!keysOn s) = true := by simp [hkeys]
    have hfields (hf : (box s mb).reqLen = 144 ∧ wrappedOk (box s mb).arg0.toNat (box s mb).request = true) :
        ¬((box s mb).reqLen ≠ 144 ∨ (!wrappedOk (box s mb).arg0.toNat (box s mb).request) = true) := by simp [hf]
    refine ⟨fun hf => ?operand, fun hf hsome => ?busy, fun hf hnone hc => ?conflict, fun hf hnone hc hbad => ?keyBad,
      fun hf hnone hc hgood hk => ?authFailed, fun k hf hnone hc hgood hk => ?staged⟩
    case operand =>
      have hbad : (box s mb).reqLen ≠ 144 ∨ (!wrappedOk (box s mb).arg0.toNat (box s mb).request) = true := by
        rw [Bool.not_eq_true', ← Bool.not_eq_true]
        exact not_and_or.mp hf
      exact refuses_of_taken (status := stBadParameter) h (exec_keyStage mb s) ((if_neg hon).trans (if_pos hbad))
    case busy =>
      exact refuses_of_taken (status := stBusy) h (exec_keyStage mb s) ((if_neg hon).trans ((if_neg (hfields hf)).trans (if_pos hsome)))
    case conflict =>
      exact refuses_of_taken (status := stConflict) h (exec_keyStage mb s)
        ((if_neg hon).trans ((if_neg (hfields hf)).trans ((if_neg (by simp [hnone])).trans (if_pos hc))))
    case keyBad =>
      exact refuses_of_taken (status := stKeyBad) h (exec_keyStage mb s) ((if_neg hon).trans ((if_neg (hfields hf)).trans
        ((if_neg (by simp [hnone])).trans ((if_neg (ne_true_of_eq_false hc)).trans (if_pos hbad)))))
    case authFailed =>
      refine refuses_of_taken (status := stAuthFailed) h (exec_keyStage mb s) ((if_neg hon).trans ((if_neg (hfields hf)).trans
        ((if_neg (by simp [hnone])).trans ((if_neg (ne_true_of_eq_false hc)).trans ((if_neg (ne_true_of_eq_false hgood)).trans ?_)))))
      rw [hk]
    case staged =>
      refine does_of_taken h (exec_keyStage mb s) ((if_neg hon).trans ((if_neg (hfields hf)).trans
        ((if_neg (by simp [hnone])).trans ((if_neg (ne_true_of_eq_false hc)).trans ((if_neg (ne_true_of_eq_false hgood)).trans ?_)))))
      rw [hk]
  case verified => exact does_keyVerify h hkeys hk hslot (if_pos hcheck)
  case notVerified => exact does_keyVerify h hkeys hk hslot (if_neg hcheck)
  case commitRefused =>
    refine refuses_of_taken (status := stNotPermitted) h (exec_keyCommit mb s) ?_
    rw [hk]
    exact if_pos (by simp [hver])
  case commitWaits => exact does_keyCommit h hkeys hk hslot hver (if_pos hline)
  case commitAtOnce => exact does_keyCommit h hkeys hk hslot hver (if_neg (ne_true_of_eq_false hline))
  case discard =>
    refine does_of_taken h (exec_keyDiscard mb s) ?_
    rw [hk]
    exact if_neg (by simp [hkeys, hslot])
  case attestBad =>
    exact refuses_of_taken (status := stKeyBad) h (exec_attest mb s) ((if_neg (by simp [hkeys])).trans (if_pos hbad))
  case attest =>
    exact does_of_taken h (exec_attest mb s) ((if_neg (by simp [hkeys])).trans (if_neg (ne_true_of_eq_false hgood)))
  case publicOperand =>
    exact refuses_of_taken (status := stBadParameter) h (exec_keyPublic mb s) ((if_neg (by simp [hkeys])).trans (if_pos hn))
  case publicBad =>
    exact refuses_of_taken (status := stKeyBad) h (exec_keyPublic mb s)
      ((if_neg (by simp [hkeys])).trans ((if_neg (Nat.not_le.mpr hn)).trans (if_pos hbad)))
  case publicKey =>
    exact does_of_taken h (exec_keyPublic mb s)
      ((if_neg (by simp [hkeys])).trans ((if_neg (Nat.not_le.mpr hn)).trans (if_neg (ne_true_of_eq_false hgood))))

end Sys2Proof.Machine
end

section
/-! PROOFS. The store and the recorder: what follows a page store leaves of the shadow array, and a record offered by whether it has its token; O58. -/
namespace Sys2Proof.Machine

/-! What the circuits that begin the next operation leave of the shadow array (15 R393). -/

@[simp] theorem storeEnds_shadow (s : State) (who : StoreFor) (status : Nat) : (storeEnds s who status).rs.shadow = s.rs.shadow := by
  unfold storeEnds
  split
  · rfl
  · split <;> rfl
  · rfl

@[simp] theorem beginStore_shadow (fuel : Nat) (s : State) : (beginStore fuel s).rs.shadow = s.rs.shadow := by
  induction fuel generalizing s with
  | zero => rfl
  | succ f ih =>
    unfold beginStore
    split
    · rfl
    · rfl
    · next f' q t hf hqueue =>
      obtain rfl : f' = f := by omega
      split
      · split
        · exact ih _
        · rfl
      · split
        · exact ih _
        · rfl
      · split
        · rw [ih, storeEnds_shadow]
        · rfl

@[simp] theorem kickStore_shadow (s : State) : (kickStore s).rs.shadow = s.rs.shadow := by
  unfold kickStore
  split
  · split
    · rfl
    · split
      · rfl
      · exact beginStore_shadow _ s
  · rfl

@[simp] theorem applyOwner_shadow (s : State) (w : OwnerWrite) : (applyOwner s w).rs.shadow = s.rs.shadow := by
  unfold applyOwner
  split
  · exact kickStore_shadow _
  · rfl

@[simp] theorem foldl_applyOwner_shadow (ws : List OwnerWrite) (s : State) : (ws.foldl applyOwner s).rs.shadow = s.rs.shadow := by
  induction ws generalizing s with
  | nil => rfl
  | cons w ws ih => rw [List.foldl_cons, ih, applyOwner_shadow]

/-- A store that completes leaves its page in the shadow array, whatever its owner wrote meanwhile. -/
theorem lookup_shadow_completeStore {s : State} {c : Storing} (h : s.rs.cur = some c) :
    lookup (completeStore s).rs.shadow c.page = some c.image := by
  unfold completeStore
  simp only [h, kickStore_shadow]
  rw [apply_ite (fun u : State => u.rs.shadow), storeEnds_shadow, ite_self, foldl_applyOwner_shadow]
  exact lookup_insertAt_self ..

/-! A record that is offered (18 R448, R450, R451). -/

section
variable (s : State) (nt cyc code cls source : Nat) (replay : Bool) (words : List Word)

theorem offerRecord_of_unconfigured (h : codeConfigured s code = false) : offerRecord s nt cyc code cls source replay words = s :=
  if_pos (by rw [h]; rfl)

/-- Whether a record takes no token: its code's bucket never empties, its class is SAFE or HALT, or it is a GUARANTEE_EXCEPTION. -/
theorem free_iff (e : EventEntry) :
    (e.rint == 0 || decide (4 ≤ cls) || code == 0x0170) = true ↔ e.rint = 0 ∨ 4 ≤ cls ∨ code = 0x0170 := by
  simp only [Bool.or_eq_true, beq_iff_eq, decide_eq_true_eq, or_assoc]

/-- A record without a token is suppressed, and counted. -/
theorem offerRecord_of_suppressed (h : codeConfigured s code = true)
    (hfree : ¬((eventOf s code cls).rint = 0 ∨ 4 ≤ cls ∨ code = 0x0170)) (htok : (refilled s code (eventOf s code cls) nt).tokens = 0) :
    let b := refilled s code (eventOf s code cls) nt
    offerRecord s nt cyc code cls source replay words = { s with ev := { s.ev with
      buckets := insertAt s.ev.buckets code { b with supp := satAdd 32 b.supp 1 }
      suppressed := setD 0 s.ev.suppressed code (satAdd 32 (getD 0 s.ev.suppressed code) 1) } } := by
  have hconf : ¬(!codeConfigured s code) = true := by simp [h]
  have hcond := mt (free_iff code cls _).mp hfree
  exact (if_neg hconf).trans (if_pos (by simp only [Bool.eq_false_of_not_eq_true hcond, htok]; rfl))

/-- A record that is free or has its token waits to be written. -/
theorem offerRecord_of_granted (h : codeConfigured s code = true)
    (hfree : ((eventOf s code cls).rint = 0 ∨ 4 ≤ cls ∨ code = 0x0170) ∨ (refilled s code (eventOf s code cls) nt).tokens ≠ 0) :
    ∃ bs, offerRecord s nt cyc code cls source replay words =
      pushRecord { s with ev := { s.ev with buckets := bs } } nt cyc code cls source replay (refilled s code (eventOf s code cls) nt).supp words := by
  have hconf : ¬(!codeConfigured s code) = true := by simp [h]
  have hcond : ¬(!((eventOf s code cls).rint == 0 || decide (4 ≤ cls) || code == 0x0170) && (refilled s code (eventOf s code cls) nt).tokens == 0) = true := by
    rw [Bool.and_eq_true, beq_iff_eq, Bool.not_eq_true', ← Bool.not_eq_true, free_iff]
    tauto
  exact ⟨_, (if_neg hconf).trans (if_neg hcond)⟩

end

/-- A record of a code without a list waits alone. -/
theorem pushRecord_waiting {s : State} {code cls : Nat} (h : (eventOf s code cls).mode ≠ 2)
    (nt cyc source : Nat) (replay : Bool) (supp : Nat) (words : List Word) :
    let r : Rec :=
      { seq := 0, nt := nt, mcc := cyc, code := code, source := source, body := eventBody supp words
        flags := recFlags cls replay 0 ((eventOf s code cls).excerpt || code == 0x0170) }
    (pushRecord s nt cyc code cls source replay supp words).ev.waiting = s.ev.waiting ++ [r] := by
  simp only [pushRecord, if_neg h]

/-- Settles O58: each event by its own meaning, a page store by what follows leaves of the shadow array, an offer by whether it has its token. -/
theorem storeAndRecorderGoOn : Obligations.StoreAndRecorderGoOn := by
  unfold Obligations.StoreAndRecorderGoOn
  refine ⟨fun s hrun hrec hstart => ?recalled, fun s c hrun hc => ⟨?pageStore, lookup_shadow_completeStore hc⟩,
    fun s i hrun hi => ?increment, fun s c => ?programmed, fun s mv hrun => (exec_vholdMeasure mv s).trans (if_pos hrun),
    fun s code cls source words hrun hcode => ?offer,
    fun s nt cyc code cls source replay words =>
      ⟨fun hc => offerRecord_of_unconfigured s nt cyc code cls source replay words hc, fun hc hfree hmode => ?waits, fun hc hfree htok => ?suppressed⟩,
    fun s r t hr hrun hstarted hgranted => ?write, fun s page t ht hrun hdirty => ?dirty, fun s bad hrun hsafe => ?keySlots⟩
  case recalled => exact (exec_recallComplete s).trans (if_pos (by simp [hrun, hrec, hstart]))
  case pageStore => exact (exec_pageStore s).trans (if_pos hrun)
  case increment =>
    refine (exec_counterIncrement s).trans ?_
    rw [execCounterIncrement, hi]
    exact if_neg (by simp [hrun])
  case programmed => simp only [programCell, getD_setD_self]
  case offer =>
    have hnone : ¬(0x0800 ≤ code ∧ code ≤ 0x0FFF) := by omega
    exact (exec_recordOffer code cls source words s).trans (if_pos (by simp [hrun, hnone]))
  case waits =>
    obtain ⟨bs, hbs⟩ := offerRecord_of_granted s nt cyc code cls source replay words hc hfree
    rw [hbs]
    exact pushRecord_waiting (s := { s with ev := { s.ev with buckets := bs } }) hmode ..
  case suppressed =>
    have hu := offerRecord_of_suppressed s nt cyc code cls source replay words hc hfree htok
    rw [hu]
    exact ⟨rfl, getD_setD_self _ _ _ _⟩
  case write =>
    refine (exec_recordWrite s).trans ?_
    rw [execRecordWrite, hr]
    exact if_pos (by simp [hrun, hstarted, hgranted])
  case dirty =>
    refine (exec_excerptDirtyTimeout page s).trans ?_
    rw [execExcerptDirtyTimeout, ht]
    exact if_neg (by simp [hrun, bit, hdirty])
  case keySlots => exact (exec_keySlotCheck bad s).trans (if_neg (by simp [hrun, hsafe]))

end Sys2Proof.Machine
end

section
/-! PROOFS. Check-value units: a unit among the eight, the bytes of a number fed in order, a write of CV_CFG by its cases, and a context restored; O53 to O55. -/
namespace Sys2Proof.Machine

/-! A check-value unit among the eight (16 R412 to R417). -/

/-- What a command makes of a unit's entry, it writes there. -/
theorem modifyNth_eq_setNth {α : Type} (d : α) {l : List α} {i : Nat} (f : α → α) (h : i < l.length) :
    modifyNth l i f = setNth l i (f (nth d l i)) := by
  induction l generalizing i with
  | nil => exact absurd h (Nat.not_lt_zero i)
  | cons a t ih =>
    cases i with
    | zero => rfl
    | succ i => exact congrArg (a :: ·) (ih (Nat.lt_of_succ_lt_succ h))

theorem setNth_nth_self {α : Type} (d : α) (l : List α) (i : Nat) : setNth l i (nth d l i) = l := by
  induction l generalizing i with
  | nil => rfl
  | cons a t ih =>
    cases i with
    | zero => rfl
    | succ i => exact congrArg (a :: ·) (ih i)

/-- A command that works on a unit replaces that unit alone. -/
theorem does_onCv {c : Instr} {s : State} {unit : Nat} {f : Cv → Cv} {x : Cv} (hc : exec c s = whilePowered s (onCv s unit f))
    (hrun : s.clk.running = true) (hunit : unit < s.cv.length) (hx : f (cvUnit s unit) = x) :
    Does c s { s with cv := setNth s.cv unit x } := by
  subst hx
  have hdoes := does_of_running hc hrun
  rwa [onCv, modifyNth_eq_setNth Cv.reset f hunit] at hdoes

/-! What is fed, and the bytes of a number. -/

theorem feed_r (c : Cv) (bs : Bytes) : (c.feed bs).r = crcFeed c.width c.poly c.refin c.r bs := rfl
theorem feed_width (c : Cv) (bs : Bytes) : (c.feed bs).width = c.width := rfl
theorem feed_poly (c : Cv) (bs : Bytes) : (c.feed bs).poly = c.poly := rfl
theorem feed_refin (c : Cv) (bs : Bytes) : (c.feed bs).refin = c.refin := rfl

/-- The bytes are fed one after the other. -/
theorem crcFeed_cons (w poly : Nat) (refin : Bool) (r : Nat) (b : Byte) (bs : Bytes) :
    crcFeed w poly refin r (b :: bs) = crcFeed w poly refin (crcFeed w poly refin r [b]) bs := rfl

theorem natLe_one (v : Nat) : natLe 1 v = [BitVec.ofNat 8 (v / 256 ^ 0)] := by simp [natLe]

theorem natLe_two (v : Nat) : natLe 2 v = [BitVec.ofNat 8 (v / 256 ^ 0), BitVec.ofNat 8 (v / 256 ^ 1)] := by simp [natLe]

theorem natLe_four (v : Nat) :
    natLe 4 v = [BitVec.ofNat 8 (v / 256 ^ 0), BitVec.ofNat 8 (v / 256 ^ 1), BitVec.ofNat 8 (v / 256 ^ 2), BitVec.ofNat 8 (v / 256 ^ 3)] := by
  simp [natLe, Nat.div_div_eq_div_mul]

/-- Settles O53: a start and the feeds replace the unit, and the bytes of a value are fed in ascending order. -/
theorem checkValueUnitsFeedTheirBytes : Obligations.CheckValueUnitsFeedTheirBytes := by
  unfold Obligations.CheckValueUnitsFeedTheirBytes
  refine ⟨fun s unit hrun hunit => does_onCv (exec_cvStart unit s) hrun hunit rfl,
    fun s unit v hrun hunit => ⟨?byte, ?half, ?wholeWord, ?halfBytes, ?wordBytes, ?count⟩⟩
  case byte => exact does_onCv (exec_cvFeed8 unit v s) hrun hunit (congrArg (cvUnit s unit).feed (natLe_one v.toNat))
  case half => exact does_onCv (exec_cvFeed16 unit v s) hrun hunit (congrArg (cvUnit s unit).feed (natLe_two v.toNat))
  case wholeWord => exact does_onCv (exec_cvFeed32 unit v s) hrun hunit (congrArg (cvUnit s unit).feed (natLe_four v.toNat))
  case halfBytes =>
    simp only [feed_r, feed_width, feed_poly, feed_refin]
    exact crcFeed_cons ..
  case wordBytes =>
    simp only [feed_r, feed_width, feed_poly, feed_refin]
    rw [crcFeed_cons, crcFeed_cons _ _ _ _ (BitVec.ofNat 8 (v.toNat / 256 ^ 1)), crcFeed_cons _ _ _ _ (BitVec.ofNat 8 (v.toNat / 256 ^ 2))]
  case count => rfl

/-! A unit's parameters (16 R416, Table 16-2). -/

/-- A reserved WIDTH leaves the unit as it is. -/
theorem setCfg_of_reserved {v : Nat} (h : v % 64 = 0 ∨ 32 < v % 64) (c : Cv) : c.setCfg v = c := if_pos h

theorem setCfg_of_width {v : Nat} (hlo : 1 ≤ v % 64) (hhi : v % 64 ≤ 32) (c : Cv) :
    c.setCfg v = { c with width := v % 64, refin := v.testBit 8, refout := v.testBit 9, invout := v.testBit 10, r := c.r % 2 ^ (v % 64) } :=
  if_neg (by omega)

/-- A write of CV_CFG is ignored, or takes r modulo the new width. -/
theorem setCfg_cases (c : Cv) (v : Nat) : c.setCfg v = c ∨ (c.setCfg v).count = c.count ∧ (c.setCfg v).r = c.r % 2 ^ (c.setCfg v).width := by
  by_cases h : v % 64 = 0 ∨ 32 < v % 64
  · exact .inl (setCfg_of_reserved h c)
  · rw [setCfg_of_width (by omega) (by omega)]
    exact .inr ⟨rfl, rfl⟩

/-- Settles O54: a write of CV_CFG by its two cases, and what it and the writes of CV_POLY and CV_INIT leave. -/
theorem parametersOfAUnitKeepItsRemainder : Obligations.ParametersOfAUnitKeepItsRemainder := by
  unfold Obligations.ParametersOfAUnitKeepItsRemainder
  refine ⟨fun s unit v hrun hunit => ⟨fun hreserved => ?ignored, fun hlo hhi => does_onCv (exec_cvCfgWrite unit v s) hrun hunit (setCfg_of_width hlo hhi _)⟩,
    fun c v => ⟨?count, rfl, rfl, fun hr hwidth => ?sameWidth, fun hwidth => ?newWidth⟩,
    fun c v bs => ⟨rfl, rfl, fun hlo hhi => ?result⟩⟩
  case ignored =>
    have hdoes := does_onCv (exec_cvCfgWrite unit v s) hrun hunit (setCfg_of_reserved hreserved _)
    rwa [cvUnit, setNth_nth_self] at hdoes
  case count =>
    rcases setCfg_cases c v.toNat with hsame | ⟨hcount, -⟩
    · exact congrArg Cv.count hsame
    · exact hcount
  case sameWidth =>
    rcases setCfg_cases c v.toNat with hsame | ⟨-, hmod⟩
    · exact congrArg Cv.r hsame
    · refine hmod.trans ?_
      rw [show (c.setCfg v.toNat).width = c.width from hwidth, Nat.mod_eq_of_lt hr]
  case newWidth =>
    rcases setCfg_cases c v.toNat with hsame | ⟨-, hmod⟩
    · exact absurd (congrArg Cv.width hsame) hwidth
    · exact hmod
  case result => exact congrArg Cv.result (setCfg_of_width hlo hhi c)

/-! The context of a unit (16 R417). -/

theorem b2n_le_one (b : Bool) : b2n b ≤ 1 := by cases b <;> decide

theorem decide_b2n_eq_one (b : Bool) : decide (b2n b = 1) = b := by cases b <;> rfl

/-- The configuration register holds the width and the three marks. -/
theorem cfg_fields (c : Cv) (hhi : c.width ≤ 32) :
    c.cfg < 2 ^ 32 ∧ c.cfg % 64 = c.width ∧ c.cfg.testBit 8 = c.refin ∧ c.cfg.testBit 9 = c.refout ∧ c.cfg.testBit 10 = c.invout := by
  have hrefin := b2n_le_one c.refin
  have hrefout := b2n_le_one c.refout
  have hinvout := b2n_le_one c.invout
  have hbit8 : c.cfg / 2 ^ 8 % 2 = b2n c.refin := by unfold Cv.cfg; omega
  have hbit9 : c.cfg / 2 ^ 9 % 2 = b2n c.refout := by unfold Cv.cfg; omega
  have hbit10 : c.cfg / 2 ^ 10 % 2 = b2n c.invout := by unfold Cv.cfg; omega
  simp only [Nat.testBit_eq_decide_div_mod_eq, hbit8, hbit9, hbit10, decide_b2n_eq_one, and_self, and_true]
  unfold Cv.cfg
  omega

/-- The write of a context register with the value that the unit `c` had. -/
def restoreAt (c u : Cv) (off : Nat) : Cv := u.write off (BitVec.ofNat 32 (c.read off))

theorem restoreAt_poly (c u : Cv) : restoreAt c u 0x04 = { u with poly := c.poly % 2 ^ 32 } := rfl
theorem restoreAt_init (c u : Cv) : restoreAt c u 0x08 = { u with init := c.init % 2 ^ 32 } := rfl
theorem restoreAt_state (c u : Cv) : restoreAt c u 0x20 = { u with r := c.r % 2 ^ 32 % 2 ^ u.width } := rfl
theorem restoreAt_count (c u : Cv) : restoreAt c u 0x24 = { u with count := c.count % 2 ^ 32 } := rfl

/-- The registers other than CV_CFG hold different parts of a unit: their writes go by any order. -/
theorem restoreAt_comm (c u : Cv) : ∀ x ∈ [0x04, 0x08, 0x20, 0x24], ∀ y ∈ [0x04, 0x08, 0x20, 0x24],
    restoreAt c (restoreAt c u x) y = restoreAt c (restoreAt c u y) x := by
  simp only [List.forall_mem_cons, List.not_mem_nil, IsEmpty.forall_iff, implies_true, restoreAt_poly, restoreAt_init, restoreAt_state,
    restoreAt_count, and_self]

/-- The five registers written back in the order of R417 give the unit. -/
theorem restored_in_order (c d : Cv) (hlo : 1 ≤ c.width) (hhi : c.width ≤ 32) (hr : c.r < 2 ^ c.width) (hpoly : c.poly < 2 ^ 32)
    (hinit : c.init < 2 ^ 32) (hcount : c.count < 2 ^ 32) : [0x04, 0x08, 0x20, 0x24].foldl (restoreAt c) (restoreAt c d 0x00) = c := by
  obtain ⟨hcfg, hwidth, hrefin, hrefout, hinvout⟩ := cfg_fields c hhi
  have hr32 : c.r < 2 ^ 32 := Nat.lt_of_lt_of_le hr (Nat.pow_le_pow_right (by decide) hhi)
  have hset : restoreAt c d 0x00 = { d with width := c.width, refin := c.refin, refout := c.refout, invout := c.invout, r := d.r % 2 ^ c.width } := by
    show d.setCfg (c.cfg % 2 ^ 32) = _
    rw [Nat.mod_eq_of_lt hcfg, setCfg_of_width (by omega) (by omega), hwidth, hrefin, hrefout, hinvout]
  simp only [List.foldl_cons, List.foldl_nil, hset, restoreAt_poly, restoreAt_init, restoreAt_state, restoreAt_count,
    Nat.mod_eq_of_lt hpoly, Nat.mod_eq_of_lt hinit, Nat.mod_eq_of_lt hcount, Nat.mod_eq_of_lt hr32, Nat.mod_eq_of_lt hr]

/-- Settles O55: the four later writes go by any order, and in the order of R417 they give the unit; CV_STATE written under a narrower width is cut to it. -/
theorem aRestoredUnitIsAsItWas : Obligations.ARestoredUnitIsAsItWas := by
  unfold Obligations.ARestoredUnitIsAsItWas
  refine ⟨fun c d hlo hhi hr hpoly hinit hcount order horder => ?restored, ?lost⟩
  case restored =>
    have hany := horder.symm.foldl_eq' (f := restoreAt c) (fun x hx y hy u => restoreAt_comm c u x hx y hy) (restoreAt c d 0x00)
    show (0x00 :: order).foldl (restoreAt c) d = c
    rw [List.foldl_cons]
    exact hany.symm.trans (restored_in_order c d hlo hhi hr hpoly hinit hcount)
  case lost =>
    exact ⟨{ Cv.reset with r := 256 }, { Cv.reset with width := 8 }, by decide⟩

end Sys2Proof.Machine
end

section
/-! PROOFS. Supplies, resets and the start: what a loss of supply and the edges of a reset leave, and each step by its own meaning; O59 and O60. -/
namespace Sys2Proof.Machine

/-! What the supplies and the resets leave (14 R374, 19 R474, Table 19-7). -/

theorem domainCheck_of_powered {s : State} (h : rtcPowered s = true) : domainCheck s = s := if_pos h

/-- Without a supply the RTC and the watch ring are lost. -/
theorem domainCheck_of_unpowered {s : State} (h : rtcPowered s = false) :
    (domainCheck s).rtc = .reset ∧ (domainCheck s).mt.watchRing = [] := by
  unfold domainCheck
  rw [if_neg (ne_true_of_eq_false h)]
  exact ⟨rfl, rfl⟩

/-- Only the RTC and the meters can lose something with the supplies. -/
theorem domainCheck_frame (s : State) : domainCheck s = { s with rtc := (domainCheck s).rtc, mt := (domainCheck s).mt } := by
  unfold domainCheck
  split <;> rfl

@[simp] theorem domainCheck_pwr (s : State) : (domainCheck s).pwr = s.pwr := by rw [domainCheck_frame]

theorem fireAlarm_tick (s : State) (late : Bool) : (fireAlarm s late).rtc.tick = s.rtc.tick := tellRtc_tick ..

/-- The edges that pass are counted, whether they reach an alarm or not. -/
theorem passTicks_tick {s : State} {n : Nat} (hosc : s.rtc.oscFail = false) (hp : rtcPowered s = true) (hn : 0 < n) :
    (passTicks s n).rtc.tick = (s.rtc.tick + n) % 2 ^ 48 := by
  have hgo : ¬(s.rtc.oscFail || !rtcPowered s || decide (n = 0)) = true := by simp [hosc, hp, Nat.pos_iff_ne_zero.mp hn]
  rw [passTicks, if_neg hgo]
  dsimp only
  split
  · exact fireAlarm_tick ..
  · rfl

/-- The module without supply starts where VIN has come back, keeps its shadow array and its counters, and forgets the cause of the hardware safe state. -/
theorem unpowered_fields (s : State) (p : Nat) : (unpowered s p).pwr.pstate = (if s.pwr.vin = true then 2 else p) ∧ (unpowered s p).ft.hwCause = 0 ∧
    (unpowered s p).clk.running = false ∧ (unpowered s p).rs.shadow = s.rs.shadow ∧ (unpowered s p).rs.cells = s.rs.cells := by
  unfold unpowered
  rw [domainCheck_frame]
  exact ⟨rfl, rfl, rfl, rfl, rfl⟩

/-- Settles O59: each supply and reset by its own meaning, VIN that fails by the power state, and what is kept by what the states that follow leave. -/
theorem suppliesAndResetsMoveTheModule : Obligations.SuppliesAndResetsMoveTheModule := by
  unfold Obligations.SuppliesAndResetsMoveTheModule
  refine ⟨fun s ticks hvin => ⟨fun hoff => ?vinStarts, fun hon => ?vinShows⟩, fun s n hosc hp hn => passTicks_tick hosc hp hn,
    fun s hvin => ⟨fun hrun => ?failRun, fun hps hstay => ?failLeaves, fun hhalt => ?failHalt, fun hps => ?failElse⟩,
    fun s hover => (exec_holdEnd s).trans (if_pos hover), unpowered_fields, fun s hps => ?vbatLoss, fun s hps => ?watchEnds,
    fun s => ⟨domainCheck_of_powered, domainCheck_of_unpowered⟩, exec_vbatPresent, fun s hvin hps => ⟨fun hleave => ?cutLeaving, fun hstay => ?cutOff⟩,
    fun s cause => ⟨fun hmay => (exec_reset cause s).trans (if_pos hmay), fun hmay => (exec_reset cause s).trans (if_neg (ne_true_of_eq_false hmay))⟩,
    fun s t ht hmay hsafe => ?expiry, fun s p => ⟨rfl, rfl, rfl, rfl, rfl, rfl, rfl, rfl, rfl, rfl⟩,
    fun s => ⟨exec_boundaryScanAccess .testReset s, exec_boundaryScanAccess .idcode s, exec_boundaryScanAccess .bypass s,
      exec_boundaryScanAccess .samplePreload s, fun hreset => (exec_boundaryScanAccess .extest s).trans (if_pos hreset),
      fun hreset => (exec_boundaryScanAccess .extest s).trans (if_neg (ne_true_of_eq_false hreset))⟩⟩
  case vinStarts => exact (exec_vinGood ticks s).trans ((if_neg (ne_true_of_eq_false hvin)).trans (if_pos hoff))
  case vinShows => exact (exec_vinGood ticks s).trans ((if_neg (ne_true_of_eq_false hvin)).trans (if_neg (by omega)))
  case failRun =>
    refine (exec_vinFail s).trans ((if_neg (by simp [hvin])).trans ?_)
    simp only [domainCheck_pwr, hrun, done]
  case failLeaves =>
    refine (exec_vinFail s).trans ((if_neg (by simp [hvin])).trans ?_)
    rcases hps with hps | hps | hps <;> simp only [domainCheck_pwr, hps, hstay, Bool.false_eq_true, if_false, done]
  case failHalt =>
    refine (exec_vinFail s).trans ((if_neg (by simp [hvin])).trans ?_)
    simp only [domainCheck_pwr, hhalt, done]
  case failElse =>
    refine (exec_vinFail s).trans ((if_neg (by simp [hvin])).trans ?_)
    rcases hps with hps | hps | ⟨hps | hps | hps, hleave⟩
    · simp only [domainCheck_pwr, hps, done]
    · have hoff : s.pwr.pstate = 0 ∨ s.pwr.pstate = 1 := by omega
      rcases hoff with hoff | hoff <;> simp only [domainCheck_pwr, hoff, done]
    all_goals simp only [domainCheck_pwr, hps, hleave, if_true, done]
  case vbatLoss =>
    refine (exec_vbatLoss s).trans (congrArg (fun u => done (domainCheck u)) (if_neg hps))
  case watchEnds =>
    refine (exec_vbatLoss s).trans (congrArg (fun u => done (domainCheck u)) (if_pos hps))
  case cutLeaving =>
    have hgo : ¬(s.pwr.vin || decide (s.pwr.pstate ≤ 1)) = true := by simp [hvin]; omega
    exact (exec_vholdCutoff s).trans ((if_neg (by simpa using hgo)).trans (if_pos hleave))
  case cutOff =>
    have hgo : ¬(s.pwr.vin || decide (s.pwr.pstate ≤ 1)) = true := by simp [hvin]; omega
    exact (exec_vholdCutoff s).trans ((if_neg (by simpa using hgo)).trans (if_neg (ne_true_of_eq_false hstay)))
  case expiry =>
    refine (exec_sysResetExpiry s).trans ?_
    rw [execSysResetExpiry, ht]
    exact if_pos (by simp [sysResetStands, hmay, hsafe])

/-! The start (19 R463 to R468, R503). -/

/-- The edges of the reset leave the clocks and the power state as they are. -/
theorem ticksInReset_frame (s : State) : ticksInReset s =
    { s with rtc := (ticksInReset s).rtc, ev := (ticksInReset s).ev, free := (ticksInReset s).free } := by
  unfold ticksInReset drew
  rw [passTicks_frame]

@[simp] theorem ticksInReset_clk (s : State) : (ticksInReset s).clk = s.clk := by rw [ticksInReset_frame]
@[simp] theorem ticksInReset_pwr (s : State) : (ticksInReset s).pwr = s.pwr := by rw [ticksInReset_frame]

/-- The internal reset is released: the clocks run with NT 0, and the strap is latched. -/
def released (s : State) (hostsel : Bool) : State :=
  { ticksInReset s with
    clk := { s.clk with nt := 0, running := true, refOk := true, pllOk := true }
    pwr := { s.pwr with resetN := true, testmode := false, extest := false, hostsel := hostsel } }

theorem exec_internalResetRelease_released {s : State} (hps : s.pwr.pstate = 2) (hvin : s.pwr.vin = true) (hstop : s.clk.running = false)
    (hostsel : Bool) : exec (.internalResetRelease hostsel) s =
      done (if s.pwr.vioH then endOfReset (released s hostsel) else released s hostsel) := by
  refine (exec_internalResetRelease hostsel s).trans ((if_neg (by simp [hps, hvin, hstop])).trans ?_)
  simp only [ticksInReset_clk, ticksInReset_pwr]
  rfl

/-- Where VIO_H is good the training of the link begins with the release. -/
theorem endOfReset_released (s : State) (hostsel : Bool) : endOfReset (released s hostsel) = { released s hostsel with
    pwr := { (released s hostsel).pwr with linkSpi := hostsel }, pcie := { (released s hostsel).pcie with trainFrom := 20000 } } := by
  have htrain : (released s hostsel).clk.nt + 20000 = 20000 := Nat.zero_add 20000
  rw [endOfReset, htrain]
  rfl

/-- Settles O60: each step of the start by its own meaning, and the first boundary the first whole millisecond that is 25 ms away. -/
theorem theModuleStartsUp : Obligations.TheModuleStartsUp := by
  unfold Obligations.TheModuleStartsUp
  refine ⟨fun s hostsel hps hvin hstop => ⟨fun hvio => ?released, fun hvio => ?releasedLate⟩, fun s rootGood bad hstart hready => ?ready,
    fun s hstart hready hdone => ?complete, fun s n hn hwaits => ⟨fun hmay => ?activates, fun t ht himages => ?timeout⟩,
    fun s => ⟨_, rfl, by omega, by omega, by omega⟩⟩
  case released =>
    rw [Does, exec_internalResetRelease_released hps hvin hstop, if_pos hvio, endOfReset_released]
    rfl
  case releasedLate =>
    rw [Does, exec_internalResetRelease_released hps hvin hstop, if_neg (ne_true_of_eq_false hvio)]
    rfl
  case ready => exact (exec_readyAssert rootGood bad s).trans (if_neg (by simp [hstart, hready]))
  case complete => exact (exec_startupComplete s).trans (if_neg (by simp [hstart, hready, hdone]))
  case activates =>
    refine (exec_activation s).trans ?_
    rw [execActivation, hn]
    exact if_pos (by simp [hwaits, hmay])
  case timeout =>
    refine (exec_activationTimeout s).trans ?_
    rw [execActivationTimeout, hn, ht]
    exact if_pos (by simp [hwaits, himages])

end Sys2Proof.Machine
end
